-- ==== Sys2Proof/Word.lean ====
section
/-! DEFINITION. The word types of the machine and the shape of its sparse tables. -/

namespace Sys2Proof

/-- A byte of storage (R2). -/
abbrev Byte := BitVec 8
/-- A 32-bit lane value or instruction word (R44, R62). -/
abbrev W32 := BitVec 32
/-- A 64-bit scalar symbol, register or packet word (R44). -/
abbrev W64 := BitVec 64
/-- A set of lanes, bit l for lane l (R14, R48). -/
abbrev Lanes := BitVec 64
/-- A sparse table by number: keys strictly rise in its canonical form. -/
abbrev Tbl (α : Type) := List (Nat × α)

end Sys2Proof
end

