-- ==== Sys2Proof/Machine/Bits.lean ====
section
/-! DEFINITION. Bit fields, extension, byte order and sparse tables: the helpers every other file uses. -/

namespace Sys2Proof.Machine

/-- x[hi:lo] as an unsigned number (R71). -/
def bits (x hi lo : Nat) : Nat := (x >>> lo) % 2 ^ (hi + 1 - lo)

/-- Bit i of x. -/
def bit (x i : Nat) : Bool := (x >>> i) % 2 == 1

/-- sext: the signed value of the low n bits of x (R71). -/
def sextI (x n : Nat) : Int :=
  let y := x % 2 ^ n
  if n ≠ 0 && bit y (n - 1) then (y : Int) - (2 ^ n : Nat) else (y : Int)

/-- An integer as w bits of two's complement. -/
def wrapI (w : Nat) (x : Int) : Nat := (x % ((2 ^ w : Nat) : Int)).toNat

/-- A number as a 64-bit word, modulo 2^64. -/
def w64 (x : Nat) : W64 := BitVec.ofNat 64 x

/-- A number as a 32-bit word, modulo 2^32. -/
def w32 (x : Nat) : W32 := BitVec.ofNat 32 x

/-- The value with bits [hi:lo] of x replaced by v (modulo the field's width). -/
def setBits (x hi lo v : Nat) : Nat :=
  let n := hi + 1 - lo
  (x >>> (hi + 1)) <<< (hi + 1) ||| ((v % 2 ^ n) <<< lo) ||| x % 2 ^ lo

/-- The bytes of x, least significant first (R2). -/
def bytesOf : Nat → Nat → List Byte
  | 0, _ => []
  | n + 1, x => BitVec.ofNat 8 x :: bytesOf n (x >>> 8)

/-- The number whose little-endian bytes are given (R2). -/
def ofBytes : List Byte → Nat
  | [] => 0
  | b :: t => b.toNat + 256 * ofBytes t

/-- The numbers 0 to n - 1. -/
def upto (n : Nat) : List Nat := List.range n

/-- Lanes of a set in ascending order. -/
def lanesOf (m : Lanes) : List Nat := (upto 64).filter (fun l => m.getLsbD l)

/-- The set of the lanes given. -/
def laneSet (ls : List Nat) : Lanes := ls.foldl (fun m l => m ||| ((1 : Lanes) <<< l)) 0

/-- The lowest lane of a set, 0 for none. -/
def lowLane (m : Lanes) : Nat := (lanesOf m).headD 0

/-- The number of one bits among the low n. -/
def popc : Nat → Nat → Nat
  | 0, _ => 0
  | n + 1, x => (if bit x n then 1 else 0) + popc n x

/-- Leading zeros of x in n bits, n when x = 0. -/
def clz : Nat → Nat → Nat
  | 0, _ => 0
  | n + 1, x => if bit x n then 0 else 1 + clz n x

/-- l with element i replaced by v. -/
def setAt {α : Type} (l : List α) (i : Nat) (v : α) : List α := l.set i v

/-! Sparse tables. -/

/-- The entry with key k. -/
def tget {α : Type} (t : Tbl α) (k : Nat) : Option α :=
  match t with
  | [] => none
  | (j, v) :: r => if j = k then some v else tget r k

/-- The entry with key k, d when none is listed. -/
def tgetD {α : Type} (t : Tbl α) (k : Nat) (d : α) : α := (tget t k).getD d

/-- The table without key k. -/
def tdel {α : Type} (t : Tbl α) (k : Nat) : Tbl α := t.filter (fun e => e.1 ≠ k)

/-- (k, v) put at its place among rising keys. -/
def tins {α : Type} (k : Nat) (v : α) : Tbl α → Tbl α
  | [] => [(k, v)]
  | e :: r => if k < e.1 then (k, v) :: e :: r else e :: tins k v r

/-- The table with v under key k. -/
def tput {α : Type} (t : Tbl α) (k : Nat) (v : α) : Tbl α := tins k v (tdel t k)

/-- The table with v under key k, where an unlisted key reads as d: the default is not listed. -/
def tset {α : Type} [DecidableEq α] (d : α) (t : Tbl α) (k : Nat) (v : α) : Tbl α :=
  if v = d then tdel t k else tput t k v

/-- The table with the entry of key k, if listed, changed by f. -/
def tmod {α : Type} (t : Tbl α) (k : Nat) (f : α → α) : Tbl α :=
  match tget t k with
  | none => t
  | some v => tput t k (f v)

/-- The keys strictly rise. -/
def tsorted {α : Type} : Tbl α → Bool
  | [] => true
  | [_] => true
  | a :: b :: r => decide (a.1 < b.1) && tsorted (b :: r)

/-- Insertion into a list ordered by le. -/
def insertBy {α : Type} (le : α → α → Bool) (x : α) : List α → List α
  | [] => [x]
  | y :: r => if le x y then x :: y :: r else y :: insertBy le x r

/-- A list ordered by le; equal elements keep their order. -/
def sortBy {α : Type} (le : α → α → Bool) (l : List α) : List α := l.foldr (insertBy le) []

end Sys2Proof.Machine
end

