-- ==== Sys2Proof/Syntax.lean ====
section
/-! DEFINITION. The instruction words and machine events of the BXP-F940-A: one constructor per row of the opcode
table. A word's constructor carries the fields of its words as R62 and R63 lay them out; an event's constructor says
which pending operation, unit or register access it concerns. -/

namespace Sys2Proof

/-- The common format's fields (R62). -/
structure CW where
  d : BitVec 7
  a : BitVec 7
  b : BitVec 7
  g : BitVec 4
deriving DecidableEq, Repr

/-- The immediate format's fields (R62). -/
structure IW where
  d : BitVec 7
  a : BitVec 7
  imm : BitVec 11
deriving DecidableEq, Repr

/-- The modifier word (R63). -/
structure ModW where
  c : BitVec 7
  ty : BitVec 5
  scope : BitVec 3
  order : BitVec 2
  rnd : BitVec 3
  ty2 : BitVec 5
  card : BitVec 7
deriving DecidableEq, Repr

/-- The memory word (R63). -/
structure MemW where
  c : BitVec 7
  scope : BitVec 3
  order : BitVec 2
  size : BitVec 3
  nx : BitVec 1
  card : BitVec 4
  disp : BitVec 12
deriving DecidableEq, Repr

/-- The immediate word (R63). -/
structure XW where
  c : BitVec 7
  imm : BitVec 25
deriving DecidableEq, Repr

/-- What a 1588 message is to the slave (R408): the master's Sync, sent at t1, as it is received; the follow-up by which a two-step
master gives t1; the delay request as it is sent; the response with the time t4 at which the master received that. -/
inductive PtpKind where
  | sync (t1 : Option W64)
  | followUp (t1 : W64)
  | delayReq
  | delayResp (t4 : W64)
deriving DecidableEq, Repr

/-- A 1588 message on a fabric port, of a 1588 domain (R408). -/
structure PtpMsg where
  port : Nat
  dom : Nat
  kind : PtpKind
deriving DecidableEq, Repr

/-- The rows of the opcode table. -/
inductive Instr where
  /-- An unassigned cell issues and traps precisely with cause 0x01. (R68) -/
  | unimplementedOpcode (cls : BitVec 3) (w1 : W32) (w2 : W32)
  /-- A wave reaches a clause header, checks it and waits on its wait mask before the first word. (R58) -/
  | clauseIssue
  /-- A queued trap's handler starts when the core's handler slot frees. (R233) -/
  | handlerStart (core : Nat)
  /-- Load data returns and fills the destination, dropping the load counter. (R157) -/
  | loadResult (op : Nat)
  /-- An atomic update is applied indivisibly at the home slice and the old value returned. (R180) -/
  | atomHomeUpdate (op : Nat)
  /-- A write is performed at its home slice and takes its place in ws. (R270) -/
  | homeWritePerform (hw : Nat)
  /-- WAITC re-reads its word at intervals when no monitor is available or the address is on the host. (R185) -/
  | waitcRepoll (wid : Nat)
  /-- A wait on a host or peer address passes the external-wait timeout and traps with watchdog subcode 2. (R185) -/
  | externalWaitTimeout (wid : Nat)
  /-- The reference counter reaches a write's completion time and the write is performed at its scope. (R267) -/
  | writeCompletionTime (op : Nat)
  /-- A clean L1 copy's lease ends and the copy stops serving reads. (R265) -/
  | l1LeaseExpiry (cache line : Nat)
  /-- The L1 evicts a line, writing back dirty bytes or recalling update-only data. (R414) -/
  | l1Eviction (cache line : Nat)
  /-- A page-table walk completes and fills the TLBs or reports a fault. (R316) -/
  | translationWalkComplete (walk : Nat)
  /-- A special-function result is written and its slot becomes full. (R134) -/
  | specialFunctionResult (op : Nat)
  /-- A ticketed fetch reads a 128-byte line at its home slice. (R170) -/
  | ldtLineRead (slice idx line : Nat)
  /-- A ticket-table entry is allocated and the ticket is written to the issuing wave. (R171) -/
  | ldtTicketWritten (op idx : Nat)
  /-- A ticketed fetch completes into the table as ready or faulted. (R168) -/
  | ticketFetchComplete (slice idx : Nat)
  /-- The slice returns a ticket's state word to TKQ. (R177) -/
  | ticketStateReturn (op : Nat)
  /-- A ticket's lease ends and its entry moves on as expired. (R178) -/
  | ticketLeaseEnd (slice idx : Nat)
  /-- The matrix engine grants a ready reservation entry. (R198) -/
  | matrixGrant (op : Nat)
  /-- A class-4 word's last pass or transfer completes and its quads fill. (R196) -/
  | matrixWordComplete (op : Nat)
  /-- An MTILE pitch is written to OBUF and the word competes again. (R194) -/
  | mtilePitchComplete (op : Nat)
  /-- A latch entry breaks after 1,048,576 rns. (R202) -/
  | gangLatchTimeout (rope entry : Nat)
  /-- Microcode saves the owner's quad, restores the toucher's and moves ownership. (R199) -/
  | accFirstUseTrap (op quad : Nat)
  /-- A copy starts when every wave has issued it and a range-lock entry is free. (R207) -/
  | copyStart (blk k entry : Nat)
  /-- The payload is performed and the status then stamp are written. (R208) -/
  | copyComplete (blk k : Nat)
  /-- An action enters the queue once an entry frees. (R215) -/
  | mbsendEnqueue (op : Nat)
  /-- An observation is delivered to the first parked MBRECV. (R216) -/
  | observationDelivery (mbox : Nat)
  /-- A waiting signal is written once the signal queue has room. (R228) -/
  | hostsigEnqueue (op : Nat)
  /-- A wave with no lanes retires once its counters are zero. (R117) -/
  | waveRetire (wid : Nat)
  /-- An MSI-X message is sent after the raising write is performed. (R353) -/
  | interruptSend (irq : Nat)
  /-- The Harness recomputes vector shares on a core and marks blocks to rebind. (R355) -/
  | shareRecompute (core : Nat)
  /-- Once every wave has stopped, live symbols move to the new map and the block resumes. (R251) -/
  | rebindMove (blk : Nat)
  /-- A waiting block is saved to its spill area and its allotments freed. (R255) -/
  | blockSwapOut (blk : Nat)
  /-- A wake event returns a swapped block to a core. (R256) -/
  | blockSwapIn (blk core : Nat)
  /-- A waiting rope group is placed when room frees. (R241) -/
  | ropeGroupPlacement (lid rope : Nat) (cores : List Nat)
  /-- The scheduler swaps a ready pending wave in for a replaceable active wave. (R258) -/
  | activeSetSwap (core out inn : Nat)
  /-- A rope group's time slice ends while another context waits. (R356) -/
  | timeSliceExpiry (grp : Nat)
  /-- A block stopped at seams with its engine work drained is saved without its quads. (R357) -/
  | blockPreempt (blk : Nat)
  /-- The deadlock watchdog fires and every waiting wave traps. (R362) -/
  | deadlockWatchdogFire (ctx : Nat)
  /-- A retry answer reissues every joined wave's word. (R318) -/
  | pageRequestRetry (fn ctx tag : Nat)
  /-- A fail answer makes each joined wave trap with translation. (R318) -/
  | pageRequestFail (fn ctx tag : Nat)
  /-- A page request unanswered past the external-wait timeout traps as on fail. (R319) -/
  | pageRequestTimeout (ctx tag : Nat)
  /-- DCTL.STOP requests a debug stop. (R322) -/
  | stop (fn core : Nat)
  /-- The stop takes effect on cycle N and no wave of the core issues. (R323) -/
  | debugStopEffect (core : Nat)
  /-- The dump is written, DUMPED set and other contexts resume. (R326) -/
  | debugDumpWritten (core : Nat)
  /-- DCTL.RESUME releases every halted wave of the context on the core. (R322) -/
  | resume (fn core : Nat)
  /-- DCTL.STEP releases one wave for one clause. (R327) -/
  | step (fn core : Nat)
  /-- Reads the halted-wave target that DSEL names. (R327) -/
  | ddataRead (fn core : Nat)
  /-- Writes the halted-wave target that DSEL names and sets altered-under-debug. (R327) -/
  | ddataWrite (fn core : Nat) (v : W64)
  /-- Setting DBG grants the debug right to DBGFN. (R321) -/
  | debugGrant (fn ctx : Nat) (v : W64)
  /-- Clearing DBG releases halted waves and clears BKSTOP. (R328) -/
  | debugRevoke (fn ctx : Nat) (v : W64)
  /-- Setting EN enables a free context with reset values. (R350) -/
  | contextEnable (fn ctx : Nat) (v : W64)
  /-- Clearing EN runs the reset sequence and frees the context. (R360) -/
  | contextTeardown (fn ctx : Nat) (v : W64)
  /-- Word 0 FLR resets one context's state. (R360) -/
  | flr (fn ctx : Nat) (v : W64)
  /-- The reset sequence ends and STATE returns to running or free. (R360) -/
  | contextResetComplete (ctx : Nat)
  /-- Word 19 PREEMPT pre-empts every rope group of the context. (R356) -/
  | preempt (fn ctx : Nat)
  /-- Setting QCTL.EN resets indices and starts the queue. (R335) -/
  | queueEnable (fn ctx q : Nat) (v : W64)
  /-- Clearing QCTL.EN disables the queue. (R335) -/
  | queueDisable (fn ctx q : Nat) (v : W64)
  /-- A doorbell write asks the device to read slots up to WIDX. (R336) -/
  | qdoor (fn ctx q : Nat) (v : W64)
  /-- The device reads a slot's word 0 with acquire and accepts, stalls or rejects the packet. (R337) -/
  | packetRead (ctx q : Nat)
  /-- A re-read of word 0 after an interval while SEQ mismatches, stalling after 64. (R337) -/
  | packetReread (ctx q : Nat)
  /-- The invalidation completes once no access can use an older translation. (R344) -/
  | tlbInvalidationComplete (lid : Nat)
  /-- An accepted packet's dependences, ORD and start time are met. (R339) -/
  | launchReady (lid : Nat)
  /-- A change of point finishes settling after 20,000 rns. (R382) -/
  | operatingPointSettled (rope : Nat)
  /-- The junction temperature is sampled and the thermal state may change. (R383) -/
  | thermalSample (rope : Nat) (tj : BitVec 16)
  /-- A slice's estimator interval ends and gates or re-enables ways. (R387) -/
  | wayGatingInterval (slice : Nat) (gate missHigh : Bool)
  /-- The random sample instant of a period arrives and marks the next word. (R392) -/
  | cairnSamplePick (core ctx : Nat)
  /-- A sampled word completes and its record is written or dropped. (R392) -/
  | cairnRecordWrite (pick : Nat) (lat : List (BitVec 16)) (level : BitVec 4)
  /-- The scrubber reads and corrects a line. (R398) -/
  | patrolScrub (pa : Nat) (sev : Nat)
  /-- A conventional link reset resets the whole device. (R405) -/
  | deviceReset
  /-- Device block DRESET resets the device. (R405) -/
  | dreset (fn : Nat)
  /-- A CXL.io function-level reset of the physical or a virtual function. (R405) -/
  | functionLevelReset (fn : Nat)
  /-- A host CXL.mem access to device memory is performed at its home. (R404) -/
  | hostMemoryAccess (write : Bool) (pa size : Nat) (v : Nat)
  /-- A peer's access arrives over the fabric and is performed at its home. (R406) -/
  | peerAccess (kind pa size : Nat) (v : Nat)
  /-- Writing DOMSIZE nonzero joins the domain. (R406) -/
  | domainJoin (fn : Nat) (v : W64)
  /-- Writing DOMSIZE 0 leaves the domain. (R406) -/
  | domainLeave (fn : Nat) (v : W64)
  /-- Loss of a member is detected and its accesses are treated as departed. (R407) -/
  | peerLoss (dev : Nat)
  /-- A 1588 message measures an offset and starts a rate correction. (R408) -/
  | ptpMessage (x : PtpMsg)
  /-- A host correction replaces the remaining rate correction. (R409) -/
  | hostadj (fn : Nat) (v : W64)
  /-- A TSRC write keeps the counter and stops the correction in progress. (R409) -/
  | timeSourceSelect (fn : Nat) (v : W64)
  /-- Checks a staged firmware image. (R410) -/
  | fwgo (fn : Nat) (v : W64)
  /-- Raises the fused minimum SVN to the running SVN. (R410) -/
  | fwcommit (fn : Nat) (v : W64)
  /-- Starts an attestation report over a nonce. (R411) -/
  | ago (fn : Nat) (v : W64)
  /-- Writes the certificate chain at RADDR. (R410) -/
  | cgo (fn : Nat) (v : W64)
  /-- A report or chain is written with release and BUSY clears. (R411) -/
  | attestationComplete
  /-- Loads and checks a roster, replacing it on success. (R412) -/
  | rload (fn : Nat) (v : W64)
  /-- A binding-set announcement is verified against the roster or discarded. (R413) -/
  | announcementReceive (msg bset : List Byte)
  /-- A device builds a binding set and multicasts a signed announcement. (R347) -/
  | bindingSetAnnounce (image : Nat)
  /-- Starts an idle episode's hart at ENTRY. (R365) -/
  | start (fn ep : Nat) (v : W64)
  /-- Episode reset: stop, empty queues, send RESET observation, restart. (R372) -/
  | reset (fn ep : Nat) (v : W64)
  /-- A window write is checked and applied or refused with WERR. (R365) -/
  | windowWrite (fn ep word : Nat) (v : W64)
  /-- A read of APOP pops the head action and starts the step timer. (R368) -/
  | apop (ep : Nat)
  /-- A read of OSEND sends OBSBUF as an observation. (R368) -/
  | osend (ep : Nat)
  /-- A ticket written to TKVAL starts a port redeem. (R374) -/
  | tkval (ep : Nat) (v : W64)
  /-- Port delivery bytes are performed and RESULT and BUSY update. (R374) -/
  | portRedeemComplete (ep : Nat)
  /-- The step timer expires, the hart stops and becomes runaway. (R371) -/
  | episodeWatchdogFire (ep : Nat)
  /-- The TIMEOUT observation enters the queue once an entry frees. (R371) -/
  | timeoutObservationEnqueue (ep : Nat)
  /-- An environment hart executes a RISC-V instruction. (R363) -/
  | hartInstruction (ep : Nat)
  /-- A write to a register without behaviour of its own. (R6) -/
  | registerWrite (fn addr size : Nat) (v : W64)
  /-- Power is applied to the device, and every kept field, TINIT included, starts at 0. (R403) -/
  | powerOn
  /-- After a device reset, boot ROM finishes verifying the firmware, Harness microcode and Base Camp firmware, and the device answers again, fully or with only words 0 and 40 to 43 of the device block. The event has no data of its own. (R410) -/
  | bootRomVerification (op : Unit)
  /-- A fabric port completes training and its bit in LINKS becomes 1. (R406) -/
  | fabricPortTrained (port : Nat)
  /-- A fabric port fails, its LINKS bit clears and traffic is routed around it. (R406) -/
  | fabricPortFails (port : Nat)
  /-- Does nothing. (R115) -/
  | nop (w : CW)
  /-- Scalar add at the default type .i64. (R99) -/
  | sadd (w : CW)
  /-- Scalar add with explicit type and optional saturation. (R99) -/
  | saddLong (w : CW) (m : ModW)
  /-- Scalar add of a sign-extended 11-bit immediate. (R100) -/
  | saddi (w : IW)
  /-- Scalar add of a sign-extended 25-bit immediate. (R100) -/
  | saddiLong (w : CW) (x : XW)
  /-- Scalar subtract. (R99) -/
  | ssub (w : CW)
  /-- Scalar subtract with a modifier word. (R99) -/
  | ssubLong (w : CW) (m : ModW)
  /-- Scalar multiply. (R99) -/
  | smul (w : CW)
  /-- Scalar multiply with a modifier word. (R99) -/
  | smulLong (w : CW) (m : ModW)
  /-- Upper half of the scalar product. (R99) -/
  | smulhi (w : CW)
  /-- Upper half of the scalar product with a modifier word. (R99) -/
  | smulhiLong (w : CW) (m : ModW)
  /-- Scalar divide truncated toward zero. (R99) -/
  | sdiv (w : CW)
  /-- Scalar divide with a modifier word. (R99) -/
  | sdivLong (w : CW) (m : ModW)
  /-- Scalar remainder. (R99) -/
  | srem (w : CW)
  /-- Scalar remainder with a modifier word. (R99) -/
  | sremLong (w : CW) (m : ModW)
  /-- Scalar bitwise and. (R99) -/
  | sand (w : CW)
  /-- Scalar bitwise and with a modifier word. (R99) -/
  | sandLong (w : CW) (m : ModW)
  /-- Scalar and with an 11-bit immediate. (R100) -/
  | sandi (w : IW)
  /-- Scalar and with a 25-bit immediate. (R100) -/
  | sandiLong (w : CW) (x : XW)
  /-- Scalar bitwise or. (R99) -/
  | sor (w : CW)
  /-- Scalar bitwise or with a modifier word. (R99) -/
  | sorLong (w : CW) (m : ModW)
  /-- Scalar or with an 11-bit immediate. (R100) -/
  | sori (w : IW)
  /-- Scalar or with a 25-bit immediate. (R100) -/
  | soriLong (w : CW) (x : XW)
  /-- Scalar exclusive or. (R99) -/
  | sxor (w : CW)
  /-- Scalar exclusive or with a modifier word. (R99) -/
  | sxorLong (w : CW) (m : ModW)
  /-- Scalar exclusive or with an 11-bit immediate. (R100) -/
  | sxori (w : IW)
  /-- Scalar exclusive or with a 25-bit immediate. (R100) -/
  | sxoriLong (w : CW) (x : XW)
  /-- Scalar shift left. (R99) -/
  | sshl (w : CW)
  /-- Scalar shift left with a modifier word. (R99) -/
  | sshlLong (w : CW) (m : ModW)
  /-- Scalar shift left by an immediate. (R100) -/
  | sshli (w : IW)
  /-- Scalar shift left by an immediate, two-word form. (R100) -/
  | sshliLong (w : CW) (x : XW)
  /-- Scalar logical shift right. (R99) -/
  | sshr (w : CW)
  /-- Scalar logical shift right with a modifier word. (R99) -/
  | sshrLong (w : CW) (m : ModW)
  /-- Scalar logical shift right by an immediate. (R100) -/
  | sshri (w : IW)
  /-- Scalar logical shift right by an immediate, two-word form. (R100) -/
  | sshriLong (w : CW) (x : XW)
  /-- Scalar arithmetic shift right. (R99) -/
  | ssra (w : CW)
  /-- Scalar arithmetic shift right with a modifier word. (R99) -/
  | ssraLong (w : CW) (m : ModW)
  /-- Scalar arithmetic shift right by an immediate. (R100) -/
  | ssrai (w : IW)
  /-- Scalar arithmetic shift right by an immediate, two-word form. (R100) -/
  | ssraiLong (w : CW) (x : XW)
  /-- Scalar minimum. (R99) -/
  | smin (w : CW)
  /-- Scalar minimum with a modifier word. (R99) -/
  | sminLong (w : CW) (m : ModW)
  /-- Scalar maximum. (R99) -/
  | smax (w : CW)
  /-- Scalar maximum with a modifier word. (R99) -/
  | smaxLong (w : CW) (m : ModW)
  /-- Scalar compare at .i64 that sets the condition codes. (R101) -/
  | scmp (w : CW)
  /-- Scalar compare at a chosen width that sets the condition codes. (R101) -/
  | scmpLong (w : CW) (m : ModW)
  /-- Scalar compare with an 11-bit immediate. (R101) -/
  | scmpi (w : IW)
  /-- Scalar compare with a 25-bit immediate. (R101) -/
  | scmpiLong (w : CW) (x : XW)
  /-- Selects a scalar on condition .eq. (R101) -/
  | ssel (w : CW)
  /-- Selects a scalar on a condition held in card bits. (R101) -/
  | sselLong (w : CW) (m : ModW)
  /-- Copies a scalar. (R101) -/
  | smov (w : CW)
  /-- Loads a sign-extended 11-bit immediate into a scalar. (R101) -/
  | smovi (w : IW)
  /-- Loads a sign-extended 25-bit immediate into a scalar. (R101) -/
  | smoviLong (w : CW) (x : XW)
  /-- Shifts a scalar left by 11 and inserts an 11-bit immediate. (R101) -/
  | sluiShort (w : IW)
  /-- Shifts a scalar left by 25 and inserts a 25-bit immediate. (R101) -/
  | slui (w : CW) (x : XW)
  /-- Counts leading zeros of a scalar. (R99) -/
  | sclz (w : CW)
  /-- Counts leading zeros of a scalar at a chosen width. (R99) -/
  | sclzLong (w : CW) (m : ModW)
  /-- Counts the one bits of a scalar. (R99) -/
  | spopc (w : CW)
  /-- Counts the one bits of a scalar at a chosen width. (R99) -/
  | spopcLong (w : CW) (m : ModW)
  /-- Extracts a scalar bit field. (R101) -/
  | sbfe (w : CW)
  /-- Extracts a scalar bit field with sign choice. (R101) -/
  | sbfeLong (w : CW) (m : ModW)
  /-- Inserts a scalar bit field. (R101) -/
  | sbfi (w : CW)
  /-- Inserts a scalar bit field with a modifier word. (R101) -/
  | sbfiLong (w : CW) (m : ModW)
  /-- Reads argument bytes zero-extended into a scalar. (R101) -/
  | sarg (w : IW)
  /-- Reads argument bytes sign-extended into a scalar. (R101) -/
  | sargSx (w : CW) (x : XW)
  /-- Conditional branch with an 11-bit word offset. (R103) -/
  | br (w : IW)
  /-- Guarded conditional branch with a 25-bit word offset. (R103) -/
  | brLong (w : CW) (x : XW)
  /-- Jump with an 11-bit word offset. (R103) -/
  | jmp (w : IW)
  /-- Guarded jump with a 25-bit word offset. (R103) -/
  | jmpLong (w : CW) (x : XW)
  /-- Call with a link scalar and an 11-bit word offset. (R103) -/
  | call (w : IW)
  /-- Guarded call with a 25-bit word offset. (R103) -/
  | callLong (w : CW) (x : XW)
  /-- Indirect transfer to the address in a scalar. (R103) -/
  | ret (w : CW)
  /-- Opens an IF frame, splitting or spilling the wave if needed. (R108) -/
  | ifW (w : CW)
  /-- Switches an IF frame to its else arm. (R108) -/
  | elseW (w : CW)
  /-- Closes an IF frame and reconverges the wave. (R108) -/
  | endif (w : CW)
  /-- Opens a LOOP frame, unbounded or counted by a scalar. (R109) -/
  | loopW (w : CW)
  /-- Opens a LOOP frame counted by a 25-bit immediate. (R109) -/
  | loopImm (w : CW) (x : XW)
  /-- Removes selected lanes from the innermost loop. (R109) -/
  | breakW (w : CW)
  /-- Sends selected lanes to the next loop iteration. (R109) -/
  | contW (w : CW)
  /-- Ends a loop iteration and loops or exits. (R109) -/
  | endloop (w : CW)
  /-- Ends the clause and yields the issue slot. (R115) -/
  | yield (w : CW)
  /-- Waits until the selected wait counters fall to a limit. (R115) -/
  | waitcnt (w : IW)
  /-- Removes the lanes of MASK from the wave. (R117) -/
  | endW (w : CW)
  /-- Sets the window of one symbol class from the next word. (R115) -/
  | win (w : IW)
  /-- Writes MODE from a scalar. (R115) -/
  | modeW (w : CW)
  /-- Writes selected MODE fields from an immediate. (R116) -/
  | modeFields (w : CW) (x : XW)
  /-- Arrives at a barrier. (R119) -/
  | barArr (w : CW)
  /-- Waits for the completion of the arrived phase. (R119) -/
  | barWait (w : CW)
  /-- Arrives at a barrier and waits in one word. (R119) -/
  | barSync (w : CW)
  /-- Leaves a barrier. (R121) -/
  | barDrop (w : CW)
  /-- Ands two predicates in the lanes of MASK. (R128) -/
  | pand (w : CW)
  /-- Ors two predicates in the lanes of MASK. (R128) -/
  | por (w : CW)
  /-- Exclusive-ors two predicates in the lanes of MASK. (R128) -/
  | pxor (w : CW)
  /-- Inverts a predicate in the lanes of MASK. (R128) -/
  | pnot (w : CW)
  /-- Copies a predicate in the lanes of MASK. (R128) -/
  | pmov (w : CW)
  /-- Copies every bit of a predicate to a scalar. (R128) -/
  | ptos (w : CW)
  /-- Sets predicate bits of MASK lanes from a scalar. (R128) -/
  | pfroms (w : CW)
  /-- Vector integer add. (R124) -/
  | vadd (w : CW)
  /-- Vector integer add with type and saturation. (R124) -/
  | vaddLong (w : CW) (m : ModW)
  /-- Vector add of an 11-bit immediate. (R125) -/
  | vaddi (w : IW)
  /-- Guarded vector add of a 25-bit immediate. (R125) -/
  | vaddiLong (w : CW) (x : XW)
  /-- Vector integer subtract. (R124) -/
  | vsub (w : CW)
  /-- Vector integer subtract with a modifier word. (R124) -/
  | vsubLong (w : CW) (m : ModW)
  /-- Vector integer multiply. (R124) -/
  | vmul (w : CW)
  /-- Vector integer multiply with a modifier word. (R124) -/
  | vmulLong (w : CW) (m : ModW)
  /-- Upper half of the vector product. (R124) -/
  | vmulhi (w : CW)
  /-- Upper half of the vector product with a modifier word. (R124) -/
  | vmulhiLong (w : CW) (m : ModW)
  /-- Vector integer multiply-add. (R126) -/
  | vmad (w : CW) (m : ModW)
  /-- Vector bitwise and. (R124) -/
  | vand (w : CW)
  /-- Vector bitwise and with a modifier word. (R124) -/
  | vandLong (w : CW) (m : ModW)
  /-- Vector bitwise or. (R124) -/
  | vor (w : CW)
  /-- Vector bitwise or with a modifier word. (R124) -/
  | vorLong (w : CW) (m : ModW)
  /-- Vector exclusive or. (R124) -/
  | vxor (w : CW)
  /-- Vector exclusive or with a modifier word. (R124) -/
  | vxorLong (w : CW) (m : ModW)
  /-- Vector bitwise not. (R124) -/
  | vnot (w : CW)
  /-- Vector bitwise not with a modifier word. (R124) -/
  | vnotLong (w : CW) (m : ModW)
  /-- Vector shift left. (R124) -/
  | vshl (w : CW)
  /-- Vector shift left with a modifier word. (R124) -/
  | vshlLong (w : CW) (m : ModW)
  /-- Vector logical shift right. (R124) -/
  | vshr (w : CW)
  /-- Vector logical shift right with a modifier word. (R124) -/
  | vshrLong (w : CW) (m : ModW)
  /-- Vector arithmetic shift right. (R124) -/
  | vsra (w : CW)
  /-- Vector arithmetic shift right with a modifier word. (R124) -/
  | vsraLong (w : CW) (m : ModW)
  /-- Vector integer minimum. (R124) -/
  | vmin (w : CW)
  /-- Vector integer minimum with a modifier word. (R124) -/
  | vminLong (w : CW) (m : ModW)
  /-- Vector integer maximum. (R124) -/
  | vmax (w : CW)
  /-- Vector integer maximum with a modifier word. (R124) -/
  | vmaxLong (w : CW) (m : ModW)
  /-- Vector integer absolute value. (R124) -/
  | vabs (w : CW)
  /-- Vector integer absolute value with a modifier word. (R124) -/
  | vabsLong (w : CW) (m : ModW)
  /-- Vector integer negate. (R124) -/
  | vneg (w : CW)
  /-- Vector integer negate with a modifier word. (R124) -/
  | vnegLong (w : CW) (m : ModW)
  /-- Vector count of leading zeros. (R124) -/
  | vclz (w : CW)
  /-- Vector count of leading zeros with a modifier word. (R124) -/
  | vclzLong (w : CW) (m : ModW)
  /-- Vector count of one bits. (R124) -/
  | vpopc (w : CW)
  /-- Vector count of one bits with a modifier word. (R124) -/
  | vpopcLong (w : CW) (m : ModW)
  /-- Extracts a vector bit field. (R126) -/
  | vbfe (w : CW)
  /-- Extracts a vector bit field with sign choice. (R126) -/
  | vbfeLong (w : CW) (m : ModW)
  /-- Inserts a vector bit field. (R126) -/
  | vbfi (w : CW)
  /-- Inserts a vector bit field with a modifier word. (R126) -/
  | vbfiLong (w : CW) (m : ModW)
  /-- Selects per lane by p0. (R126) -/
  | vsel (w : CW)
  /-- Selects per lane by a named predicate. (R126) -/
  | vselLong (w : CW) (m : ModW)
  /-- Copies a vector bit for bit. (R126) -/
  | vmov (w : CW)
  /-- Copies a vector or pair with a modifier word. (R126) -/
  | vmovLong (w : CW) (m : ModW)
  /-- Writes an 11-bit immediate to every live lane. (R125) -/
  | vmovi (w : IW)
  /-- Writes a 25-bit immediate to every live lane. (R125) -/
  | vmoviLong (w : CW) (x : XW)
  /-- Broadcasts a scalar to every live lane. (R126) -/
  | vbcast (w : CW)
  /-- Broadcasts a scalar with a modifier word. (R126) -/
  | vbcastLong (w : CW) (m : ModW)
  /-- Reads one lane of a vector into a scalar. (R126) -/
  | vlane (w : CW)
  /-- Reads one lane or pair into a scalar with a modifier word. (R126) -/
  | vlaneLong (w : CW) (m : ModW)
  /-- Four-way byte dot product with accumulate. (R126) -/
  | vdot4 (w : CW) (m : ModW)
  /-- Integer compare into a predicate, .eq. (R127) -/
  | vcmp (w : CW)
  /-- Integer compare into a predicate with condition and type. (R127) -/
  | vcmpLong (w : CW) (m : ModW)
  /-- Floating-point add. (R129) -/
  | vfadd (w : CW)
  /-- Floating-point add with type and rounding. (R129) -/
  | vfaddLong (w : CW) (m : ModW)
  /-- Floating-point subtract. (R129) -/
  | vfsub (w : CW)
  /-- Floating-point subtract with type and rounding. (R129) -/
  | vfsubLong (w : CW) (m : ModW)
  /-- Floating-point multiply. (R129) -/
  | vfmul (w : CW)
  /-- Floating-point multiply with type and rounding. (R129) -/
  | vfmulLong (w : CW) (m : ModW)
  /-- Fused multiply-add with one rounding. (R129) -/
  | vfma (w : CW) (m : ModW)
  /-- Floating-point minimum under R86. (R129) -/
  | vfmin (w : CW)
  /-- Floating-point minimum with a modifier word. (R129) -/
  | vfminLong (w : CW) (m : ModW)
  /-- Floating-point maximum under R86. (R129) -/
  | vfmax (w : CW)
  /-- Floating-point maximum with a modifier word. (R129) -/
  | vfmaxLong (w : CW) (m : ModW)
  /-- Clears the sign bit. (R129) -/
  | vfabs (w : CW)
  /-- Clears the sign bit with a modifier word. (R129) -/
  | vfabsLong (w : CW) (m : ModW)
  /-- Inverts the sign bit. (R129) -/
  | vfneg (w : CW)
  /-- Inverts the sign bit with a modifier word. (R129) -/
  | vfnegLong (w : CW) (m : ModW)
  /-- Floating-point compare into a predicate, .eq. (R131) -/
  | vfcmp (w : CW)
  /-- Floating-point compare into a predicate with condition and type. (R131) -/
  | vfcmpLong (w : CW) (m : ModW)
  /-- Writes a one-hot class mask per lane. (R132) -/
  | vfclass (w : CW)
  /-- Writes a class mask with a chosen type. (R132) -/
  | vfclassLong (w : CW) (m : ModW)
  /-- Converts one element per lane between types. (R133) -/
  | vcvt (w : CW) (m : ModW)
  /-- Rounds to an integral value in the same format. (R129) -/
  | vfrnd (w : CW)
  /-- Rounds to an integral value with rounding and .x. (R129) -/
  | vfrndLong (w : CW) (m : ModW)
  /-- Two-way half-precision dot product into FP32. (R130) -/
  | vfdot2 (w : CW) (m : ModW)
  /-- Shuffle by a per-lane source index. (R138) -/
  | vshfl (w : CW)
  /-- Shuffle by index with a modifier word. (R138) -/
  | vshflLong (w : CW) (m : ModW)
  /-- Butterfly shuffle by a scalar mask. (R138) -/
  | vshflx (w : CW)
  /-- Butterfly shuffle with a modifier word. (R138) -/
  | vshflxLong (w : CW) (m : ModW)
  /-- Shuffle up by a scalar distance. (R138) -/
  | vshflup (w : CW)
  /-- Shuffle up with a modifier word. (R138) -/
  | vshflupLong (w : CW) (m : ModW)
  /-- Shuffle down by a scalar distance. (R138) -/
  | vshfldn (w : CW)
  /-- Shuffle down with a modifier word. (R138) -/
  | vshfldnLong (w : CW) (m : ModW)
  /-- Ballot of a predicate over the live lanes. (R139) -/
  | vvote (w : CW)
  /-- Ballot, any, all or uniform vote. (R139) -/
  | vvoteLong (w : CW) (m : ModW)
  /-- Tree sum of live lanes into a scalar. (R140) -/
  | vredadd (w : CW)
  /-- Tree sum with type, rounding and saturation. (R140) -/
  | vredaddLong (w : CW) (m : ModW)
  /-- Tree minimum of live lanes into a scalar. (R140) -/
  | vredmin (w : CW)
  /-- Tree minimum with a modifier word. (R140) -/
  | vredminLong (w : CW) (m : ModW)
  /-- Tree maximum of live lanes into a scalar. (R140) -/
  | vredmax (w : CW)
  /-- Tree maximum with a modifier word. (R140) -/
  | vredmaxLong (w : CW) (m : ModW)
  /-- Inclusive prefix add over live lanes. (R141) -/
  | vscan (w : CW)
  /-- Prefix add, min or max, inclusive or exclusive. (R141) -/
  | vscanLong (w : CW) (m : ModW)
  /-- Writes the set of live lanes with an equal value. (R142) -/
  | vmatch (w : CW)
  /-- Match with a chosen width. (R142) -/
  | vmatchLong (w : CW) (m : ModW)
  /-- Ranks the k greatest or least live values. (R144) -/
  | vtopk (w : CW) (m : ModW)
  /-- Base-2 exponential, a producer. (R135) -/
  | vex2 (w : CW)
  /-- Base-2 exponential with a modifier word. (R135) -/
  | vex2Long (w : CW) (m : ModW)
  /-- Base-2 logarithm, a producer. (R135) -/
  | vlg2 (w : CW)
  /-- Base-2 logarithm with a modifier word. (R135) -/
  | vlg2Long (w : CW) (m : ModW)
  /-- Correctly rounded reciprocal. (R135) -/
  | vrcp (w : CW)
  /-- Reciprocal with a rounding field. (R135) -/
  | vrcpLong (w : CW) (m : ModW)
  /-- Correctly rounded reciprocal square root. (R135) -/
  | vrsq (w : CW)
  /-- Reciprocal square root with a rounding field. (R135) -/
  | vrsqLong (w : CW) (m : ModW)
  /-- Correctly rounded square root. (R135) -/
  | vsqrt (w : CW)
  /-- Square root with a rounding field. (R135) -/
  | vsqrtLong (w : CW) (m : ModW)
  /-- Sine in radians. (R135) -/
  | vsin (w : CW)
  /-- Sine with a modifier word. (R135) -/
  | vsinLong (w : CW) (m : ModW)
  /-- Cosine in radians. (R135) -/
  | vcos (w : CW)
  /-- Cosine with a modifier word. (R135) -/
  | vcosLong (w : CW) (m : ModW)
  /-- Hyperbolic tangent. (R135) -/
  | vtanh (w : CW)
  /-- Hyperbolic tangent with a modifier word. (R135) -/
  | vtanhLong (w : CW) (m : ModW)
  /-- Per-lane load of a 32-bit word with index. (R157) -/
  | ld (w : CW)
  /-- Per-lane load with size, scope, order and displacement. (R157) -/
  | ldLong (w : CW) (m : MemW)
  /-- Per-lane store of a 32-bit word with index. (R158) -/
  | st (w : CW)
  /-- Per-lane store with size, scope, order and displacement. (R158) -/
  | stLong (w : CW) (m : MemW)
  /-- Load from a scratchpad buffer. (R161) -/
  | lds (w : CW)
  /-- Scratchpad load with size and displacement. (R161) -/
  | ldsLong (w : CW) (m : MemW)
  /-- Store to a scratchpad buffer. (R161) -/
  | sts (w : CW)
  /-- Scratchpad store with size and displacement. (R161) -/
  | stsLong (w : CW) (m : MemW)
  /-- Issues a ticketed fetch of 128 bytes. (R169) -/
  | ldt (w : CW)
  /-- Issues a ticketed fetch of a chosen size and displacement. (R169) -/
  | ldtLong (w : CW) (m : MemW)
  /-- Redeems a .t128 ticket into vector symbols. (R172) -/
  | rdmV (w : CW)
  /-- Redeems a ticket of a named size into vector symbols. (R172) -/
  | rdmVLong (w : CW) (m : MemW)
  /-- Redeems a .t128 ticket into a buffer. (R173) -/
  | rdmS (w : CW)
  /-- Redeems a ticket of a named size into a buffer. (R173) -/
  | rdmSLong (w : CW) (m : MemW)
  /-- Gives up a ticket without delivery. (R176) -/
  | tkrel (w : CW)
  /-- Queries the state of a ticket. (R177) -/
  | tkq (w : CW)
  /-- Atomic read-modify-write at the home returning the old value. (R180) -/
  | atom (w : CW) (m : MemW)
  /-- Reduction update with no return. (R181) -/
  | red (w : CW) (m : MemW)
  /-- Waits on a memory word meeting a condition. (R184) -/
  | waitc (w : CW) (m : MemW)
  /-- Full fence at device scope. (R162) -/
  | fence (w : CW)
  /-- Fence at a chosen scope, acquire or release side. (R162) -/
  | fenceLong (w : CW) (m : MemW)
  /-- Discards the core's fetched instruction words. (R164) -/
  | fenceI (w : CW)
  /-- Prefetches each live lane's line. (R165) -/
  | pref (w : CW)
  /-- Prefetch with modifiers. (R165) -/
  | prefLong (w : CW) (m : MemW)
  /-- Writes back each live lane's L1 line. (R166) -/
  | cwb (w : CW)
  /-- Write-back with scope and .inv. (R166) -/
  | cwbLong (w : CW) (m : MemW)
  /-- Checks and copies a tensor iterator record. (R146) -/
  | tidef (w : CW) (m : MemW)
  /-- Applies an element-wise operation over an iterator record. (R147) -/
  | tsweep (w : CW) (m : MemW)
  /-- Folds the elements of a tensor into a scalar. (R149) -/
  | twalk (w : CW) (m : MemW)
  /-- Loads the wave's gang register. (R200) -/
  | gang (w : CW)
  /-- Loads the gang register, bare two-word cell. (R200) -/
  | gangLong (w : CW) (m : ModW)
  /-- E4M3 matrix multiply-accumulate of one K-chunk into quads. (R191) -/
  | mm (w : CW)
  /-- Matrix multiply-accumulate with types, shape, scaling and offsets. (R191) -/
  | mmLong (w : CW) (m : ModW)
  /-- Matrix multiply with identity row gather. (R192) -/
  | mmg (w : CW)
  /-- Matrix multiply with rows of A gathered by an index vector. (R192) -/
  | mmgLong (w : CW) (m : ModW)
  /-- Sixteen batched 16x16 products over K 32. (R193) -/
  | mmb (w : CW)
  /-- Batched products with types and offsets. (R193) -/
  | mmbLong (w : CW) (m : ModW)
  /-- Computes a tile of up to 256x256 into a buffer. (R194) -/
  | mtile (w : CW)
  /-- Tile computation with types and .obf16. (R194) -/
  | mtileLong (w : CW) (m : ModW)
  /-- Loads the wave's scale set from a buffer. (R190) -/
  | mscl (w : CW)
  /-- Loads the scale set from a buffer offset. (R190) -/
  | msclLong (w : CW) (m : ModW)
  /-- Clears quads to zero. (R195) -/
  | aclr (w : CW)
  /-- Clears quads with a chosen shape. (R195) -/
  | aclrLong (w : CW) (m : ModW)
  /-- Copies a quad to a quad. (R195) -/
  | amov (w : CW)
  /-- Moves quad contents to or from vectors. (R195) -/
  | amovLong (w : CW) (m : ModW)
  /-- Fills quads with a scalar value. (R195) -/
  | afill (w : CW)
  /-- Fills quads with a chosen shape. (R195) -/
  | afillLong (w : CW) (m : ModW)
  /-- Loads quads from a buffer. (R195) -/
  | ald (w : CW)
  /-- Loads quads with type, shape and offset. (R195) -/
  | aldLong (w : CW) (m : ModW)
  /-- Stores quads into a buffer. (R195) -/
  | ast (w : CW)
  /-- Stores quads with type, rounding, shape and offset. (R195) -/
  | astLong (w : CW) (m : ModW)
  /-- Block-collective copy memory to buffer at device scope. (R204) -/
  | cpy (w : CW)
  /-- Collective copy with direction and scope. (R204) -/
  | cpyLong (w : CW) (m : ModW)
  /-- Multicast copy to receiver blocks. (R211) -/
  | cpym (w : CW)
  /-- Multicast copy with source kind and scope. (R211) -/
  | cpymLong (w : CW) (m : ModW)
  /-- Collective copy that parks the wave until its record. (R212) -/
  | cpyw (w : CW)
  /-- Parking copy with direction and scope. (R212) -/
  | cpywLong (w : CW) (m : ModW)
  /-- Sends an action to a step mailbox. (R215) -/
  | mbsend (w : CW)
  /-- Sends an action with an offset or .nb. (R215) -/
  | mbsendLong (w : CW) (m : ModW)
  /-- Receives an observation, parking on an empty queue. (R216) -/
  | mbrecv (w : CW)
  /-- Receives an observation with an offset or .nb. (R216) -/
  | mbrecvLong (w : CW) (m : ModW)
  /-- Reads the state word of a mailbox. (R217) -/
  | mbpoll (w : CW)
  /-- Reads the mailbox state word, bare two-word cell. (R217) -/
  | mbpollLong (w : CW) (m : ModW)
  /-- Advances the context's policy version by one. (R218) -/
  | mbver (w : CW)
  /-- Sets the policy version to a value ahead of it. (R218) -/
  | mbverSet (w : CW) (m : ModW)
  /-- Traps with cause TRAP and an immediate subcode. (R220) -/
  | trap (w : IW)
  /-- Breakpoint trap or debug stop. (R220) -/
  | bkpt (w : IW)
  /-- Reads a word of the parked wave's trap record. (R222) -/
  | trec (w : CW)
  /-- Reads a trap record word, bare two-word cell. (R222) -/
  | trecLong (w : CW) (m : ModW)
  /-- Reads a symbol of the parked wave. (R223) -/
  | xget (w : CW)
  /-- Reads a parked symbol, bare two-word cell. (R223) -/
  | xgetLong (w : CW) (m : ModW)
  /-- Writes a symbol of the parked wave. (R223) -/
  | xset (w : CW)
  /-- Writes a parked symbol, bare two-word cell. (R223) -/
  | xsetLong (w : CW) (m : ModW)
  /-- Resumes the parked wave at the trapping word. (R224) -/
  | eresumeRetry (w : CW)
  /-- Resumes the parked wave after the trapping word. (R224) -/
  | eresumeSkip (w : CW)
  /-- Resumes the parked wave at an address in a scalar. (R224) -/
  | eresumeJmp (w : CW)
  /-- Resumes the parked wave at a word offset from the trapping word. (R224) -/
  | eresumeRel (w : CW) (x : XW)
  /-- Reads a system register. (R225) -/
  | getsr (w : CW)
  /-- Writes a system register. (R225) -/
  | setsr (w : CW)
  /-- Reads the reference counter after earlier accesses are performed. (R226) -/
  | time (w : CW)
  /-- Marks the next word as a tagged cairn sample. (R227) -/
  | sample (w : CW)
  /-- Writes a marker record into the sample stream. (R227) -/
  | sampleMark (w : CW) (m : ModW)
  /-- Posts a signal with a payload to the context's signal queue. (R228) -/
  | hostsig (w : IW)
  /-- Guarded signal post with a 25-bit signal number. (R228) -/
  | hostsigLong (w : CW) (x : XW)
deriving DecidableEq, Repr

end Sys2Proof
end

