-- ==== Sys2Proof/Machine/Fields.lean ====
section
/-! DEFINITION. The fields of an instruction's words as numbers, one record for every word format (R62, R63), and the
reserved-field checks of R69 step 3: a nonzero reserved field, guard 8, or a code that R64 or the card rejects. -/

namespace Sys2Proof.Machine

/-- Every field of an instruction; a field its format lacks is 0 (R62, R63). -/
structure UW where
  two : Bool
  d : Nat
  a : Nat
  b : Nat
  g : Nat
  imm : Nat
  c : Nat
  ty : Nat
  scope : Nat
  order : Nat
  rnd : Nat
  ty2 : Nat
  card : Nat
  size : Nat
  nx : Nat
  disp : Nat
deriving DecidableEq, Repr

/-- The fields of a one-word common-format instruction. -/
def ucw (w : CW) : UW :=
  ⟨false, w.d.toNat, w.a.toNat, w.b.toNat, w.g.toNat, 0, 0, 0, 0, 0, 0, 0, 0, 0, 0, 0⟩

/-- The fields of an immediate-format instruction; its guard is 0 (R62). -/
def uiw (w : IW) : UW := ⟨false, w.d.toNat, w.a.toNat, 0, 0, w.imm.toNat, 0, 0, 0, 0, 0, 0, 0, 0, 0, 0⟩

/-- The fields of a common word with a modifier word. -/
def umw (w : CW) (m : ModW) : UW :=
  ⟨true, w.d.toNat, w.a.toNat, w.b.toNat, w.g.toNat, 0, m.c.toNat, m.ty.toNat, m.scope.toNat, m.order.toNat,
    m.rnd.toNat, m.ty2.toNat, m.card.toNat, 0, 0, 0⟩

/-- The fields of a common word with a memory word; card bits [15:12] are numbered from 0. -/
def uxw (w : CW) (m : MemW) : UW :=
  ⟨true, w.d.toNat, w.a.toNat, w.b.toNat, w.g.toNat, 0, m.c.toNat, 0, m.scope.toNat, m.order.toNat, 0, 0,
    m.card.toNat, m.size.toNat, m.nx.toNat, m.disp.toNat⟩

/-- The fields of a common word with an immediate word. -/
def uiw2 (w : CW) (x : XW) : UW :=
  ⟨true, w.d.toNat, w.a.toNat, w.b.toNat, w.g.toNat, x.imm.toNat, x.c.toNat, 0, 0, 0, 0, 0, 0, 0, 0, 0⟩

/-- Guard 8 is reserved (R65). -/
def gOk (u : UW) : Bool := u.g != 8

/-- A modifier word that accepts the types listed, a third source, a round field, a second type and the card bits of a
mask; every other field is 0 (R97, R123, R186). -/
def modOk (u : UW) (types : List Nat) (c rnd ty2 : Bool) (mask : Nat) : Bool :=
  types.contains u.ty && (c || u.c == 0) && u.scope == 0 && u.order == 0 && (if rnd then u.rnd ≤ 5 else u.rnd == 0)
    && (ty2 || u.ty2 == 0) && (u.card ||| mask) == mask

/-- A one-word form, or a two-word form whose modifier word passes. -/
def longOk (u : UW) (types : List Nat) (c rnd ty2 : Bool) (mask : Nat) : Bool :=
  gOk u && (!u.two || modOk u types c rnd ty2 mask)

/-- The integer types .i8 to .n64 and the default (R64, R98, R124). -/
def intTys : List Nat := [0, 1, 2, 3, 4, 5, 6, 7, 8]
/-- The floating types .f64, .f32, .f16, .bf16 and the default (R129). -/
def fltTys : List Nat := [0, 9, 10, 11, 12]

/-- Elements in a lane of a type (R122). -/
def elemsOf (t : Nat) : Nat :=
  if t == 1 || t == 2 || t == 13 || t == 14 then 4
  else if t == 3 || t == 4 || t == 11 || t == 12 then 2
  else if t == 15 then 8 else 1

/-- The width in bits of an element of a type (R122). -/
def tyWidth (t : Nat) : Nat :=
  if t == 1 || t == 2 || t == 13 || t == 14 then 8
  else if t == 3 || t == 4 || t == 11 || t == 12 then 16
  else if t == 15 then 4
  else if t == 7 || t == 8 || t == 9 then 64 else 32

/-- A type code that names an integer type (R64). -/
def isIntTy (t : Nat) : Bool := 1 ≤ t && t ≤ 8
/-- A signed integer type (R76). -/
def isSigned (t : Nat) : Bool := t == 1 || t == 3 || t == 5 || t == 7
/-- A type code that names a floating type (R64). -/
def isFltTy (t : Nat) : Bool := 9 ≤ t && t ≤ 15

/-- A condition of R96 by code; 16 to 19 only for BR. -/
def condOk (br : Bool) (x : Nat) : Bool := x ≤ 9 || (br && 16 ≤ x && x ≤ 19)

/-- A memory word: sizes, orders, card mask, whether a c operand, an index and a displacement are named (R151). -/
def memOk (u : UW) (sizes orders : List Nat) (mask : Nat) (c : Bool) : Bool :=
  gOk u && (!u.two || (sizes.contains u.size && orders.contains u.order && (u.card ||| mask) == mask
    && (c || u.c == 0) && (u.nx == 0 || u.b == 0)))

/-- A memory word that names no index: nx = 1, b = 0 (R63, R151). -/
def memNx (u : UW) (sizes orders : List Nat) (mask : Nat) (c : Bool) : Bool :=
  memOk u sizes orders mask c && u.b == 0 && (!u.two || u.nx == 1)

/-- An immediate word after a common word with b = 0 (R100, R103). -/
def immOk (u : UW) : Bool := gOk u && (!u.two || (u.b == 0 && u.c == 0))

/-- The system register numbers that R49 assigns. -/
def sysRegs : List Nat := [0, 1, 2, 3, 4, 5, 6, 8, 9, 10, 11, 12, 16, 17, 24, 25, 26]

/-- The type pairs of MM and MMG (R188); the shape and .ns bits of a mask. -/
def mmTys (ty ty2 : Nat) (e2m1 : Bool) : Bool :=
  let t2 := if ty2 == 0 then ty else ty2
  ((ty == 13 || ty == 14) && (t2 == 13 || t2 == 14)) || (e2m1 && ty == 15 && t2 == 15) || (ty == 12 && t2 == 12)
    || (ty == 11 && t2 == 11) || ((ty == 1 || ty == 2) && (t2 == 1 || t2 == 2))

/-- A class-4 modifier word: scope and order 0; the rest as given (R186). -/
def matOk (u : UW) (mask : Nat) (c rnd ty2 : Bool) : Bool :=
  gOk u && (!u.two || (u.scope == 0 && u.order == 0 && (u.card ||| mask) == mask && (c || u.c == 0)
    && (if rnd then u.rnd ≤ 5 else u.rnd == 0) && (ty2 || u.ty2 == 0)))

/-- A bare two-word cell: the modifier word is all zero (R186). -/
def bareOk (u : UW) : Bool := matOk u 0 false false false && u.ty == 0

/-- The symbols an RDM.V of B = 64·2^size bytes writes at a width (R172). -/
def rdmSyms (width sz : Nat) : Nat := max 1 (64 * 2 ^ sz / (4 * width))

end Sys2Proof.Machine
end

