-- ==== Sys2Proof/Machine/Reserved.lean ====
section
/-! DEFINITION. The reserved-field check of every instruction word (R69 step 3), card by card. -/

namespace Sys2Proof.Machine

/-- imm25 of the two-word MODE: reserved bits 0, every value bit inside a selected field, RND not 5 to 7 (R116, R52). -/
def modeImmOk (imm : Nat) : Bool :=
  let sel := bits imm 22 13
  let msk := (if bit sel 0 then 7 else 0) ||| (if bit sel 1 then 8 else 0) ||| (if bit sel 2 then 16 else 0)
    ||| (if bit sel 3 then 32 else 0) ||| (if bit sel 4 then 64 else 0) ||| (bits sel 9 5 <<< 8)
  bits imm 24 23 == 0 && (bits imm 12 0 ||| msk) == msk && bits imm 2 0 ≤ 4

/-- The index symbols MMG reads at a width: 64/WIDTH for .q4, ⌈32/WIDTH⌉ for .q1 (R192). -/
def mmgSyms (width shape : Nat) : Nat := if shape == 0 then 64 / width else (32 + width - 1) / width

/-- A copy word: scope .rope to .host, the card bits of a mask, nothing else (R204). -/
def cpyOk (u : UW) (mask : Nat) : Bool :=
  gOk u && (!u.two || (3 ≤ u.scope && u.c == 0 && u.ty == 0 && u.order == 0 && u.rnd == 0 && u.ty2 == 0
    && (u.card ||| mask) == mask))

/-- The check shared by NOP, YIELD, END, FENCE_I, ERESUME_RETRY. -/
def ok0 (u : UW) : Bool :=
  gOk u && u.d == 0 && u.a == 0 && u.b == 0

/-- The check shared by SADD, SADD_LONG, SSUB, SSUB_LONG, SMUL, SMUL_LONG, VADD, VADD_LONG, VSUB, VSUB_LONG, VMUL, VMUL_LONG. -/
def ok1 (u : UW) : Bool :=
  longOk u intTys false false false 1

/-- The check shared by SADDI, SADDI_LONG, SANDI, SANDI_LONG, SORI, SORI_LONG, SXORI, SXORI_LONG, SLUI, SLUI_SHORT, VADDI, VADDI_LONG. -/
def ok2 (u : UW) : Bool :=
  immOk u

/-- The check shared by SMULHI, SMULHI_LONG, SDIV, SDIV_LONG, SREM, SREM_LONG, SAND, SAND_LONG, SOR, SOR_LONG, SXOR, SXOR_LONG, SSHL,
SSHL_LONG, SSHR, SSHR_LONG, SSRA, SSRA_LONG, SMIN, SMIN_LONG, SMAX, SMAX_LONG, VMULHI, VMULHI_LONG, VAND, VAND_LONG, VOR, VOR_LONG,
VXOR, VXOR_LONG, VSHL, VSHL_LONG, VSHR, VSHR_LONG, VSRA, V. -/
def ok3 (u : UW) : Bool :=
  longOk u intTys false false false 0

/-- The check shared by SSHLI, SSHLI_LONG, SSHRI, SSHRI_LONG, SSRAI, SSRAI_LONG. -/
def ok4 (u : UW) : Bool :=
  immOk u && u.imm < 64

/-- The check shared by SCMP, SCMP_LONG. -/
def ok5 (u : UW) : Bool :=
  longOk u intTys false false false 0 && u.d == 0

/-- The check shared by SCMPI, SCMPI_LONG. -/
def ok6 (u : UW) : Bool :=
  immOk u && u.d == 0

/-- The check shared by SSEL, SSEL_LONG. -/
def ok7 (u : UW) : Bool :=
  longOk u [0] false false false 31 && condOk false u.card

/-- The check shared by SMOV, TKQ. -/
def ok8 (u : UW) : Bool :=
  gOk u && u.b == 0

/-- The check shared by SMOVI, SMOVI_LONG, VMOVI, VMOVI_LONG, CALL, CALL_LONG. -/
def ok9 (u : UW) : Bool :=
  immOk u && u.a == 0

/-- The check shared by SCLZ, SCLZ_LONG, SPOPC, SPOPC_LONG, VNOT, VNOT_LONG, VCLZ, VCLZ_LONG, VPOPC, VPOPC_LONG. -/
def ok10 (u : UW) : Bool :=
  longOk u intTys false false false 0 && u.b == 0

/-- The check shared by SBFE, SBFE_LONG, SBFI, SBFI_LONG. -/
def ok11 (u : UW) : Bool :=
  longOk u [0, 7, 8] false false false 0

/-- The check shared by SARG: no field of it is reserved, and its size is its card's own condition (R101). -/
def ok12 (_u : UW) : Bool := true

/-- The check shared by SARG_SX. -/
def ok13 (u : UW) : Bool :=
  immOk u && u.imm < 2048

/-- The check shared by BR, BR_LONG. -/
def ok14 (u : UW) : Bool :=
  immOk u && condOk true u.d && (if u.d ≥ 16 then u.a ≤ 31 else u.a == 0)

/-- The check shared by JMP, JMP_LONG. -/
def ok15 (u : UW) : Bool :=
  immOk u && u.d == 0 && u.a == 0

/-- The check shared by RET, MODE, BAR_ARR, BAR_WAIT, BAR_SYNC, BAR_DROP, TKREL, SAMPLE. -/
def ok16 (u : UW) : Bool :=
  gOk u && u.d == 0 && u.b == 0

/-- The check shared by IF. -/
def ok17 (u : UW) : Bool :=
  u.g == 0 && u.d == 0 && u.b ≤ 1 && u.a ≤ 31

/-- The check shared by ELSE, ENDIF, ENDLOOP. -/
def ok18 (u : UW) : Bool :=
  u.g == 0 && u.d == 0 && u.a == 0 && u.b == 0

/-- The check shared by LOOP. -/
def ok19 (u : UW) : Bool :=
  u.g == 0 && u.d == 0 && (u.b == 1 || (u.b == 0 && u.a == 0))

/-- The check shared by LOOP_IMM. -/
def ok20 (u : UW) : Bool :=
  u.g == 0 && u.d == 0 && u.a == 0 && u.b == 2 && u.c == 0

/-- The check shared by BREAK, CONT. -/
def ok21 (u : UW) : Bool :=
  u.g == 0 && u.d == 0 && ((u.b ≤ 1 && u.a ≤ 31) || (u.b == 2 && u.a == 0))

/-- The check shared by WAITCNT, TRAP, BKPT. -/
def ok22 (u : UW) : Bool :=
  u.d == 0 && u.a == 0

/-- The check shared by WIN. -/
def ok23 (u : UW) : Bool :=
  u.a == 0 && u.d ≤ 2 && (if u.d == 2 then u.imm ≤ 1 else u.imm ≤ 31)

/-- The check shared by MODE_FIELDS. -/
def ok24 (u : UW) : Bool :=
  gOk u && u.d == 0 && u.a == 0 && u.b == 0 && u.c == 0 && modeImmOk u.imm

/-- The check shared by PAND, POR, PXOR. -/
def ok25 (u : UW) : Bool :=
  gOk u && u.d ≤ 31 && u.a ≤ 31 && u.b ≤ 31

/-- The check shared by PNOT, PMOV. -/
def ok26 (u : UW) : Bool :=
  gOk u && u.d ≤ 31 && u.a ≤ 31 && u.b == 0

/-- The check shared by PTOS. -/
def ok27 (u : UW) : Bool :=
  gOk u && u.a ≤ 31 && u.b == 0

/-- The check shared by PFROMS. -/
def ok28 (u : UW) : Bool :=
  gOk u && u.d ≤ 31 && u.b == 0

/-- The check shared by VMAD. Type code 0 is allowed, as .i32; VDOT4 and VFDOT2 allow none (DESIGN CHOICE, log entry 53). -/
def ok29 (u : UW) : Bool :=
  longOk u intTys true false false 1

/-- The check shared by VABS, VABS_LONG, VNEG, VNEG_LONG. -/
def ok30 (u : UW) : Bool :=
  longOk u intTys false false false 1 && u.b == 0

/-- The check shared by VBFE, VBFE_LONG. -/
def ok31 (u : UW) : Bool :=
  longOk u [0, 5, 6] false false false 0

/-- The check shared by VBFI, VBFI_LONG. -/
def ok32 (u : UW) : Bool :=
  longOk u [0, 6] false false false 0

/-- The check shared by VSEL, VSEL_LONG. -/
def ok33 (u : UW) : Bool :=
  longOk u [0, 6, 8] false false false 31

/-- The check shared by VMOV, VMOV_LONG, VBCAST, VBCAST_LONG, VMATCH, VMATCH_LONG. -/
def ok34 (u : UW) : Bool :=
  longOk u [0, 6, 8] false false false 0 && u.b == 0

/-- The check shared by VLANE, VLANE_LONG, VSHFL, VSHFL_LONG, VSHFLX, VSHFLX_LONG, VSHFLUP, VSHFLUP_LONG, VSHFLDN, VSHFLDN_LONG. -/
def ok35 (u : UW) : Bool :=
  longOk u [0, 6, 8] false false false 0

/-- The check shared by VDOT4. Type code 0 traps, no default being stated (DESIGN CHOICE, log entry 53). -/
def ok36 (u : UW) : Bool :=
  longOk u [1, 2] true false true 1 && u.ty2 ≤ 2

/-- The check shared by VCMP, VCMP_LONG. -/
def ok37 (u : UW) : Bool :=
  longOk u [0, 5, 6, 7, 8] false false false 7 && u.card ≤ 5 && u.d ≤ 31

/-- The check shared by VFADD, VFADD_LONG, VFSUB, VFSUB_LONG, VFMUL, VFMUL_LONG, VFMIN, VFMIN_LONG, VFMAX, VFMAX_LONG. -/
def ok38 (u : UW) : Bool :=
  longOk u fltTys false true false 0

/-- The check shared by VFMA. -/
def ok39 (u : UW) : Bool :=
  longOk u fltTys true true false 0

/-- The check shared by VFABS, VFABS_LONG, VFNEG, VFNEG_LONG, VFCLASS, VFCLASS_LONG. -/
def ok40 (u : UW) : Bool :=
  longOk u fltTys false true false 0 && u.b == 0

/-- The check shared by VFCMP, VFCMP_LONG. -/
def ok41 (u : UW) : Bool :=
  longOk u [0, 9, 10] false true false 7 && u.d ≤ 31

/-- The check shared by VCVT. Any round field is accepted, between integer types too (DESIGN CHOICE, log entry 53). -/
def ok42 (u : UW) : Bool :=
  longOk u ((upto 16).drop 1) false true true 127 && u.b == 0 && 1 ≤ u.ty2 && u.ty2 ≤ 15 && bits u.card 3 1 < elemsOf u.ty && bits u.card 6 4 < elemsOf u.ty2 && (!bit u.card 0 || isIntTy u.ty == isIntTy u.ty2)

/-- The check shared by VFRND, VFRND_LONG. -/
def ok43 (u : UW) : Bool :=
  longOk u fltTys false true false 1 && u.b == 0

/-- The check shared by VFDOT2. Type code 0 traps, no default being stated (DESIGN CHOICE, log entry 53). -/
def ok44 (u : UW) : Bool :=
  longOk u [11, 12] true true false 0

/-- The check shared by VVOTE, VVOTE_LONG. -/
def ok45 (u : UW) : Bool :=
  longOk u [0] false false false 3 && u.b == 0 && u.a ≤ 31

/-- The check shared by VREDADD, VREDADD_LONG. -/
def ok46 (u : UW) : Bool :=
  longOk u [0, 5, 6, 7, 8, 9, 10] false true false 1 && u.b == 0 && (u.ty ≥ 9 || u.rnd == 0) && (u.ty < 9 || u.card == 0)

/-- The check shared by VREDMIN, VREDMIN_LONG, VREDMAX, VREDMAX_LONG. -/
def ok47 (u : UW) : Bool :=
  longOk u [0, 5, 6, 7, 8, 9, 10] false true false 0 && u.b == 0 && (u.ty ≥ 9 || u.rnd == 0)

/-- The check shared by VSCAN, VSCAN_LONG. -/
def ok48 (u : UW) : Bool :=
  longOk u [0, 5, 6, 10] false true false 7 && u.b == 0 && bits u.card 2 1 ≤ 2 && (u.ty == 10 || u.rnd == 0)

/-- The check shared by VTOPK. -/
def ok49 (u : UW) : Bool :=
  longOk u [0, 5, 6, 10] true true false 1 && u.c ≤ 31 && (u.ty == 0 || u.ty == 10 || u.rnd == 0)

/-- The check shared by VEX2, VEX2_LONG, VLG2, VLG2_LONG, VSIN, VSIN_LONG, VCOS, VCOS_LONG, VTANH, VTANH_LONG. -/
def ok50 (u : UW) : Bool :=
  longOk u [0, 10] false true false 0 && u.b == 0 && u.rnd ≤ 1

/-- The check shared by VRCP, VRCP_LONG, VRSQ, VRSQ_LONG, VSQRT, VSQRT_LONG. -/
def ok51 (u : UW) : Bool :=
  longOk u [0, 10] false true false 0 && u.b == 0

/-- The check shared by LD, LD_LONG. -/
def ok52 (u : UW) : Bool :=
  memOk u [0, 1, 2, 3, 4] [0, 1, 2] 3 false && (!bit u.card 0 || u.size ≤ 1)

/-- The check shared by ST, ST_LONG. -/
def ok53 (u : UW) : Bool :=
  memOk u [0, 1, 2, 3, 4] [0, 1, 3] 2 false

/-- The check shared by LDS, LDS_LONG. -/
def ok54 (u : UW) : Bool :=
  memOk u [0, 1, 2, 3, 4] [0, 1] 1 false && u.scope == 0 && (!bit u.card 0 || u.size ≤ 1)

/-- The check shared by STS, STS_LONG. -/
def ok55 (u : UW) : Bool :=
  memOk u [0, 1, 2, 3, 4] [0, 1] 0 false && u.scope == 0

/-- The check shared by LDT, LDT_LONG. -/
def ok56 (u : UW) : Bool :=
  memNx u [0] [0, 1] 7 false && u.card ≤ 4

/-- The check shared by RDM_V, RDM_V_LONG: disp12, which the word does not use, is 0 (DESIGN CHOICE, log entry 53). -/
def ok57 (width : Nat) (u : UW) : Bool :=
  memNx u [0] [0] 7 false && u.card ≤ 4 && u.scope == 0 && u.disp == 0 && u.d + rdmSyms width (if u.two then u.card else 1) ≤ 128

/-- The check shared by RDM_S, RDM_S_LONG. -/
def ok58 (u : UW) : Bool :=
  memOk u [0] [0] 7 false && u.card ≤ 4 && u.scope == 0

/-- The check shared by ATOM. -/
def ok59 (u : UW) : Bool :=
  memOk u [2, 3, 6, 7] [0, 1, 2, 3] 15 true && u.card ≤ 12

/-- The check shared by RED. -/
def ok60 (u : UW) : Bool :=
  memOk u [2, 3, 6, 7] [0, 1, 3] 15 true && u.card ≤ 12 && u.card != 8 && u.card != 9 && u.d == 0

/-- The check shared by WAITC. -/
def ok61 (u : UW) : Bool :=
  memNx u [2, 3] [0, 1, 2] 15 true && u.card ≤ 7

/-- The check shared by FENCE, FENCE_LONG: disp12, which the word does not use, is 0 (DESIGN CHOICE, log entry 53). -/
def ok62 (u : UW) : Bool :=
  memNx u [0] [0] 3 false && u.d == 0 && u.a == 0 && u.card != 3 && u.disp == 0

/-- The check shared by PREF, PREF_LONG. -/
def ok63 (u : UW) : Bool :=
  memOk u [0] [0] 7 false && u.d == 0

/-- The check shared by CWB, CWB_LONG. -/
def ok64 (u : UW) : Bool :=
  memOk u [0] [0] 3 false && u.d == 0

/-- The check shared by TIDEF. -/
def ok65 (u : UW) : Bool :=
  memNx u [0] [0, 1] 0 false && u.disp == 0 && u.d ≤ 120 && u.a ≤ 120

/-- The check shared by TSWEEP. -/
def ok66 (u : UW) : Bool :=
  memNx u [0] [0] 15 false && u.scope == 0 && u.disp == 0 && u.card ≤ 8 && u.d == 0 && u.a ≤ 120

/-- The check shared by TWALK. -/
def ok67 (u : UW) : Bool :=
  memNx u [0] [0] 15 false && u.scope == 0 && u.disp == 0 && u.card ≤ 5 && u.a ≤ 120

/-- The check shared by GANG, GANG_LONG. -/
def ok68 (u : UW) : Bool :=
  bareOk u && u.d == 0 && u.b == 0

/-- The check shared by MM, MM_LONG. -/
def ok69 (u : UW) : Bool :=
  matOk u 7 true false true && bits u.card 1 0 ≤ 1 && (!u.two || mmTys u.ty u.ty2 true)

/-- The check shared by MMG, MMG_LONG. -/
def ok70 (width : Nat) (u : UW) : Bool :=
  matOk u 7 true false true && bits u.card 1 0 ≤ 1 && (!u.two || (mmTys u.ty u.ty2 true && u.c + mmgSyms width (bits u.card 1 0) ≤ 128))

/-- The check shared by MMB, MMB_LONG. -/
def ok71 (u : UW) : Bool :=
  matOk u 0 true false true && (!u.two || mmTys u.ty u.ty2 false)

/-- The check shared by MTILE, MTILE_LONG. -/
def ok72 (u : UW) : Bool :=
  matOk u 8 false false true && (!u.two || (mmTys u.ty u.ty2 false && !(bit u.card 3 && isIntTy u.ty)))

/-- The check shared by MSCL, MSCL_LONG. -/
def ok73 (u : UW) : Bool :=
  matOk u 0 true false false && u.ty == 0 && u.d == 0 && u.b == 0

/-- The check shared by ACLR, ACLR_LONG. -/
def ok74 (u : UW) : Bool :=
  matOk u 3 false false false && u.ty == 0 && bits u.card 1 0 ≤ 1 && u.a == 0 && u.b == 0

/-- The check shared by AMOV, AMOV_LONG. -/
def ok75 (width : Nat) (u : UW) : Bool :=
  matOk u 12 false false false && u.ty == 0 && bits u.card 3 2 ≤ 2 && u.b == 0 && (bits u.card 3 2 != 1 || u.d + 1024 / width ≤ 128) && (bits u.card 3 2 != 2 || u.a + 1024 / width ≤ 128)

/-- The check shared by AFILL, AFILL_LONG. -/
def ok76 (u : UW) : Bool :=
  matOk u 3 false false false && u.ty == 0 && bits u.card 1 0 ≤ 1 && u.b == 0

/-- The check shared by ALD, ALD_LONG. -/
def ok77 (u : UW) : Bool :=
  matOk u 3 true false false && bits u.card 1 0 ≤ 1 && u.b == 0 && (!u.two || u.ty == 5 || u.ty == 10 || u.ty == 12)

/-- The check shared by AST, AST_LONG: a round field is accepted, and ignored, also for .f32 and .i32 (DESIGN CHOICE, log entry 53). -/
def ok78 (u : UW) : Bool :=
  matOk u 3 true true false && bits u.card 1 0 ≤ 1 && u.b == 0 && (!u.two || u.ty == 5 || u.ty == 10 || u.ty == 12)

/-- The check shared by CPY, CPY_LONG, CPYW, CPYW_LONG. -/
def ok79 (u : UW) : Bool :=
  cpyOk u 3 && u.a ≤ 125

/-- The check shared by CPYM, CPYM_LONG. -/
def ok80 (u : UW) : Bool :=
  cpyOk u 1 && u.a ≤ 124

/-- The check shared by MBSEND, MBSEND_LONG, MBRECV, MBRECV_LONG. -/
def ok81 (u : UW) : Bool :=
  matOk u 1 true false false && u.ty == 0

/-- The check shared by MBPOLL, MBPOLL_LONG, XGET, XGET_LONG. -/
def ok82 (u : UW) : Bool :=
  bareOk u && u.b == 0

/-- The check shared by MBVER, TIME. -/
def ok83 (u : UW) : Bool :=
  gOk u && u.a == 0 && u.b == 0

/-- The check shared by MBVER_SET. -/
def ok84 (u : UW) : Bool :=
  matOk u 1 false false false && u.ty == 0 && u.b == 0 && (u.card == 1 || u.a == 0)

/-- The check shared by TREC, TREC_LONG. -/
def ok85 (u : UW) : Bool :=
  bareOk u && u.b == 0 && u.a ≤ 31

/-- The check shared by XSET, XSET_LONG. -/
def ok86 (u : UW) : Bool :=
  bareOk u && u.d == 0

/-- The check shared by ERESUME_SKIP. -/
def ok87 (u : UW) : Bool :=
  gOk u && u.d == 1 && u.a == 0 && u.b == 0

/-- The check shared by ERESUME_JMP. -/
def ok88 (u : UW) : Bool :=
  gOk u && u.d == 2 && u.b == 0

/-- The check shared by ERESUME_REL. -/
def ok89 (u : UW) : Bool :=
  gOk u && u.d == 3 && u.a == 0 && u.b == 0 && u.c == 0

/-- The check shared by GETSR. -/
def ok90 (u : UW) : Bool :=
  gOk u && sysRegs.contains u.a && (u.a == 17 || u.b ≤ 1)

/-- The check shared by SETSR. -/
def ok91 (u : UW) : Bool :=
  gOk u && sysRegs.contains u.a && (u.d == 0 || (u.d == 1 && u.a == 25))

/-- The check shared by SAMPLE_MARK. -/
def ok92 (u : UW) : Bool :=
  matOk u 1 false false false && u.ty == 0 && u.d == 0 && u.b == 0

/-- The check shared by HOSTSIG. -/
def ok93 (u : UW) : Bool :=
  u.d == 0 && u.imm ≤ 63

/-- The check shared by HOSTSIG_LONG. -/
def ok94 (u : UW) : Bool :=
  immOk u && u.d == 0 && u.imm ≤ 63

/-- The reserved fields of an instruction word hold what its card asks, at a wave width (R69 step 3). -/
def wordOk (width : Nat) (i : Instr) : Bool :=
  match i with
  | .nop w => ok0 (ucw w)
  | .sadd w => ok1 (ucw w)
  | .saddLong w m => ok1 (umw w m)
  | .saddi w => ok2 (uiw w)
  | .saddiLong w x => ok2 (uiw2 w x)
  | .ssub w => ok1 (ucw w)
  | .ssubLong w m => ok1 (umw w m)
  | .smul w => ok1 (ucw w)
  | .smulLong w m => ok1 (umw w m)
  | .smulhi w => ok3 (ucw w)
  | .smulhiLong w m => ok3 (umw w m)
  | .sdiv w => ok3 (ucw w)
  | .sdivLong w m => ok3 (umw w m)
  | .srem w => ok3 (ucw w)
  | .sremLong w m => ok3 (umw w m)
  | .sand w => ok3 (ucw w)
  | .sandLong w m => ok3 (umw w m)
  | .sandi w => ok2 (uiw w)
  | .sandiLong w x => ok2 (uiw2 w x)
  | .sor w => ok3 (ucw w)
  | .sorLong w m => ok3 (umw w m)
  | .sori w => ok2 (uiw w)
  | .soriLong w x => ok2 (uiw2 w x)
  | .sxor w => ok3 (ucw w)
  | .sxorLong w m => ok3 (umw w m)
  | .sxori w => ok2 (uiw w)
  | .sxoriLong w x => ok2 (uiw2 w x)
  | .sshl w => ok3 (ucw w)
  | .sshlLong w m => ok3 (umw w m)
  | .sshli w => ok4 (uiw w)
  | .sshliLong w x => ok4 (uiw2 w x)
  | .sshr w => ok3 (ucw w)
  | .sshrLong w m => ok3 (umw w m)
  | .sshri w => ok4 (uiw w)
  | .sshriLong w x => ok4 (uiw2 w x)
  | .ssra w => ok3 (ucw w)
  | .ssraLong w m => ok3 (umw w m)
  | .ssrai w => ok4 (uiw w)
  | .ssraiLong w x => ok4 (uiw2 w x)
  | .smin w => ok3 (ucw w)
  | .sminLong w m => ok3 (umw w m)
  | .smax w => ok3 (ucw w)
  | .smaxLong w m => ok3 (umw w m)
  | .scmp w => ok5 (ucw w)
  | .scmpLong w m => ok5 (umw w m)
  | .scmpi w => ok6 (uiw w)
  | .scmpiLong w x => ok6 (uiw2 w x)
  | .ssel w => ok7 (ucw w)
  | .sselLong w m => ok7 (umw w m)
  | .smov w => ok8 (ucw w)
  | .smovi w => ok9 (uiw w)
  | .smoviLong w x => ok9 (uiw2 w x)
  | .sluiShort w => ok2 (uiw w)
  | .slui w x => ok2 (uiw2 w x)
  | .sclz w => ok10 (ucw w)
  | .sclzLong w m => ok10 (umw w m)
  | .spopc w => ok10 (ucw w)
  | .spopcLong w m => ok10 (umw w m)
  | .sbfe w => ok11 (ucw w)
  | .sbfeLong w m => ok11 (umw w m)
  | .sbfi w => ok11 (ucw w)
  | .sbfiLong w m => ok11 (umw w m)
  | .sarg w => ok12 (uiw w)
  | .sargSx w x => ok13 (uiw2 w x)
  | .br w => ok14 (uiw w)
  | .brLong w x => ok14 (uiw2 w x)
  | .jmp w => ok15 (uiw w)
  | .jmpLong w x => ok15 (uiw2 w x)
  | .call w => ok9 (uiw w)
  | .callLong w x => ok9 (uiw2 w x)
  | .ret w => ok16 (ucw w)
  | .ifW w => ok17 (ucw w)
  | .elseW w => ok18 (ucw w)
  | .endif w => ok18 (ucw w)
  | .loopW w => ok19 (ucw w)
  | .loopImm w x => ok20 (uiw2 w x)
  | .breakW w => ok21 (ucw w)
  | .contW w => ok21 (ucw w)
  | .endloop w => ok18 (ucw w)
  | .yield w => ok0 (ucw w)
  | .waitcnt w => ok22 (uiw w)
  | .endW w => ok0 (ucw w)
  | .win w => ok23 (uiw w)
  | .modeW w => ok16 (ucw w)
  | .modeFields w x => ok24 (uiw2 w x)
  | .barArr w => ok16 (ucw w)
  | .barWait w => ok16 (ucw w)
  | .barSync w => ok16 (ucw w)
  | .barDrop w => ok16 (ucw w)
  | .pand w => ok25 (ucw w)
  | .por w => ok25 (ucw w)
  | .pxor w => ok25 (ucw w)
  | .pnot w => ok26 (ucw w)
  | .pmov w => ok26 (ucw w)
  | .ptos w => ok27 (ucw w)
  | .pfroms w => ok28 (ucw w)
  | .vadd w => ok1 (ucw w)
  | .vaddLong w m => ok1 (umw w m)
  | .vaddi w => ok2 (uiw w)
  | .vaddiLong w x => ok2 (uiw2 w x)
  | .vsub w => ok1 (ucw w)
  | .vsubLong w m => ok1 (umw w m)
  | .vmul w => ok1 (ucw w)
  | .vmulLong w m => ok1 (umw w m)
  | .vmulhi w => ok3 (ucw w)
  | .vmulhiLong w m => ok3 (umw w m)
  | .vmad w m => ok29 (umw w m)
  | .vand w => ok3 (ucw w)
  | .vandLong w m => ok3 (umw w m)
  | .vor w => ok3 (ucw w)
  | .vorLong w m => ok3 (umw w m)
  | .vxor w => ok3 (ucw w)
  | .vxorLong w m => ok3 (umw w m)
  | .vnot w => ok10 (ucw w)
  | .vnotLong w m => ok10 (umw w m)
  | .vshl w => ok3 (ucw w)
  | .vshlLong w m => ok3 (umw w m)
  | .vshr w => ok3 (ucw w)
  | .vshrLong w m => ok3 (umw w m)
  | .vsra w => ok3 (ucw w)
  | .vsraLong w m => ok3 (umw w m)
  | .vmin w => ok3 (ucw w)
  | .vminLong w m => ok3 (umw w m)
  | .vmax w => ok3 (ucw w)
  | .vmaxLong w m => ok3 (umw w m)
  | .vabs w => ok30 (ucw w)
  | .vabsLong w m => ok30 (umw w m)
  | .vneg w => ok30 (ucw w)
  | .vnegLong w m => ok30 (umw w m)
  | .vclz w => ok10 (ucw w)
  | .vclzLong w m => ok10 (umw w m)
  | .vpopc w => ok10 (ucw w)
  | .vpopcLong w m => ok10 (umw w m)
  | .vbfe w => ok31 (ucw w)
  | .vbfeLong w m => ok31 (umw w m)
  | .vbfi w => ok32 (ucw w)
  | .vbfiLong w m => ok32 (umw w m)
  | .vsel w => ok33 (ucw w)
  | .vselLong w m => ok33 (umw w m)
  | .vmov w => ok34 (ucw w)
  | .vmovLong w m => ok34 (umw w m)
  | .vmovi w => ok9 (uiw w)
  | .vmoviLong w x => ok9 (uiw2 w x)
  | .vbcast w => ok34 (ucw w)
  | .vbcastLong w m => ok34 (umw w m)
  | .vlane w => ok35 (ucw w)
  | .vlaneLong w m => ok35 (umw w m)
  | .vdot4 w m => ok36 (umw w m)
  | .vcmp w => ok37 (ucw w)
  | .vcmpLong w m => ok37 (umw w m)
  | .vfadd w => ok38 (ucw w)
  | .vfaddLong w m => ok38 (umw w m)
  | .vfsub w => ok38 (ucw w)
  | .vfsubLong w m => ok38 (umw w m)
  | .vfmul w => ok38 (ucw w)
  | .vfmulLong w m => ok38 (umw w m)
  | .vfma w m => ok39 (umw w m)
  | .vfmin w => ok38 (ucw w)
  | .vfminLong w m => ok38 (umw w m)
  | .vfmax w => ok38 (ucw w)
  | .vfmaxLong w m => ok38 (umw w m)
  | .vfabs w => ok40 (ucw w)
  | .vfabsLong w m => ok40 (umw w m)
  | .vfneg w => ok40 (ucw w)
  | .vfnegLong w m => ok40 (umw w m)
  | .vfcmp w => ok41 (ucw w)
  | .vfcmpLong w m => ok41 (umw w m)
  | .vfclass w => ok40 (ucw w)
  | .vfclassLong w m => ok40 (umw w m)
  | .vcvt w m => ok42 (umw w m)
  | .vfrnd w => ok43 (ucw w)
  | .vfrndLong w m => ok43 (umw w m)
  | .vfdot2 w m => ok44 (umw w m)
  | .vshfl w => ok35 (ucw w)
  | .vshflLong w m => ok35 (umw w m)
  | .vshflx w => ok35 (ucw w)
  | .vshflxLong w m => ok35 (umw w m)
  | .vshflup w => ok35 (ucw w)
  | .vshflupLong w m => ok35 (umw w m)
  | .vshfldn w => ok35 (ucw w)
  | .vshfldnLong w m => ok35 (umw w m)
  | .vvote w => ok45 (ucw w)
  | .vvoteLong w m => ok45 (umw w m)
  | .vredadd w => ok46 (ucw w)
  | .vredaddLong w m => ok46 (umw w m)
  | .vredmin w => ok47 (ucw w)
  | .vredminLong w m => ok47 (umw w m)
  | .vredmax w => ok47 (ucw w)
  | .vredmaxLong w m => ok47 (umw w m)
  | .vscan w => ok48 (ucw w)
  | .vscanLong w m => ok48 (umw w m)
  | .vmatch w => ok34 (ucw w)
  | .vmatchLong w m => ok34 (umw w m)
  | .vtopk w m => ok49 (umw w m)
  | .vex2 w => ok50 (ucw w)
  | .vex2Long w m => ok50 (umw w m)
  | .vlg2 w => ok50 (ucw w)
  | .vlg2Long w m => ok50 (umw w m)
  | .vrcp w => ok51 (ucw w)
  | .vrcpLong w m => ok51 (umw w m)
  | .vrsq w => ok51 (ucw w)
  | .vrsqLong w m => ok51 (umw w m)
  | .vsqrt w => ok51 (ucw w)
  | .vsqrtLong w m => ok51 (umw w m)
  | .vsin w => ok50 (ucw w)
  | .vsinLong w m => ok50 (umw w m)
  | .vcos w => ok50 (ucw w)
  | .vcosLong w m => ok50 (umw w m)
  | .vtanh w => ok50 (ucw w)
  | .vtanhLong w m => ok50 (umw w m)
  | .ld w => ok52 (ucw w)
  | .ldLong w m => ok52 (uxw w m)
  | .st w => ok53 (ucw w)
  | .stLong w m => ok53 (uxw w m)
  | .lds w => ok54 (ucw w)
  | .ldsLong w m => ok54 (uxw w m)
  | .sts w => ok55 (ucw w)
  | .stsLong w m => ok55 (uxw w m)
  | .ldt w => ok56 (ucw w)
  | .ldtLong w m => ok56 (uxw w m)
  | .rdmV w => ok57 width (ucw w)
  | .rdmVLong w m => ok57 width (uxw w m)
  | .rdmS w => ok58 (ucw w)
  | .rdmSLong w m => ok58 (uxw w m)
  | .tkrel w => ok16 (ucw w)
  | .tkq w => ok8 (ucw w)
  | .atom w m => ok59 (uxw w m)
  | .red w m => ok60 (uxw w m)
  | .waitc w m => ok61 (uxw w m)
  | .fence w => ok62 (ucw w)
  | .fenceLong w m => ok62 (uxw w m)
  | .fenceI w => ok0 (ucw w)
  | .pref w => ok63 (ucw w)
  | .prefLong w m => ok63 (uxw w m)
  | .cwb w => ok64 (ucw w)
  | .cwbLong w m => ok64 (uxw w m)
  | .tidef w m => ok65 (uxw w m)
  | .tsweep w m => ok66 (uxw w m)
  | .twalk w m => ok67 (uxw w m)
  | .gang w => ok68 (ucw w)
  | .gangLong w m => ok68 (umw w m)
  | .mm w => ok69 (ucw w)
  | .mmLong w m => ok69 (umw w m)
  | .mmg w => ok70 width (ucw w)
  | .mmgLong w m => ok70 width (umw w m)
  | .mmb w => ok71 (ucw w)
  | .mmbLong w m => ok71 (umw w m)
  | .mtile w => ok72 (ucw w)
  | .mtileLong w m => ok72 (umw w m)
  | .mscl w => ok73 (ucw w)
  | .msclLong w m => ok73 (umw w m)
  | .aclr w => ok74 (ucw w)
  | .aclrLong w m => ok74 (umw w m)
  | .amov w => ok75 width (ucw w)
  | .amovLong w m => ok75 width (umw w m)
  | .afill w => ok76 (ucw w)
  | .afillLong w m => ok76 (umw w m)
  | .ald w => ok77 (ucw w)
  | .aldLong w m => ok77 (umw w m)
  | .ast w => ok78 (ucw w)
  | .astLong w m => ok78 (umw w m)
  | .cpy w => ok79 (ucw w)
  | .cpyLong w m => ok79 (umw w m)
  | .cpym w => ok80 (ucw w)
  | .cpymLong w m => ok80 (umw w m)
  | .cpyw w => ok79 (ucw w)
  | .cpywLong w m => ok79 (umw w m)
  | .mbsend w => ok81 (ucw w)
  | .mbsendLong w m => ok81 (umw w m)
  | .mbrecv w => ok81 (ucw w)
  | .mbrecvLong w m => ok81 (umw w m)
  | .mbpoll w => ok82 (ucw w)
  | .mbpollLong w m => ok82 (umw w m)
  | .mbver w => ok83 (ucw w)
  | .mbverSet w m => ok84 (umw w m)
  | .trap w => ok22 (uiw w)
  | .bkpt w => ok22 (uiw w)
  | .trec w => ok85 (ucw w)
  | .trecLong w m => ok85 (umw w m)
  | .xget w => ok82 (ucw w)
  | .xgetLong w m => ok82 (umw w m)
  | .xset w => ok86 (ucw w)
  | .xsetLong w m => ok86 (umw w m)
  | .eresumeRetry w => ok0 (ucw w)
  | .eresumeSkip w => ok87 (ucw w)
  | .eresumeJmp w => ok88 (ucw w)
  | .eresumeRel w x => ok89 (uiw2 w x)
  | .getsr w => ok90 (ucw w)
  | .setsr w => ok91 (ucw w)
  | .time w => ok83 (ucw w)
  | .sample w => ok16 (ucw w)
  | .sampleMark w m => ok92 (umw w m)
  | .hostsig w => ok93 (uiw w)
  | .hostsigLong w x => ok94 (uiw2 w x)
  | .unimplementedOpcode _ _ _ => true
  | .clauseIssue => true
  | .handlerStart _ => true
  | .loadResult _ => true
  | .atomHomeUpdate _ => true
  | .homeWritePerform _ => true
  | .waitcRepoll _ => true
  | .externalWaitTimeout _ => true
  | .writeCompletionTime _ => true
  | .l1LeaseExpiry _ _ => true
  | .l1Eviction _ _ => true
  | .translationWalkComplete _ => true
  | .specialFunctionResult _ => true
  | .ldtLineRead _ _ _ => true
  | .ldtTicketWritten _ _ => true
  | .ticketFetchComplete _ _ => true
  | .ticketStateReturn _ => true
  | .ticketLeaseEnd _ _ => true
  | .matrixGrant _ => true
  | .matrixWordComplete _ => true
  | .mtilePitchComplete _ => true
  | .gangLatchTimeout _ _ => true
  | .accFirstUseTrap _ _ => true
  | .copyStart _ _ _ => true
  | .copyComplete _ _ => true
  | .mbsendEnqueue _ => true
  | .observationDelivery _ => true
  | .hostsigEnqueue _ => true
  | .waveRetire _ => true
  | .interruptSend _ => true
  | .shareRecompute _ => true
  | .rebindMove _ => true
  | .blockSwapOut _ => true
  | .blockSwapIn _ _ => true
  | .ropeGroupPlacement _ _ _ => true
  | .activeSetSwap _ _ _ => true
  | .timeSliceExpiry _ => true
  | .blockPreempt _ => true
  | .deadlockWatchdogFire _ => true
  | .pageRequestRetry _ _ _ => true
  | .pageRequestFail _ _ _ => true
  | .pageRequestTimeout _ _ => true
  | .stop _ _ => true
  | .debugStopEffect _ => true
  | .debugDumpWritten _ => true
  | .resume _ _ => true
  | .step _ _ => true
  | .ddataRead _ _ => true
  | .ddataWrite _ _ _ => true
  | .debugGrant _ _ _ => true
  | .debugRevoke _ _ _ => true
  | .contextEnable _ _ _ => true
  | .contextTeardown _ _ _ => true
  | .flr _ _ _ => true
  | .contextResetComplete _ => true
  | .preempt _ _ => true
  | .queueEnable _ _ _ _ => true
  | .queueDisable _ _ _ _ => true
  | .qdoor _ _ _ _ => true
  | .packetRead _ _ => true
  | .packetReread _ _ => true
  | .tlbInvalidationComplete _ => true
  | .launchReady _ => true
  | .operatingPointSettled _ => true
  | .thermalSample _ _ => true
  | .wayGatingInterval _ _ _ => true
  | .cairnSamplePick _ _ => true
  | .cairnRecordWrite _ _ _ => true
  | .patrolScrub _ _ => true
  | .deviceReset => true
  | .dreset _ => true
  | .functionLevelReset _ => true
  | .hostMemoryAccess _ _ _ _ => true
  | .peerAccess _ _ _ _ => true
  | .domainJoin _ _ => true
  | .domainLeave _ _ => true
  | .peerLoss _ => true
  | .ptpMessage _ => true
  | .hostadj _ _ => true
  | .timeSourceSelect _ _ => true
  | .fwgo _ _ => true
  | .fwcommit _ _ => true
  | .ago _ _ => true
  | .cgo _ _ => true
  | .attestationComplete => true
  | .rload _ _ => true
  | .announcementReceive _ _ => true
  | .bindingSetAnnounce _ => true
  | .start _ _ _ => true
  | .reset _ _ _ => true
  | .windowWrite _ _ _ _ => true
  | .apop _ => true
  | .osend _ => true
  | .tkval _ _ => true
  | .portRedeemComplete _ => true
  | .episodeWatchdogFire _ => true
  | .timeoutObservationEnqueue _ => true
  | .hartInstruction _ => true
  | .registerWrite _ _ _ _ => true
  | .powerOn => true
  | .bootRomVerification _ => true
  | .fabricPortTrained _ => true
  | .fabricPortFails _ => true

end Sys2Proof.Machine
end

