-- ==== Sys2Proof/Decode.lean ====
section
/-! DEFINITION. The decoder and the encoder of instruction words (R62, R63, R67). The class comes from the clause
header (R58), so a word has a meaning only within a class. The compiler has no tag for a constructor numbered above 244,
so the functions that build an Instr are marked noncomputable; the kernel evaluates them, and Machine/Run.lean gives
the compiler an equal function that builds none. -/

namespace Sys2Proof

open Sys2Proof.Machine

/-- Why bytes are not an instruction. -/
inductive Reject where
  /-- Class 7 has no instructions: a class-7 header traps (R60). -/
  | classSeven
  /-- The bytes end before the instruction's last word does. -/
  | shortWord
deriving DecidableEq, Repr

/-- An instruction's class and raw words. -/
structure Enc where
  cls : BitVec 3
  w1 : W32
  w2 : Option W32
deriving DecidableEq, Repr

/-- op, bits [31:25] of the first word (R62). -/
def opOf (w : W32) : BitVec 7 := w.extractLsb' 25 7

/-- The common format's fields (R62). -/
def cwOf (w : W32) : CW := ⟨w.extractLsb' 18 7, w.extractLsb' 11 7, w.extractLsb' 4 7, w.extractLsb' 0 4⟩

/-- The immediate format's fields (R62). -/
def iwOf (w : W32) : IW := ⟨w.extractLsb' 18 7, w.extractLsb' 11 7, w.extractLsb' 0 11⟩

/-- The modifier word's fields (R63). -/
def modOf (w : W32) : ModW :=
  ⟨w.extractLsb' 25 7, w.extractLsb' 20 5, w.extractLsb' 17 3, w.extractLsb' 15 2, w.extractLsb' 12 3,
    w.extractLsb' 7 5, w.extractLsb' 0 7⟩

/-- The memory word's fields (R63). -/
def memOf (w : W32) : MemW :=
  ⟨w.extractLsb' 25 7, w.extractLsb' 22 3, w.extractLsb' 20 2, w.extractLsb' 17 3, w.extractLsb' 16 1,
    w.extractLsb' 12 4, w.extractLsb' 0 12⟩

/-- The immediate word's fields (R63). -/
def xwOf (w : W32) : XW := ⟨w.extractLsb' 25 7, w.extractLsb' 0 25⟩

/-- Bit 25 of the first word sets the length, for assigned and unassigned op values alike (R62). -/
def isTwo (w : W32) : Bool := w.getLsbD 25

/-- The assigned cells of class 0 (R67). -/
noncomputable def decode0 (w1 w2 : W32) : Option Instr :=
  match (opOf w1).toNat with
  | 0 => some (.nop (cwOf w1))
  | 2 => some (.sadd (cwOf w1))
  | 3 => some (.saddLong (cwOf w1) (modOf w2))
  | 4 => some (.saddi (iwOf w1))
  | 5 => some (.saddiLong (cwOf w1) (xwOf w2))
  | 6 => some (.ssub (cwOf w1))
  | 7 => some (.ssubLong (cwOf w1) (modOf w2))
  | 8 => some (.smul (cwOf w1))
  | 9 => some (.smulLong (cwOf w1) (modOf w2))
  | 10 => some (.smulhi (cwOf w1))
  | 11 => some (.smulhiLong (cwOf w1) (modOf w2))
  | 12 => some (.sdiv (cwOf w1))
  | 13 => some (.sdivLong (cwOf w1) (modOf w2))
  | 14 => some (.srem (cwOf w1))
  | 15 => some (.sremLong (cwOf w1) (modOf w2))
  | 16 => some (.sand (cwOf w1))
  | 17 => some (.sandLong (cwOf w1) (modOf w2))
  | 18 => some (.sandi (iwOf w1))
  | 19 => some (.sandiLong (cwOf w1) (xwOf w2))
  | 20 => some (.sor (cwOf w1))
  | 21 => some (.sorLong (cwOf w1) (modOf w2))
  | 22 => some (.sori (iwOf w1))
  | 23 => some (.soriLong (cwOf w1) (xwOf w2))
  | 24 => some (.sxor (cwOf w1))
  | 25 => some (.sxorLong (cwOf w1) (modOf w2))
  | 26 => some (.sxori (iwOf w1))
  | 27 => some (.sxoriLong (cwOf w1) (xwOf w2))
  | 28 => some (.sshl (cwOf w1))
  | 29 => some (.sshlLong (cwOf w1) (modOf w2))
  | 30 => some (.sshli (iwOf w1))
  | 31 => some (.sshliLong (cwOf w1) (xwOf w2))
  | 32 => some (.sshr (cwOf w1))
  | 33 => some (.sshrLong (cwOf w1) (modOf w2))
  | 34 => some (.sshri (iwOf w1))
  | 35 => some (.sshriLong (cwOf w1) (xwOf w2))
  | 36 => some (.ssra (cwOf w1))
  | 37 => some (.ssraLong (cwOf w1) (modOf w2))
  | 38 => some (.ssrai (iwOf w1))
  | 39 => some (.ssraiLong (cwOf w1) (xwOf w2))
  | 40 => some (.smin (cwOf w1))
  | 41 => some (.sminLong (cwOf w1) (modOf w2))
  | 42 => some (.smax (cwOf w1))
  | 43 => some (.smaxLong (cwOf w1) (modOf w2))
  | 44 => some (.scmp (cwOf w1))
  | 45 => some (.scmpLong (cwOf w1) (modOf w2))
  | 46 => some (.scmpi (iwOf w1))
  | 47 => some (.scmpiLong (cwOf w1) (xwOf w2))
  | 48 => some (.ssel (cwOf w1))
  | 49 => some (.sselLong (cwOf w1) (modOf w2))
  | 50 => some (.smov (cwOf w1))
  | 52 => some (.smovi (iwOf w1))
  | 53 => some (.smoviLong (cwOf w1) (xwOf w2))
  | 54 => some (.sluiShort (iwOf w1))
  | 55 => some (.slui (cwOf w1) (xwOf w2))
  | 56 => some (.sclz (cwOf w1))
  | 57 => some (.sclzLong (cwOf w1) (modOf w2))
  | 58 => some (.spopc (cwOf w1))
  | 59 => some (.spopcLong (cwOf w1) (modOf w2))
  | 60 => some (.sbfe (cwOf w1))
  | 61 => some (.sbfeLong (cwOf w1) (modOf w2))
  | 62 => some (.sbfi (cwOf w1))
  | 63 => some (.sbfiLong (cwOf w1) (modOf w2))
  | 64 => some (.sarg (iwOf w1))
  | 65 => some (.sargSx (cwOf w1) (xwOf w2))
  | 66 => some (.br (iwOf w1))
  | 67 => some (.brLong (cwOf w1) (xwOf w2))
  | 68 => some (.jmp (iwOf w1))
  | 69 => some (.jmpLong (cwOf w1) (xwOf w2))
  | 70 => some (.call (iwOf w1))
  | 71 => some (.callLong (cwOf w1) (xwOf w2))
  | 72 => some (.ret (cwOf w1))
  | 74 => some (.ifW (cwOf w1))
  | 76 => some (.elseW (cwOf w1))
  | 78 => some (.endif (cwOf w1))
  | 80 => some (.loopW (cwOf w1))
  | 81 => some (.loopImm (cwOf w1) (xwOf w2))
  | 82 => some (.breakW (cwOf w1))
  | 84 => some (.contW (cwOf w1))
  | 86 => some (.endloop (cwOf w1))
  | 88 => some (.yield (cwOf w1))
  | 90 => some (.waitcnt (iwOf w1))
  | 92 => some (.endW (cwOf w1))
  | 94 => some (.win (iwOf w1))
  | 96 => some (.modeW (cwOf w1))
  | 97 => some (.modeFields (cwOf w1) (xwOf w2))
  | 98 => some (.barArr (cwOf w1))
  | 100 => some (.barWait (cwOf w1))
  | 102 => some (.barSync (cwOf w1))
  | 104 => some (.barDrop (cwOf w1))
  | 106 => some (.pand (cwOf w1))
  | 108 => some (.por (cwOf w1))
  | 110 => some (.pxor (cwOf w1))
  | 112 => some (.pnot (cwOf w1))
  | 114 => some (.pmov (cwOf w1))
  | 116 => some (.ptos (cwOf w1))
  | 118 => some (.pfroms (cwOf w1))
  | _ => none

/-- The assigned cells of class 1 (R67). -/
noncomputable def decode1 (w1 w2 : W32) : Option Instr :=
  match (opOf w1).toNat with
  | 0 => some (.vadd (cwOf w1))
  | 1 => some (.vaddLong (cwOf w1) (modOf w2))
  | 2 => some (.vaddi (iwOf w1))
  | 3 => some (.vaddiLong (cwOf w1) (xwOf w2))
  | 4 => some (.vsub (cwOf w1))
  | 5 => some (.vsubLong (cwOf w1) (modOf w2))
  | 6 => some (.vmul (cwOf w1))
  | 7 => some (.vmulLong (cwOf w1) (modOf w2))
  | 8 => some (.vmulhi (cwOf w1))
  | 9 => some (.vmulhiLong (cwOf w1) (modOf w2))
  | 11 => some (.vmad (cwOf w1) (modOf w2))
  | 12 => some (.vand (cwOf w1))
  | 13 => some (.vandLong (cwOf w1) (modOf w2))
  | 14 => some (.vor (cwOf w1))
  | 15 => some (.vorLong (cwOf w1) (modOf w2))
  | 16 => some (.vxor (cwOf w1))
  | 17 => some (.vxorLong (cwOf w1) (modOf w2))
  | 18 => some (.vnot (cwOf w1))
  | 19 => some (.vnotLong (cwOf w1) (modOf w2))
  | 20 => some (.vshl (cwOf w1))
  | 21 => some (.vshlLong (cwOf w1) (modOf w2))
  | 22 => some (.vshr (cwOf w1))
  | 23 => some (.vshrLong (cwOf w1) (modOf w2))
  | 24 => some (.vsra (cwOf w1))
  | 25 => some (.vsraLong (cwOf w1) (modOf w2))
  | 26 => some (.vmin (cwOf w1))
  | 27 => some (.vminLong (cwOf w1) (modOf w2))
  | 28 => some (.vmax (cwOf w1))
  | 29 => some (.vmaxLong (cwOf w1) (modOf w2))
  | 30 => some (.vabs (cwOf w1))
  | 31 => some (.vabsLong (cwOf w1) (modOf w2))
  | 32 => some (.vneg (cwOf w1))
  | 33 => some (.vnegLong (cwOf w1) (modOf w2))
  | 34 => some (.vclz (cwOf w1))
  | 35 => some (.vclzLong (cwOf w1) (modOf w2))
  | 36 => some (.vpopc (cwOf w1))
  | 37 => some (.vpopcLong (cwOf w1) (modOf w2))
  | 38 => some (.vbfe (cwOf w1))
  | 39 => some (.vbfeLong (cwOf w1) (modOf w2))
  | 40 => some (.vbfi (cwOf w1))
  | 41 => some (.vbfiLong (cwOf w1) (modOf w2))
  | 42 => some (.vsel (cwOf w1))
  | 43 => some (.vselLong (cwOf w1) (modOf w2))
  | 44 => some (.vmov (cwOf w1))
  | 45 => some (.vmovLong (cwOf w1) (modOf w2))
  | 46 => some (.vmovi (iwOf w1))
  | 47 => some (.vmoviLong (cwOf w1) (xwOf w2))
  | 48 => some (.vbcast (cwOf w1))
  | 49 => some (.vbcastLong (cwOf w1) (modOf w2))
  | 50 => some (.vlane (cwOf w1))
  | 51 => some (.vlaneLong (cwOf w1) (modOf w2))
  | 53 => some (.vdot4 (cwOf w1) (modOf w2))
  | 54 => some (.vcmp (cwOf w1))
  | 55 => some (.vcmpLong (cwOf w1) (modOf w2))
  | 56 => some (.vfadd (cwOf w1))
  | 57 => some (.vfaddLong (cwOf w1) (modOf w2))
  | 58 => some (.vfsub (cwOf w1))
  | 59 => some (.vfsubLong (cwOf w1) (modOf w2))
  | 60 => some (.vfmul (cwOf w1))
  | 61 => some (.vfmulLong (cwOf w1) (modOf w2))
  | 63 => some (.vfma (cwOf w1) (modOf w2))
  | 64 => some (.vfmin (cwOf w1))
  | 65 => some (.vfminLong (cwOf w1) (modOf w2))
  | 66 => some (.vfmax (cwOf w1))
  | 67 => some (.vfmaxLong (cwOf w1) (modOf w2))
  | 68 => some (.vfabs (cwOf w1))
  | 69 => some (.vfabsLong (cwOf w1) (modOf w2))
  | 70 => some (.vfneg (cwOf w1))
  | 71 => some (.vfnegLong (cwOf w1) (modOf w2))
  | 72 => some (.vfcmp (cwOf w1))
  | 73 => some (.vfcmpLong (cwOf w1) (modOf w2))
  | 74 => some (.vfclass (cwOf w1))
  | 75 => some (.vfclassLong (cwOf w1) (modOf w2))
  | 77 => some (.vcvt (cwOf w1) (modOf w2))
  | 78 => some (.vfrnd (cwOf w1))
  | 79 => some (.vfrndLong (cwOf w1) (modOf w2))
  | 81 => some (.vfdot2 (cwOf w1) (modOf w2))
  | 82 => some (.vshfl (cwOf w1))
  | 83 => some (.vshflLong (cwOf w1) (modOf w2))
  | 84 => some (.vshflx (cwOf w1))
  | 85 => some (.vshflxLong (cwOf w1) (modOf w2))
  | 86 => some (.vshflup (cwOf w1))
  | 87 => some (.vshflupLong (cwOf w1) (modOf w2))
  | 88 => some (.vshfldn (cwOf w1))
  | 89 => some (.vshfldnLong (cwOf w1) (modOf w2))
  | 90 => some (.vvote (cwOf w1))
  | 91 => some (.vvoteLong (cwOf w1) (modOf w2))
  | 92 => some (.vredadd (cwOf w1))
  | 93 => some (.vredaddLong (cwOf w1) (modOf w2))
  | 94 => some (.vredmin (cwOf w1))
  | 95 => some (.vredminLong (cwOf w1) (modOf w2))
  | 96 => some (.vredmax (cwOf w1))
  | 97 => some (.vredmaxLong (cwOf w1) (modOf w2))
  | 98 => some (.vscan (cwOf w1))
  | 99 => some (.vscanLong (cwOf w1) (modOf w2))
  | 100 => some (.vmatch (cwOf w1))
  | 101 => some (.vmatchLong (cwOf w1) (modOf w2))
  | 103 => some (.vtopk (cwOf w1) (modOf w2))
  | _ => none

/-- The assigned cells of class 2 (R67). -/
noncomputable def decode2 (w1 w2 : W32) : Option Instr :=
  match (opOf w1).toNat with
  | 0 => some (.vex2 (cwOf w1))
  | 1 => some (.vex2Long (cwOf w1) (modOf w2))
  | 2 => some (.vlg2 (cwOf w1))
  | 3 => some (.vlg2Long (cwOf w1) (modOf w2))
  | 4 => some (.vrcp (cwOf w1))
  | 5 => some (.vrcpLong (cwOf w1) (modOf w2))
  | 6 => some (.vrsq (cwOf w1))
  | 7 => some (.vrsqLong (cwOf w1) (modOf w2))
  | 8 => some (.vsqrt (cwOf w1))
  | 9 => some (.vsqrtLong (cwOf w1) (modOf w2))
  | 10 => some (.vsin (cwOf w1))
  | 11 => some (.vsinLong (cwOf w1) (modOf w2))
  | 12 => some (.vcos (cwOf w1))
  | 13 => some (.vcosLong (cwOf w1) (modOf w2))
  | 14 => some (.vtanh (cwOf w1))
  | 15 => some (.vtanhLong (cwOf w1) (modOf w2))
  | _ => none

/-- The assigned cells of class 3 (R67). -/
noncomputable def decode3 (w1 w2 : W32) : Option Instr :=
  match (opOf w1).toNat with
  | 0 => some (.ld (cwOf w1))
  | 1 => some (.ldLong (cwOf w1) (memOf w2))
  | 2 => some (.st (cwOf w1))
  | 3 => some (.stLong (cwOf w1) (memOf w2))
  | 4 => some (.lds (cwOf w1))
  | 5 => some (.ldsLong (cwOf w1) (memOf w2))
  | 6 => some (.sts (cwOf w1))
  | 7 => some (.stsLong (cwOf w1) (memOf w2))
  | 8 => some (.ldt (cwOf w1))
  | 9 => some (.ldtLong (cwOf w1) (memOf w2))
  | 10 => some (.rdmV (cwOf w1))
  | 11 => some (.rdmVLong (cwOf w1) (memOf w2))
  | 12 => some (.rdmS (cwOf w1))
  | 13 => some (.rdmSLong (cwOf w1) (memOf w2))
  | 14 => some (.tkrel (cwOf w1))
  | 16 => some (.tkq (cwOf w1))
  | 19 => some (.atom (cwOf w1) (memOf w2))
  | 21 => some (.red (cwOf w1) (memOf w2))
  | 23 => some (.waitc (cwOf w1) (memOf w2))
  | 24 => some (.fence (cwOf w1))
  | 25 => some (.fenceLong (cwOf w1) (memOf w2))
  | 26 => some (.fenceI (cwOf w1))
  | 28 => some (.pref (cwOf w1))
  | 29 => some (.prefLong (cwOf w1) (memOf w2))
  | 30 => some (.cwb (cwOf w1))
  | 31 => some (.cwbLong (cwOf w1) (memOf w2))
  | 33 => some (.tidef (cwOf w1) (memOf w2))
  | 35 => some (.tsweep (cwOf w1) (memOf w2))
  | 37 => some (.twalk (cwOf w1) (memOf w2))
  | _ => none

/-- The assigned cells of class 4 (R67). -/
noncomputable def decode4 (w1 w2 : W32) : Option Instr :=
  match (opOf w1).toNat with
  | 0 => some (.gang (cwOf w1))
  | 1 => some (.gangLong (cwOf w1) (modOf w2))
  | 2 => some (.mm (cwOf w1))
  | 3 => some (.mmLong (cwOf w1) (modOf w2))
  | 4 => some (.mmg (cwOf w1))
  | 5 => some (.mmgLong (cwOf w1) (modOf w2))
  | 6 => some (.mmb (cwOf w1))
  | 7 => some (.mmbLong (cwOf w1) (modOf w2))
  | 8 => some (.mtile (cwOf w1))
  | 9 => some (.mtileLong (cwOf w1) (modOf w2))
  | 10 => some (.mscl (cwOf w1))
  | 11 => some (.msclLong (cwOf w1) (modOf w2))
  | 12 => some (.aclr (cwOf w1))
  | 13 => some (.aclrLong (cwOf w1) (modOf w2))
  | 14 => some (.amov (cwOf w1))
  | 15 => some (.amovLong (cwOf w1) (modOf w2))
  | 16 => some (.afill (cwOf w1))
  | 17 => some (.afillLong (cwOf w1) (modOf w2))
  | 18 => some (.ald (cwOf w1))
  | 19 => some (.aldLong (cwOf w1) (modOf w2))
  | 20 => some (.ast (cwOf w1))
  | 21 => some (.astLong (cwOf w1) (modOf w2))
  | _ => none

/-- The assigned cells of class 5 (R67). -/
noncomputable def decode5 (w1 w2 : W32) : Option Instr :=
  match (opOf w1).toNat with
  | 0 => some (.cpy (cwOf w1))
  | 1 => some (.cpyLong (cwOf w1) (modOf w2))
  | 2 => some (.cpym (cwOf w1))
  | 3 => some (.cpymLong (cwOf w1) (modOf w2))
  | 4 => some (.cpyw (cwOf w1))
  | 5 => some (.cpywLong (cwOf w1) (modOf w2))
  | 6 => some (.mbsend (cwOf w1))
  | 7 => some (.mbsendLong (cwOf w1) (modOf w2))
  | 8 => some (.mbrecv (cwOf w1))
  | 9 => some (.mbrecvLong (cwOf w1) (modOf w2))
  | 10 => some (.mbpoll (cwOf w1))
  | 11 => some (.mbpollLong (cwOf w1) (modOf w2))
  | 12 => some (.mbver (cwOf w1))
  | 13 => some (.mbverSet (cwOf w1) (modOf w2))
  | _ => none

/-- The assigned cells of class 6 (R67). -/
noncomputable def decode6 (w1 w2 : W32) : Option Instr :=
  match (opOf w1).toNat with
  | 0 => some (.trap (iwOf w1))
  | 2 => some (.bkpt (iwOf w1))
  | 4 => some (.trec (cwOf w1))
  | 5 => some (.trecLong (cwOf w1) (modOf w2))
  | 6 => some (.xget (cwOf w1))
  | 7 => some (.xgetLong (cwOf w1) (modOf w2))
  | 8 => some (.xset (cwOf w1))
  | 9 => some (.xsetLong (cwOf w1) (modOf w2))
  | 10 =>
    if (cwOf w1).d = 1 then some (.eresumeSkip (cwOf w1))
    else if (cwOf w1).d = 2 then some (.eresumeJmp (cwOf w1))
    else some (.eresumeRetry (cwOf w1))
  | 11 => some (.eresumeRel (cwOf w1) (xwOf w2))
  | 12 => some (.getsr (cwOf w1))
  | 14 => some (.setsr (cwOf w1))
  | 16 => some (.time (cwOf w1))
  | 18 => some (.sample (cwOf w1))
  | 19 => some (.sampleMark (cwOf w1) (modOf w2))
  | 20 => some (.hostsig (iwOf w1))
  | 21 => some (.hostsigLong (cwOf w1) (xwOf w2))
  | _ => none

/-- The assigned cell of a class that the words stand for, if any; class 7 has none. -/
noncomputable def decodeAssigned (cls : BitVec 3) (w1 w2 : W32) : Option Instr :=
  match cls.toNat with
  | 0 => decode0 w1 w2
  | 1 => decode1 w1 w2
  | 2 => decode2 w1 w2
  | 3 => decode3 w1 w2
  | 4 => decode4 w1 w2
  | 5 => decode5 w1 w2
  | 6 => decode6 w1 w2
  | _ => none

/-- The instruction that one or two words stand for in a class: an assigned cell, or an unassigned one, which is an
instruction that traps (R68). The second word of a one-word instruction is not read. -/
noncomputable def decodeWords (cls : BitVec 3) (w1 w2 : W32) : Instr :=
  let w2 := if isTwo w1 then w2 else 0
  (decodeAssigned cls w1 w2).getD (.unimplementedOpcode cls w1 w2)

/-- The four bytes of a word, little-endian, taken off a byte list (R2). -/
def takeWord : List Byte → Option (W32 × List Byte)
  | b0 :: b1 :: b2 :: b3 :: r => some (w32 (ofBytes [b0, b1, b2, b3]), r)
  | _ => none

/-- The decoder: the instruction at the head of a byte list in a class, and the bytes after it. -/
noncomputable def decode (cls : BitVec 3) (bs : List Byte) : Except Reject (Instr × List Byte) :=
  if cls = 7 then .error .classSeven
  else match takeWord bs with
    | none => .error .shortWord
    | some (w1, r1) =>
      if isTwo w1 then
        match takeWord r1 with
        | none => .error .shortWord
        | some (w2, r2) => .ok (decodeWords cls w1 w2, r2)
      else .ok (decodeWords cls w1 0, r1)

/-- A first word of the common format (R62). -/
def encC (op : BitVec 7) (w : CW) : W32 := op ++ w.d ++ w.a ++ w.b ++ w.g

/-- A first word of the immediate format (R62). -/
def encI (op : BitVec 7) (w : IW) : W32 := op ++ w.d ++ w.a ++ w.imm

/-- A modifier word (R63). -/
def encMod (m : ModW) : W32 := m.c ++ m.ty ++ m.scope ++ m.order ++ m.rnd ++ m.ty2 ++ m.card

/-- A memory word (R63). -/
def encMem (m : MemW) : W32 := m.c ++ m.scope ++ m.order ++ m.size ++ m.nx ++ m.card ++ m.disp

/-- An immediate word (R63). -/
def encX (x : XW) : W32 := x.c ++ x.imm

/-- The encoder: class and words of an instruction word (R67); a machine event has none. -/
def encode (i : Instr) : Option Enc :=
  match i with
  | .nop w => some ⟨0, (encC 0 w), none⟩
  | .sadd w => some ⟨0, (encC 2 w), none⟩
  | .saddLong w m => some ⟨0, (encC 3 w), (some (encMod m))⟩
  | .saddi w => some ⟨0, (encI 4 w), none⟩
  | .saddiLong w x => some ⟨0, (encC 5 w), (some (encX x))⟩
  | .ssub w => some ⟨0, (encC 6 w), none⟩
  | .ssubLong w m => some ⟨0, (encC 7 w), (some (encMod m))⟩
  | .smul w => some ⟨0, (encC 8 w), none⟩
  | .smulLong w m => some ⟨0, (encC 9 w), (some (encMod m))⟩
  | .smulhi w => some ⟨0, (encC 10 w), none⟩
  | .smulhiLong w m => some ⟨0, (encC 11 w), (some (encMod m))⟩
  | .sdiv w => some ⟨0, (encC 12 w), none⟩
  | .sdivLong w m => some ⟨0, (encC 13 w), (some (encMod m))⟩
  | .srem w => some ⟨0, (encC 14 w), none⟩
  | .sremLong w m => some ⟨0, (encC 15 w), (some (encMod m))⟩
  | .sand w => some ⟨0, (encC 16 w), none⟩
  | .sandLong w m => some ⟨0, (encC 17 w), (some (encMod m))⟩
  | .sandi w => some ⟨0, (encI 18 w), none⟩
  | .sandiLong w x => some ⟨0, (encC 19 w), (some (encX x))⟩
  | .sor w => some ⟨0, (encC 20 w), none⟩
  | .sorLong w m => some ⟨0, (encC 21 w), (some (encMod m))⟩
  | .sori w => some ⟨0, (encI 22 w), none⟩
  | .soriLong w x => some ⟨0, (encC 23 w), (some (encX x))⟩
  | .sxor w => some ⟨0, (encC 24 w), none⟩
  | .sxorLong w m => some ⟨0, (encC 25 w), (some (encMod m))⟩
  | .sxori w => some ⟨0, (encI 26 w), none⟩
  | .sxoriLong w x => some ⟨0, (encC 27 w), (some (encX x))⟩
  | .sshl w => some ⟨0, (encC 28 w), none⟩
  | .sshlLong w m => some ⟨0, (encC 29 w), (some (encMod m))⟩
  | .sshli w => some ⟨0, (encI 30 w), none⟩
  | .sshliLong w x => some ⟨0, (encC 31 w), (some (encX x))⟩
  | .sshr w => some ⟨0, (encC 32 w), none⟩
  | .sshrLong w m => some ⟨0, (encC 33 w), (some (encMod m))⟩
  | .sshri w => some ⟨0, (encI 34 w), none⟩
  | .sshriLong w x => some ⟨0, (encC 35 w), (some (encX x))⟩
  | .ssra w => some ⟨0, (encC 36 w), none⟩
  | .ssraLong w m => some ⟨0, (encC 37 w), (some (encMod m))⟩
  | .ssrai w => some ⟨0, (encI 38 w), none⟩
  | .ssraiLong w x => some ⟨0, (encC 39 w), (some (encX x))⟩
  | .smin w => some ⟨0, (encC 40 w), none⟩
  | .sminLong w m => some ⟨0, (encC 41 w), (some (encMod m))⟩
  | .smax w => some ⟨0, (encC 42 w), none⟩
  | .smaxLong w m => some ⟨0, (encC 43 w), (some (encMod m))⟩
  | .scmp w => some ⟨0, (encC 44 w), none⟩
  | .scmpLong w m => some ⟨0, (encC 45 w), (some (encMod m))⟩
  | .scmpi w => some ⟨0, (encI 46 w), none⟩
  | .scmpiLong w x => some ⟨0, (encC 47 w), (some (encX x))⟩
  | .ssel w => some ⟨0, (encC 48 w), none⟩
  | .sselLong w m => some ⟨0, (encC 49 w), (some (encMod m))⟩
  | .smov w => some ⟨0, (encC 50 w), none⟩
  | .smovi w => some ⟨0, (encI 52 w), none⟩
  | .smoviLong w x => some ⟨0, (encC 53 w), (some (encX x))⟩
  | .sluiShort w => some ⟨0, (encI 54 w), none⟩
  | .slui w x => some ⟨0, (encC 55 w), (some (encX x))⟩
  | .sclz w => some ⟨0, (encC 56 w), none⟩
  | .sclzLong w m => some ⟨0, (encC 57 w), (some (encMod m))⟩
  | .spopc w => some ⟨0, (encC 58 w), none⟩
  | .spopcLong w m => some ⟨0, (encC 59 w), (some (encMod m))⟩
  | .sbfe w => some ⟨0, (encC 60 w), none⟩
  | .sbfeLong w m => some ⟨0, (encC 61 w), (some (encMod m))⟩
  | .sbfi w => some ⟨0, (encC 62 w), none⟩
  | .sbfiLong w m => some ⟨0, (encC 63 w), (some (encMod m))⟩
  | .sarg w => some ⟨0, (encI 64 w), none⟩
  | .sargSx w x => some ⟨0, (encC 65 w), (some (encX x))⟩
  | .br w => some ⟨0, (encI 66 w), none⟩
  | .brLong w x => some ⟨0, (encC 67 w), (some (encX x))⟩
  | .jmp w => some ⟨0, (encI 68 w), none⟩
  | .jmpLong w x => some ⟨0, (encC 69 w), (some (encX x))⟩
  | .call w => some ⟨0, (encI 70 w), none⟩
  | .callLong w x => some ⟨0, (encC 71 w), (some (encX x))⟩
  | .ret w => some ⟨0, (encC 72 w), none⟩
  | .ifW w => some ⟨0, (encC 74 w), none⟩
  | .elseW w => some ⟨0, (encC 76 w), none⟩
  | .endif w => some ⟨0, (encC 78 w), none⟩
  | .loopW w => some ⟨0, (encC 80 w), none⟩
  | .loopImm w x => some ⟨0, (encC 81 w), (some (encX x))⟩
  | .breakW w => some ⟨0, (encC 82 w), none⟩
  | .contW w => some ⟨0, (encC 84 w), none⟩
  | .endloop w => some ⟨0, (encC 86 w), none⟩
  | .yield w => some ⟨0, (encC 88 w), none⟩
  | .waitcnt w => some ⟨0, (encI 90 w), none⟩
  | .endW w => some ⟨0, (encC 92 w), none⟩
  | .win w => some ⟨0, (encI 94 w), none⟩
  | .modeW w => some ⟨0, (encC 96 w), none⟩
  | .modeFields w x => some ⟨0, (encC 97 w), (some (encX x))⟩
  | .barArr w => some ⟨0, (encC 98 w), none⟩
  | .barWait w => some ⟨0, (encC 100 w), none⟩
  | .barSync w => some ⟨0, (encC 102 w), none⟩
  | .barDrop w => some ⟨0, (encC 104 w), none⟩
  | .pand w => some ⟨0, (encC 106 w), none⟩
  | .por w => some ⟨0, (encC 108 w), none⟩
  | .pxor w => some ⟨0, (encC 110 w), none⟩
  | .pnot w => some ⟨0, (encC 112 w), none⟩
  | .pmov w => some ⟨0, (encC 114 w), none⟩
  | .ptos w => some ⟨0, (encC 116 w), none⟩
  | .pfroms w => some ⟨0, (encC 118 w), none⟩
  | .vadd w => some ⟨1, (encC 0 w), none⟩
  | .vaddLong w m => some ⟨1, (encC 1 w), (some (encMod m))⟩
  | .vaddi w => some ⟨1, (encI 2 w), none⟩
  | .vaddiLong w x => some ⟨1, (encC 3 w), (some (encX x))⟩
  | .vsub w => some ⟨1, (encC 4 w), none⟩
  | .vsubLong w m => some ⟨1, (encC 5 w), (some (encMod m))⟩
  | .vmul w => some ⟨1, (encC 6 w), none⟩
  | .vmulLong w m => some ⟨1, (encC 7 w), (some (encMod m))⟩
  | .vmulhi w => some ⟨1, (encC 8 w), none⟩
  | .vmulhiLong w m => some ⟨1, (encC 9 w), (some (encMod m))⟩
  | .vmad w m => some ⟨1, (encC 11 w), (some (encMod m))⟩
  | .vand w => some ⟨1, (encC 12 w), none⟩
  | .vandLong w m => some ⟨1, (encC 13 w), (some (encMod m))⟩
  | .vor w => some ⟨1, (encC 14 w), none⟩
  | .vorLong w m => some ⟨1, (encC 15 w), (some (encMod m))⟩
  | .vxor w => some ⟨1, (encC 16 w), none⟩
  | .vxorLong w m => some ⟨1, (encC 17 w), (some (encMod m))⟩
  | .vnot w => some ⟨1, (encC 18 w), none⟩
  | .vnotLong w m => some ⟨1, (encC 19 w), (some (encMod m))⟩
  | .vshl w => some ⟨1, (encC 20 w), none⟩
  | .vshlLong w m => some ⟨1, (encC 21 w), (some (encMod m))⟩
  | .vshr w => some ⟨1, (encC 22 w), none⟩
  | .vshrLong w m => some ⟨1, (encC 23 w), (some (encMod m))⟩
  | .vsra w => some ⟨1, (encC 24 w), none⟩
  | .vsraLong w m => some ⟨1, (encC 25 w), (some (encMod m))⟩
  | .vmin w => some ⟨1, (encC 26 w), none⟩
  | .vminLong w m => some ⟨1, (encC 27 w), (some (encMod m))⟩
  | .vmax w => some ⟨1, (encC 28 w), none⟩
  | .vmaxLong w m => some ⟨1, (encC 29 w), (some (encMod m))⟩
  | .vabs w => some ⟨1, (encC 30 w), none⟩
  | .vabsLong w m => some ⟨1, (encC 31 w), (some (encMod m))⟩
  | .vneg w => some ⟨1, (encC 32 w), none⟩
  | .vnegLong w m => some ⟨1, (encC 33 w), (some (encMod m))⟩
  | .vclz w => some ⟨1, (encC 34 w), none⟩
  | .vclzLong w m => some ⟨1, (encC 35 w), (some (encMod m))⟩
  | .vpopc w => some ⟨1, (encC 36 w), none⟩
  | .vpopcLong w m => some ⟨1, (encC 37 w), (some (encMod m))⟩
  | .vbfe w => some ⟨1, (encC 38 w), none⟩
  | .vbfeLong w m => some ⟨1, (encC 39 w), (some (encMod m))⟩
  | .vbfi w => some ⟨1, (encC 40 w), none⟩
  | .vbfiLong w m => some ⟨1, (encC 41 w), (some (encMod m))⟩
  | .vsel w => some ⟨1, (encC 42 w), none⟩
  | .vselLong w m => some ⟨1, (encC 43 w), (some (encMod m))⟩
  | .vmov w => some ⟨1, (encC 44 w), none⟩
  | .vmovLong w m => some ⟨1, (encC 45 w), (some (encMod m))⟩
  | .vmovi w => some ⟨1, (encI 46 w), none⟩
  | .vmoviLong w x => some ⟨1, (encC 47 w), (some (encX x))⟩
  | .vbcast w => some ⟨1, (encC 48 w), none⟩
  | .vbcastLong w m => some ⟨1, (encC 49 w), (some (encMod m))⟩
  | .vlane w => some ⟨1, (encC 50 w), none⟩
  | .vlaneLong w m => some ⟨1, (encC 51 w), (some (encMod m))⟩
  | .vdot4 w m => some ⟨1, (encC 53 w), (some (encMod m))⟩
  | .vcmp w => some ⟨1, (encC 54 w), none⟩
  | .vcmpLong w m => some ⟨1, (encC 55 w), (some (encMod m))⟩
  | .vfadd w => some ⟨1, (encC 56 w), none⟩
  | .vfaddLong w m => some ⟨1, (encC 57 w), (some (encMod m))⟩
  | .vfsub w => some ⟨1, (encC 58 w), none⟩
  | .vfsubLong w m => some ⟨1, (encC 59 w), (some (encMod m))⟩
  | .vfmul w => some ⟨1, (encC 60 w), none⟩
  | .vfmulLong w m => some ⟨1, (encC 61 w), (some (encMod m))⟩
  | .vfma w m => some ⟨1, (encC 63 w), (some (encMod m))⟩
  | .vfmin w => some ⟨1, (encC 64 w), none⟩
  | .vfminLong w m => some ⟨1, (encC 65 w), (some (encMod m))⟩
  | .vfmax w => some ⟨1, (encC 66 w), none⟩
  | .vfmaxLong w m => some ⟨1, (encC 67 w), (some (encMod m))⟩
  | .vfabs w => some ⟨1, (encC 68 w), none⟩
  | .vfabsLong w m => some ⟨1, (encC 69 w), (some (encMod m))⟩
  | .vfneg w => some ⟨1, (encC 70 w), none⟩
  | .vfnegLong w m => some ⟨1, (encC 71 w), (some (encMod m))⟩
  | .vfcmp w => some ⟨1, (encC 72 w), none⟩
  | .vfcmpLong w m => some ⟨1, (encC 73 w), (some (encMod m))⟩
  | .vfclass w => some ⟨1, (encC 74 w), none⟩
  | .vfclassLong w m => some ⟨1, (encC 75 w), (some (encMod m))⟩
  | .vcvt w m => some ⟨1, (encC 77 w), (some (encMod m))⟩
  | .vfrnd w => some ⟨1, (encC 78 w), none⟩
  | .vfrndLong w m => some ⟨1, (encC 79 w), (some (encMod m))⟩
  | .vfdot2 w m => some ⟨1, (encC 81 w), (some (encMod m))⟩
  | .vshfl w => some ⟨1, (encC 82 w), none⟩
  | .vshflLong w m => some ⟨1, (encC 83 w), (some (encMod m))⟩
  | .vshflx w => some ⟨1, (encC 84 w), none⟩
  | .vshflxLong w m => some ⟨1, (encC 85 w), (some (encMod m))⟩
  | .vshflup w => some ⟨1, (encC 86 w), none⟩
  | .vshflupLong w m => some ⟨1, (encC 87 w), (some (encMod m))⟩
  | .vshfldn w => some ⟨1, (encC 88 w), none⟩
  | .vshfldnLong w m => some ⟨1, (encC 89 w), (some (encMod m))⟩
  | .vvote w => some ⟨1, (encC 90 w), none⟩
  | .vvoteLong w m => some ⟨1, (encC 91 w), (some (encMod m))⟩
  | .vredadd w => some ⟨1, (encC 92 w), none⟩
  | .vredaddLong w m => some ⟨1, (encC 93 w), (some (encMod m))⟩
  | .vredmin w => some ⟨1, (encC 94 w), none⟩
  | .vredminLong w m => some ⟨1, (encC 95 w), (some (encMod m))⟩
  | .vredmax w => some ⟨1, (encC 96 w), none⟩
  | .vredmaxLong w m => some ⟨1, (encC 97 w), (some (encMod m))⟩
  | .vscan w => some ⟨1, (encC 98 w), none⟩
  | .vscanLong w m => some ⟨1, (encC 99 w), (some (encMod m))⟩
  | .vmatch w => some ⟨1, (encC 100 w), none⟩
  | .vmatchLong w m => some ⟨1, (encC 101 w), (some (encMod m))⟩
  | .vtopk w m => some ⟨1, (encC 103 w), (some (encMod m))⟩
  | .vex2 w => some ⟨2, (encC 0 w), none⟩
  | .vex2Long w m => some ⟨2, (encC 1 w), (some (encMod m))⟩
  | .vlg2 w => some ⟨2, (encC 2 w), none⟩
  | .vlg2Long w m => some ⟨2, (encC 3 w), (some (encMod m))⟩
  | .vrcp w => some ⟨2, (encC 4 w), none⟩
  | .vrcpLong w m => some ⟨2, (encC 5 w), (some (encMod m))⟩
  | .vrsq w => some ⟨2, (encC 6 w), none⟩
  | .vrsqLong w m => some ⟨2, (encC 7 w), (some (encMod m))⟩
  | .vsqrt w => some ⟨2, (encC 8 w), none⟩
  | .vsqrtLong w m => some ⟨2, (encC 9 w), (some (encMod m))⟩
  | .vsin w => some ⟨2, (encC 10 w), none⟩
  | .vsinLong w m => some ⟨2, (encC 11 w), (some (encMod m))⟩
  | .vcos w => some ⟨2, (encC 12 w), none⟩
  | .vcosLong w m => some ⟨2, (encC 13 w), (some (encMod m))⟩
  | .vtanh w => some ⟨2, (encC 14 w), none⟩
  | .vtanhLong w m => some ⟨2, (encC 15 w), (some (encMod m))⟩
  | .ld w => some ⟨3, (encC 0 w), none⟩
  | .ldLong w m => some ⟨3, (encC 1 w), (some (encMem m))⟩
  | .st w => some ⟨3, (encC 2 w), none⟩
  | .stLong w m => some ⟨3, (encC 3 w), (some (encMem m))⟩
  | .lds w => some ⟨3, (encC 4 w), none⟩
  | .ldsLong w m => some ⟨3, (encC 5 w), (some (encMem m))⟩
  | .sts w => some ⟨3, (encC 6 w), none⟩
  | .stsLong w m => some ⟨3, (encC 7 w), (some (encMem m))⟩
  | .ldt w => some ⟨3, (encC 8 w), none⟩
  | .ldtLong w m => some ⟨3, (encC 9 w), (some (encMem m))⟩
  | .rdmV w => some ⟨3, (encC 10 w), none⟩
  | .rdmVLong w m => some ⟨3, (encC 11 w), (some (encMem m))⟩
  | .rdmS w => some ⟨3, (encC 12 w), none⟩
  | .rdmSLong w m => some ⟨3, (encC 13 w), (some (encMem m))⟩
  | .tkrel w => some ⟨3, (encC 14 w), none⟩
  | .tkq w => some ⟨3, (encC 16 w), none⟩
  | .atom w m => some ⟨3, (encC 19 w), (some (encMem m))⟩
  | .red w m => some ⟨3, (encC 21 w), (some (encMem m))⟩
  | .waitc w m => some ⟨3, (encC 23 w), (some (encMem m))⟩
  | .fence w => some ⟨3, (encC 24 w), none⟩
  | .fenceLong w m => some ⟨3, (encC 25 w), (some (encMem m))⟩
  | .fenceI w => some ⟨3, (encC 26 w), none⟩
  | .pref w => some ⟨3, (encC 28 w), none⟩
  | .prefLong w m => some ⟨3, (encC 29 w), (some (encMem m))⟩
  | .cwb w => some ⟨3, (encC 30 w), none⟩
  | .cwbLong w m => some ⟨3, (encC 31 w), (some (encMem m))⟩
  | .tidef w m => some ⟨3, (encC 33 w), (some (encMem m))⟩
  | .tsweep w m => some ⟨3, (encC 35 w), (some (encMem m))⟩
  | .twalk w m => some ⟨3, (encC 37 w), (some (encMem m))⟩
  | .gang w => some ⟨4, (encC 0 w), none⟩
  | .gangLong w m => some ⟨4, (encC 1 w), (some (encMod m))⟩
  | .mm w => some ⟨4, (encC 2 w), none⟩
  | .mmLong w m => some ⟨4, (encC 3 w), (some (encMod m))⟩
  | .mmg w => some ⟨4, (encC 4 w), none⟩
  | .mmgLong w m => some ⟨4, (encC 5 w), (some (encMod m))⟩
  | .mmb w => some ⟨4, (encC 6 w), none⟩
  | .mmbLong w m => some ⟨4, (encC 7 w), (some (encMod m))⟩
  | .mtile w => some ⟨4, (encC 8 w), none⟩
  | .mtileLong w m => some ⟨4, (encC 9 w), (some (encMod m))⟩
  | .mscl w => some ⟨4, (encC 10 w), none⟩
  | .msclLong w m => some ⟨4, (encC 11 w), (some (encMod m))⟩
  | .aclr w => some ⟨4, (encC 12 w), none⟩
  | .aclrLong w m => some ⟨4, (encC 13 w), (some (encMod m))⟩
  | .amov w => some ⟨4, (encC 14 w), none⟩
  | .amovLong w m => some ⟨4, (encC 15 w), (some (encMod m))⟩
  | .afill w => some ⟨4, (encC 16 w), none⟩
  | .afillLong w m => some ⟨4, (encC 17 w), (some (encMod m))⟩
  | .ald w => some ⟨4, (encC 18 w), none⟩
  | .aldLong w m => some ⟨4, (encC 19 w), (some (encMod m))⟩
  | .ast w => some ⟨4, (encC 20 w), none⟩
  | .astLong w m => some ⟨4, (encC 21 w), (some (encMod m))⟩
  | .cpy w => some ⟨5, (encC 0 w), none⟩
  | .cpyLong w m => some ⟨5, (encC 1 w), (some (encMod m))⟩
  | .cpym w => some ⟨5, (encC 2 w), none⟩
  | .cpymLong w m => some ⟨5, (encC 3 w), (some (encMod m))⟩
  | .cpyw w => some ⟨5, (encC 4 w), none⟩
  | .cpywLong w m => some ⟨5, (encC 5 w), (some (encMod m))⟩
  | .mbsend w => some ⟨5, (encC 6 w), none⟩
  | .mbsendLong w m => some ⟨5, (encC 7 w), (some (encMod m))⟩
  | .mbrecv w => some ⟨5, (encC 8 w), none⟩
  | .mbrecvLong w m => some ⟨5, (encC 9 w), (some (encMod m))⟩
  | .mbpoll w => some ⟨5, (encC 10 w), none⟩
  | .mbpollLong w m => some ⟨5, (encC 11 w), (some (encMod m))⟩
  | .mbver w => some ⟨5, (encC 12 w), none⟩
  | .mbverSet w m => some ⟨5, (encC 13 w), (some (encMod m))⟩
  | .trap w => some ⟨6, (encI 0 w), none⟩
  | .bkpt w => some ⟨6, (encI 2 w), none⟩
  | .trec w => some ⟨6, (encC 4 w), none⟩
  | .trecLong w m => some ⟨6, (encC 5 w), (some (encMod m))⟩
  | .xget w => some ⟨6, (encC 6 w), none⟩
  | .xgetLong w m => some ⟨6, (encC 7 w), (some (encMod m))⟩
  | .xset w => some ⟨6, (encC 8 w), none⟩
  | .xsetLong w m => some ⟨6, (encC 9 w), (some (encMod m))⟩
  | .eresumeRetry w => some ⟨6, (encC 10 w), none⟩
  | .eresumeSkip w => some ⟨6, (encC 10 w), none⟩
  | .eresumeJmp w => some ⟨6, (encC 10 w), none⟩
  | .eresumeRel w x => some ⟨6, (encC 11 w), (some (encX x))⟩
  | .getsr w => some ⟨6, (encC 12 w), none⟩
  | .setsr w => some ⟨6, (encC 14 w), none⟩
  | .time w => some ⟨6, (encC 16 w), none⟩
  | .sample w => some ⟨6, (encC 18 w), none⟩
  | .sampleMark w m => some ⟨6, (encC 19 w), (some (encMod m))⟩
  | .hostsig w => some ⟨6, (encI 20 w), none⟩
  | .hostsigLong w x => some ⟨6, (encC 21 w), (some (encX x))⟩
  | .unimplementedOpcode cls w1 w2 => some ⟨cls, w1, if isTwo w1 then some w2 else none⟩
  | .clauseIssue => none
  | .handlerStart _ => none
  | .loadResult _ => none
  | .atomHomeUpdate _ => none
  | .homeWritePerform _ => none
  | .waitcRepoll _ => none
  | .externalWaitTimeout _ => none
  | .writeCompletionTime _ => none
  | .l1LeaseExpiry _ _ => none
  | .l1Eviction _ _ => none
  | .translationWalkComplete _ => none
  | .specialFunctionResult _ => none
  | .ldtLineRead _ _ _ => none
  | .ldtTicketWritten _ _ => none
  | .ticketFetchComplete _ _ => none
  | .ticketStateReturn _ => none
  | .ticketLeaseEnd _ _ => none
  | .matrixGrant _ => none
  | .matrixWordComplete _ => none
  | .mtilePitchComplete _ => none
  | .gangLatchTimeout _ _ => none
  | .accFirstUseTrap _ _ => none
  | .copyStart _ _ _ => none
  | .copyComplete _ _ => none
  | .mbsendEnqueue _ => none
  | .observationDelivery _ => none
  | .hostsigEnqueue _ => none
  | .waveRetire _ => none
  | .interruptSend _ => none
  | .shareRecompute _ => none
  | .rebindMove _ => none
  | .blockSwapOut _ => none
  | .blockSwapIn _ _ => none
  | .ropeGroupPlacement _ _ _ => none
  | .activeSetSwap _ _ _ => none
  | .timeSliceExpiry _ => none
  | .blockPreempt _ => none
  | .deadlockWatchdogFire _ => none
  | .pageRequestRetry _ _ _ => none
  | .pageRequestFail _ _ _ => none
  | .pageRequestTimeout _ _ => none
  | .stop _ _ => none
  | .debugStopEffect _ => none
  | .debugDumpWritten _ => none
  | .resume _ _ => none
  | .step _ _ => none
  | .ddataRead _ _ => none
  | .ddataWrite _ _ _ => none
  | .debugGrant _ _ _ => none
  | .debugRevoke _ _ _ => none
  | .contextEnable _ _ _ => none
  | .contextTeardown _ _ _ => none
  | .flr _ _ _ => none
  | .contextResetComplete _ => none
  | .preempt _ _ => none
  | .queueEnable _ _ _ _ => none
  | .queueDisable _ _ _ _ => none
  | .qdoor _ _ _ _ => none
  | .packetRead _ _ => none
  | .packetReread _ _ => none
  | .tlbInvalidationComplete _ => none
  | .launchReady _ => none
  | .operatingPointSettled _ => none
  | .thermalSample _ _ => none
  | .wayGatingInterval _ _ _ => none
  | .cairnSamplePick _ _ => none
  | .cairnRecordWrite _ _ _ => none
  | .patrolScrub _ _ => none
  | .deviceReset => none
  | .dreset _ => none
  | .functionLevelReset _ => none
  | .hostMemoryAccess _ _ _ _ => none
  | .peerAccess _ _ _ _ => none
  | .domainJoin _ _ => none
  | .domainLeave _ _ => none
  | .peerLoss _ => none
  | .ptpMessage _ => none
  | .hostadj _ _ => none
  | .timeSourceSelect _ _ => none
  | .fwgo _ _ => none
  | .fwcommit _ _ => none
  | .ago _ _ => none
  | .cgo _ _ => none
  | .attestationComplete => none
  | .rload _ _ => none
  | .announcementReceive _ _ => none
  | .bindingSetAnnounce _ => none
  | .start _ _ _ => none
  | .reset _ _ _ => none
  | .windowWrite _ _ _ _ => none
  | .apop _ => none
  | .osend _ => none
  | .tkval _ _ => none
  | .portRedeemComplete _ => none
  | .episodeWatchdogFire _ => none
  | .timeoutObservationEnqueue _ => none
  | .hartInstruction _ => none
  | .registerWrite _ _ _ _ => none
  | .powerOn => none
  | .bootRomVerification _ => none
  | .fabricPortTrained _ => none
  | .fabricPortFails _ => none

/-- The bytes of an encoding as they lie in memory: each word little-endian, the first at the lowest address. -/
def Enc.bytes (e : Enc) : List Byte :=
  bytesOf 4 e.w1.toNat ++ (match e.w2 with | none => [] | some w => bytesOf 4 w.toNat)

/-- The lowest class in which the words are an assigned cell whose reserved fields hold what its card asks at width 32,
else class 0. The opcode table gives a row no class, and several classes share one word: this is the class that
decodeTableWord and withFetchWord take (DESIGN CHOICE, log entry 5). -/
noncomputable def tableClass (w1 w2 : W32) : BitVec 3 :=
  let ok := fun (c : Nat) => match decodeAssigned (BitVec.ofNat 3 c) w1 w2 with
    | none => false
    | some i => wordOk 32 i
  BitVec.ofNat 3 (([0, 1, 2, 3, 4, 5, 6].find? ok).getD 0)

/-- The instruction read from an instruction whose bits are w, bit 0 the least significant of the first word. Bits
above nbits are 0. (DESIGN CHOICE, log entry 5) -/
noncomputable def decodeTableWord (nbits w : Nat) : Option Instr :=
  let x := w % 2 ^ nbits
  let w1 := w32 x
  let w2 := w32 (x >>> 32)
  match decode (tableClass w1 w2) (bytesOf 8 x) with
  | .ok (i, _) => some i
  | .error _ => none

end Sys2Proof
end

