-- ==== Sys2Proof/Config.lean ====
section
/-! DEFINITION. What an implementation fixes and what the spec leaves open. An opaque constant is a free value: nothing
constrains it (log entries 10 to 13, 20). -/

namespace Sys2Proof.Config

/-- MODEL of word 0 of the device block (R403). -/
def model : Nat := 0x0940
/-- Ropes, cores, slices, contexts and episodes of the device (R8, R11, R12, R349). -/
def ropes : Nat := 288
def cores : Nat := 1152
def slices : Nat := 8
def contexts : Nat := 128
def episodes : Nat := 512

/-- The candidate FP32 bits of a special function's result that need only lie within 2 ulp: word and operand bits
(R135, DESIGN CHOICE, log entry 10). -/
opaque sfuFree : Nat → W32 → W32
/-- The cost of an issued word, a matrix pass or a copy transfer (R385, DESIGN CHOICE, log entry 11). -/
opaque energyCost : Nat → Nat
/-- Emax of R385, in the same units, and at least the largest single cost (DESIGN CHOICE, log entry 11). -/
opaque emaxFree : Nat
def emax : Nat := max emaxFree (max (energyCost 0) (max (energyCost 1) (energyCost 2)))
/-- The device's private identity key, and the secret number of its n-th signature (R410, DESIGN CHOICE, log entry 12). -/
opaque identityPriv : Nat
opaque signSecret : Nat → Nat
/-- The certificate chain in DER (R410, DESIGN CHOICE, log entry 12). -/
opaque certChain : List Byte
/-- The firmware that a device is made with; of a firmware as staged: its three images (device firmware, Harness microcode,
Base Camp firmware), an image's signature and security version; Baermaux's key and its fused hash (R410, DESIGN CHOICE, log
entry 12). -/
opaque factory : List Byte
opaque fwPart : List Byte → Nat → List Byte
opaque fwSig : List Byte → List Byte
opaque fwSvn : List Byte → Nat
opaque fwKey : List Byte
opaque fwKeyHash : List Byte
/-- The binding set that a build of an image's sections gives (R347, DESIGN CHOICE, log entry 12). -/
opaque bindingSet : List Byte → List Byte
/-- The order in which TWALK visits segments, as a rotation, from a counter of the step (R149, DESIGN CHOICE, log entry 13). -/
opaque walkOrder : Nat → Nat
/-- A free 64-bit value, fresh for each count of the step (DESIGN CHOICE, log entry 13). -/
opaque freeValue : Nat → W64
/-- VLEN of the harts is 2 to the power of 7 plus this, which the manual does not give (R363, PRESUMED, log entry 20). -/
opaque vlenExp : Nat
/-- Whether an agnostic element is overwritten with ones, by a counter of the step (R363, PRESUMED, log entry 20). -/
opaque agnosticOnes : Nat → Bool
/-- The firmware of the harts' M-mode: the halfword of its text at an address, and the mtvec that it has set (R363, PRESUMED,
log entry 20). -/
opaque firmwareText : Nat → BitVec 16
opaque firmwareVec : W64

end Sys2Proof.Config
end

