-- ==== Sys2Proof/Machine/Crypto.lean ====
section
/-! DEFINITION. SHA-384 and ECDSA on brainpoolP384r1, which every signature and hash of the device uses (R347, R410 to R412).
The manual names them; their constants and steps are those of FIPS 180-4, RFC 5639 and FIPS 186-4 (PRESUMED, log entry 54). -/

namespace Sys2Proof.Machine

/-! SHA-384. -/

/-- The 80 round constants. -/
def shaK : List W64 :=
  [0x428A2F98D728AE22, 0x7137449123EF65CD, 0xB5C0FBCFEC4D3B2F, 0xE9B5DBA58189DBBC,
   0x3956C25BF348B538, 0x59F111F1B605D019, 0x923F82A4AF194F9B, 0xAB1C5ED5DA6D8118,
   0xD807AA98A3030242, 0x12835B0145706FBE, 0x243185BE4EE4B28C, 0x550C7DC3D5FFB4E2,
   0x72BE5D74F27B896F, 0x80DEB1FE3B1696B1, 0x9BDC06A725C71235, 0xC19BF174CF692694,
   0xE49B69C19EF14AD2, 0xEFBE4786384F25E3, 0x0FC19DC68B8CD5B5, 0x240CA1CC77AC9C65] ++
  [0x2DE92C6F592B0275, 0x4A7484AA6EA6E483, 0x5CB0A9DCBD41FBD4, 0x76F988DA831153B5,
   0x983E5152EE66DFAB, 0xA831C66D2DB43210, 0xB00327C898FB213F, 0xBF597FC7BEEF0EE4,
   0xC6E00BF33DA88FC2, 0xD5A79147930AA725, 0x06CA6351E003826F, 0x142929670A0E6E70,
   0x27B70A8546D22FFC, 0x2E1B21385C26C926, 0x4D2C6DFC5AC42AED, 0x53380D139D95B3DF,
   0x650A73548BAF63DE, 0x766A0ABB3C77B2A8, 0x81C2C92E47EDAEE6, 0x92722C851482353B] ++
  [0xA2BFE8A14CF10364, 0xA81A664BBC423001, 0xC24B8B70D0F89791, 0xC76C51A30654BE30,
   0xD192E819D6EF5218, 0xD69906245565A910, 0xF40E35855771202A, 0x106AA07032BBD1B8,
   0x19A4C116B8D2D0C8, 0x1E376C085141AB53, 0x2748774CDF8EEB99, 0x34B0BCB5E19B48A8,
   0x391C0CB3C5C95A63, 0x4ED8AA4AE3418ACB, 0x5B9CCA4F7763E373, 0x682E6FF3D6B2B8A3,
   0x748F82EE5DEFB2FC, 0x78A5636F43172F60, 0x84C87814A1F0AB72, 0x8CC702081A6439EC] ++
  [0x90BEFFFA23631E28, 0xA4506CEBDE82BDE9, 0xBEF9A3F7B2C67915, 0xC67178F2E372532B,
   0xCA273ECEEA26619C, 0xD186B8C721C0C207, 0xEADA7DD6CDE0EB1E, 0xF57D4F7FEE6ED178,
   0x06F067AA72176FBA, 0x0A637DC5A2C898A6, 0x113F9804BEF90DAE, 0x1B710B35131C471B,
   0x28DB77F523047D84, 0x32CAAB7B40C72493, 0x3C9EBE0A15C9BEBC, 0x431D67C49C100D4C,
   0x4CC5D4BECB3E42B6, 0x597F299CFC657E2A, 0x5FCB6FAB3AD6FAEC, 0x6C44198C4A475817]
/-- The initial hash of SHA-384. -/
def shaH : List W64 :=
  [0xCBBB9D5DC1059ED8, 0x629A292A367CD507, 0x9159015A3070DD17, 0x152FECD8F70E5939,
   0x67332667FFC00B31, 0x8EB44A8768581511, 0xDB0C2E0D64F98FA7, 0x47B5481DBEFA4FA4]

/-- The word of n bytes, the first the most significant. -/
def ofBytesBE (l : List Byte) : Nat := ofBytes l.reverse
/-- n bytes of a number, the most significant first. -/
def bytesBE (n x : Nat) : List Byte := (bytesOf n x).reverse

/-- The message with its padding: a one bit, zeros, its length in bits in 16 bytes, in blocks of 128 bytes. -/
def shaPad (m : List Byte) : List Byte :=
  m ++ [0x80] ++ List.replicate ((239 - m.length % 128) % 128) 0 ++ bytesBE 16 (8 * m.length)

def shaS0 (x : W64) : W64 := x.rotateRight 28 ^^^ x.rotateRight 34 ^^^ x.rotateRight 39
def shaS1 (x : W64) : W64 := x.rotateRight 14 ^^^ x.rotateRight 18 ^^^ x.rotateRight 41
def shaT0 (x : W64) : W64 := x.rotateRight 1 ^^^ x.rotateRight 8 ^^^ (x >>> 7)
def shaT1 (x : W64) : W64 := x.rotateRight 19 ^^^ x.rotateRight 61 ^^^ (x >>> 6)

/-- n further words of a schedule, each from the 16 before it. -/
def shaSched : Nat → List W64 → List W64
  | 0, _ => []
  | n + 1, w =>
    let x := shaT1 (w.getD 14 0) + w.getD 9 0 + shaT0 (w.getD 1 0) + w.getD 0 0
    x :: shaSched n (w.drop 1 ++ [x])

/-- One round on the eight working words. -/
def shaRound (v : List W64) (kw : W64 × W64) : List W64 :=
  match v with
  | [a, b, c, d, e, f, g, h] =>
    let t1 := h + shaS1 e + ((e &&& f) ^^^ (~~~e &&& g)) + kw.1 + kw.2
    let t2 := shaS0 a + ((a &&& b) ^^^ (a &&& c) ^^^ (b &&& c))
    [t1 + t2, a, b, c, d + t1, e, f, g]
  | _ => v

/-- A block of 128 bytes taken into the hash. -/
def shaBlock (h : List W64) (b : List Byte) : List W64 :=
  let w := (upto 16).map (fun i => w64 (ofBytesBE ((b.drop (8 * i)).take 8)))
  let v := (shaK.zip (w ++ shaSched 64 w)).foldl shaRound h
  (h.zip v).map (fun e => e.1 + e.2)

/-- The blocks of a padded message, at most n of them. -/
def shaBlocks : Nat → List W64 → List Byte → List W64
  | 0, h, _ => h
  | n + 1, h, m => shaBlocks n (shaBlock h (m.take 128)) (m.drop 128)

/-- SHA-384: 48 bytes. (PRESUMED, log entry 54) -/
def sha384 (m : List Byte) : List Byte :=
  let p := shaPad m
  ((shaBlocks (p.length / 128) shaH p).take 6).flatMap (fun w => bytesBE 8 w.toNat)

/-! The curve. -/

def curveP : Nat := 0x8CB91E82A3386D280F5D6F7E50E641DF152F7109ED5456B412B1DA197FB71123ACD3A729901D1A71874700133107EC53
def curveA : Nat := 0x7BC382C63D8C150C3C72080ACE05AFA0C2BEA28E4FB22787139165EFBA91F90F8AA5814A503AD4EB04A8C7DD22CE2826
def curveB : Nat := 0x04A8C7DD22CE28268B39B55416F0447C2FB77DE107DCD2A62E880EA53EEB62D57CB4390295DBC9943AB78696FA504C11
def curveX : Nat := 0x1D1C64F068CF45FFA2A63A81B7C13F6B8847A3E77EF14FE3DB7FCAFE0CBD10E8E826E03436D646AAEF87B2E247D4AF1E
def curveY : Nat := 0x8ABE1D7520F9C2A45CB1EB8E95CFD55262B70B29FEEC5864E19C054FF99129280E4646217791811142820341263C5315
/-- The order of the base point. -/
def curveN : Nat := 0x8CB91E82A3386D280F5D6F7E50E641DF152F7109ED5456B31F166E6CAC0425A7CF3AB6AF6B7FC3103B883202E9046565

/-- b ^ e mod m, taking the k low bits of e. -/
def powMod : Nat → Nat → Nat → Nat → Nat
  | 0, _, _, m => 1 % m
  | k + 1, b, e, m =>
    let r := powMod k (b * b % m) (e / 2) m
    if e % 2 == 1 then b * r % m else r
/-- The inverse modulo a prime of at most 384 bits. -/
def invMod (x m : Nat) : Nat := powMod 384 (x % m) (m - 2) m
/-- a - b modulo m. -/
def subMod (a b m : Nat) : Nat := (a + (m - b % m)) % m

/-- The sum of two points; none is the point at infinity. -/
def curveAdd (a b : Option (Nat × Nat)) : Option (Nat × Nat) :=
  match a, b with
  | none, q => q
  | q, none => q
  | some (x, y), some (u, v) =>
    if x == u && (y + v) % curveP == 0 then none
    else
      let l := if x == u then (3 * x * x + curveA) * invMod (2 * y) curveP % curveP
        else subMod v y curveP * invMod (subMod u x curveP) curveP % curveP
      let z := subMod (l * l % curveP) (x + u) curveP
      some (z, subMod (l * subMod x z curveP % curveP) y curveP)

/-- k times a point, taking the n low bits of k. -/
def curveMul : Nat → Nat → Option (Nat × Nat) → Option (Nat × Nat)
  | 0, _, _ => none
  | n + 1, k, q =>
    let r := curveMul n (k / 2) (curveAdd q q)
    if k % 2 == 1 then curveAdd q r else r

def curveG : Option (Nat × Nat) := some (curveX, curveY)
/-- A point lies on the curve. -/
def onCurve (x y : Nat) : Bool :=
  decide (x < curveP) && decide (y < curveP) && y * y % curveP == (x * x * x + curveA * x + curveB) % curveP

/-! ECDSA with SHA-384: a key is x then y, a signature r then s, each number most significant byte first. (PRESUMED, log entry 54) -/

/-- The two numbers of 96 bytes. -/
def pairOf (l : List Byte) : Nat × Nat := (ofBytesBE (l.take 48), ofBytesBE ((l.drop 48).take 48))
/-- The hash of a message as a number. -/
def msgHash (m : List Byte) : Nat := ofBytesBE (sha384 m)

/-- A signature verifies over a message with a public key. (PRESUMED, log entry 54) -/
def ecdsaOk (sig msg key : List Byte) : Bool :=
  let rs := pairOf sig
  let q := pairOf key
  let w := invMod rs.2 curveN
  sig.length == 96 && key.length == 96 && onCurve q.1 q.2 && 0 < rs.1 && rs.1 < curveN && 0 < rs.2 && rs.2 < curveN
    && (curveAdd (curveMul 384 (msgHash msg * w % curveN) curveG) (curveMul 384 (rs.1 * w % curveN) (some q))).elim false
      (fun p => p.1 % curveN == rs.1)

/-- The public key of a private one. (PRESUMED, log entry 54) -/
def publicKey (d : Nat) : List Byte :=
  (curveMul 384 (d % curveN) curveG).elim (List.replicate 96 0) (fun p => bytesBE 48 p.1 ++ bytesBE 48 p.2)

/-- The signature over a message with a private key and a secret number k. (PRESUMED, log entry 54) -/
def ecdsaSign (d k : Nat) (msg : List Byte) : List Byte :=
  let r := (curveMul 384 (k % curveN) curveG).elim 0 (fun p => p.1 % curveN)
  bytesBE 48 r ++ bytesBE 48 (invMod k curveN * (msgHash msg + r * d) % curveN)

/-- The device's own public identity key (R410). -/
def identityKey : List Byte := publicKey Config.identityPriv

end Sys2Proof.Machine
end

