-- ==== Sys2Proof/Machine/State.lean ====
section
/-! DEFINITION. The state of the machine: every piece of state that spec/ gives the Felku 940, as plain data, and its
value after power-on and device reset. INVENTORY.md lists each field with the rule that names it. -/

namespace Sys2Proof.Machine

/-- Why the machine stops with a fault. -/
inductive Fault where
  /-- Raised by a host, peer or hart access whose physical address lies in no storage row of R297. Safe: the spec gives
  such an address no storage and the access no outcome. -/
  | noStorage
deriving DecidableEq, Repr

/-- Why the machine refuses a step. -/
inductive Refusal where
  /-- An instruction that has no meaning in this model. Safe: nothing can be proved of it. -/
  | notModelled (mnemonic : String)
deriving DecidableEq, Repr

/-! Waves (R44 to R57, R105). -/

/-- The classes that a field or a destination range names (R66, R231). -/
inductive SymCls where
  | v | s | q | p | buf | bar
deriving DecidableEq, Repr

/-- The six wait counters (R56). -/
inductive CntK where
  | load | store | ticket | matrix | copy | special
deriving DecidableEq, Repr

/-- The counters' values, 0 to 63 each (R57). -/
structure Counters where
  load : Nat := 0
  store : Nat := 0
  ticket : Nat := 0
  matrix : Nat := 0
  copy : Nat := 0
  special : Nat := 0
deriving DecidableEq, Repr

/-- What belongs to a PC slot and is copied at divergence: MODE, windows, condition codes (R47, R52, R95). -/
structure Ctl where
  mode : W32 := 0
  winV : BitVec 5 := 0
  winS : BitVec 5 := 0
  winQ : BitVec 1 := 0
  z : Bool := false
  n : Bool := false
  c : Bool := false
  v : Bool := false
deriving DecidableEq, Repr

/-- The place of a word: its clause's header address, its index (R59), and the header that follows its clause. -/
structure Loc where
  hdr : Nat := 0
  idx : Nat := 0
  nxt : Nat := 0
deriving DecidableEq, Repr

/-- The divergence mode of an IF frame (R105). -/
inductive DivMode where
  | plain | split | spilled | spilledElse
deriving DecidableEq, Repr

/-- An IF frame (R105); `addr` is the address of its IF, `saved` the then-arm's state that the swap of ELSE put aside
(R108). -/
structure IfFrame where
  addr : Nat
  entry : Lanes
  els : Lanes
  inElse : Bool
  div : DivMode
  elseAt : Option Loc
  endAt : Loc
  saved : Ctl
deriving DecidableEq, Repr

/-- A LOOP frame (R105); `left` is none when unbounded. -/
structure LoopFrame where
  entry : Lanes
  brk : Lanes
  cnt : Lanes
  left : Option Nat
  head : Nat
  endAt : Loc
deriving DecidableEq, Repr

/-- A frame of the mask stack. -/
inductive Frame where
  | ifF (f : IfFrame)
  | loopF (f : LoopFrame)
deriving DecidableEq, Repr

/-- A spilled path on the divergence stack (R105); `bad`: an uncorrectable error of the spill area has struck it (R249). -/
structure Spill where
  slotB : Bool
  pc : Nat
  mask : Lanes
  ctl : Ctl
  bad : Bool := false
deriving DecidableEq, Repr

/-- A fetched word of a clause, or why it could not be fetched (R104, R229, R399). -/
inductive FetchW where
  | ok (w : W32)
  | bad (cause sub : Nat)
deriving DecidableEq, Repr

/-- A leaf of a page table: the physical base of its page, log2 of its size, its permissions (R315). -/
structure Leaf where
  pa : Nat
  lg : Nat
  x : Bool
  w : Bool
  rd : Bool
deriving DecidableEq, Repr

/-- The outcome of a walk that a slot's word waits on: the 64 KiB page and its leaf, none when not valid (R316). -/
structure WalkRes where
  page : Nat
  leaf : Option Leaf
deriving DecidableEq, Repr

/-- What a WAITC waits for (R183, R185): `mode` 0 armed at a monitor, 1 polling, 2 polling a host address, 3 armed at a
peer's home. -/
structure MonReq where
  pa : Nat
  va : Nat
  size : Nat
  cond : Nat
  cmp : W64
  d : Nat
  scope : Nat
  order : Nat
  mode : Nat
  since : Nat
deriving DecidableEq, Repr

/-- Where a slot stands, and under which mask, mode and windows: its next header, or its clause and the index of its next word. -/
structure Stand where
  pc : Nat := 0
  inClause : Bool := false
  hdr : Nat := 0
  hdrW : W32 := 0
  idx : Nat := 0
  words : List FetchW := []
  mask : Lanes := 0
  ctl : Ctl := {}
deriving DecidableEq, Repr

/-- The place of a trap as its record names it (R231). -/
structure Site where
  atHdr : Bool := false
  clause : Nat
  word : Nat := 0
  hdr : W32 := 0
  w1 : W32 := 0
  w2 : W32 := 0
  addr : Nat
  live : Lanes := 0
  dest : Option (SymCls × Nat × Nat) := none
  srcs : List Nat := [0, 0, 0]
deriving DecidableEq, Repr

/-- A class-4 word as it issued: its slot, its place as a record names it, and where its slot stood (R229, R240). -/
structure Issued where
  slotB : Bool
  site : Site
  stand : Stand
deriving DecidableEq, Repr

/-- Why a PC slot stands parked; `rec` is the record of the trap that a failed page request takes (R318). -/
inductive Park where
  | run
  | barrier (rope : Bool) (num phase : Nat)
  | monitor (m : MonReq)
  | mbrecv (op : Nat)
  | cpyw (k : Nat)
  | trapped
  | pageReq (tag : Nat) (rec : List W64)
  | joining
  | ended
deriving DecidableEq, Repr

/-- A PC slot (R105): the next header, or the clause being run and the index of its next word. `stuck`: its
word has waited at issue since the wave last completed anything (R258, R396). `back`: the slot issues again a class-4 word that has
trapped at the engine, and then stands there once more, the newest first (R240). `ldt`: the slot's last word is an LDT that found no
free ticket-table entry, and goes on once that operation has its ticket (R171, R258). -/
structure Slot where
  used : Bool := false
  pc : Nat := 0
  inClause : Bool := false
  hdr : Nat := 0
  hdrW : W32 := 0
  idx : Nat := 0
  words : List FetchW := []
  mask : Lanes := 0
  ctl : Ctl := {}
  frames : List Frame := []
  park : Park := .run
  phase : Nat := 0
  acq : List Nat := []
  walked : List WalkRes := []
  stuck : Bool := false
  back : List Stand := []
  ldt : Option Nat := none
deriving DecidableEq, Repr

/-- The word a result or a ticket came from, as records name it (R231, R306). -/
structure Origin where
  image : Nat := 0
  off : Nat := 0
  blk : Nat := 0
  wave : Nat := 0
deriving DecidableEq, Repr

/-- An empty slot: its symbol and the operation that fills it (R54). -/
structure EmptyMark where
  cls : SymCls
  num : Nat
  op : Nat
deriving DecidableEq, Repr

/-- A poisoned symbol: its origin, address and subcode (R159, R399). -/
structure PoisonMark where
  cls : SymCls
  num : Nat
  sub : Nat
  orig : Origin
  addr : Nat
deriving DecidableEq, Repr

/-- A class-4 word at the engine (R191 to R196). `kind`: 0 MM, 1 MMG, 2 MMB, 3 MTILE, 4 MSCL, 5 ACLR, 6 AMOV,
7 AMOV.tov, 8 AMOV.fromv, 9 AFILL, 10 ALD, 11 AST. `word` is the word as it issued. -/
structure MatReq where
  kind : Nat
  shape : Nat := 0
  ty : Nat := 0
  ty2 : Nat := 0
  ns : Bool := false
  d : Nat := 0
  a : Nat := 0
  b : Nat := 0
  offA : Nat := 0
  offB : Nat := 0
  val : W64 := 0
  idxs : List Nat := []
  vecs : List W32 := []
  rm : Nat := 0
  pitch : Nat := 0
  members : List Nat := []
  latched : Bool := false
  granted : Bool := false
  word : Option Issued := none
deriving DecidableEq, Repr

/-- A trap taken before the wave's next word (R202, R235, R240); `again` is the class-4 word at whose place it is taken and that a
retry issues again. -/
structure Deferred where
  cause : Nat
  sub : Nat
  orig : Option Origin
  fmask : Lanes := 0
  src0 : W64 := 0
  elem : Nat := 0
  addr : Nat := 0
  again : Option Issued := none
deriving DecidableEq, Repr

/-- A taken trap: its 32-word record (R231), the slot, whether it was taken at a header (R224), the wave that runs as
its handler; `stay`: a skip goes on where the slot stands (R202, R240); `again` is where the slot of a class-4 word that a retry
issues again stood. -/
structure Trap where
  words : List W64
  slotB : Bool
  atHdr : Bool
  handler : Option Nat
  stay : Bool := false
  again : Option Stand := none
deriving DecidableEq, Repr

/-- A wave's scale set (R190). -/
structure Scale where
  sa : List W32 := List.replicate 64 0x3F800000
  sb : W32 := 0x3F800000
  ma : List Byte := List.replicate 256 127
  mb : List Byte := List.replicate 256 127
deriving DecidableEq, Repr

/-- The standing of a wave. -/
inductive WaveSt where
  | live | draining | retired | killed
deriving DecidableEq, Repr

/-- A wave (R14, R44 to R57, R105, R190, R200, R231). A handler names its parked wave in `parent` (R233); `stepping`: 0, or for a wave
that STEP has released 1, with 2 and 4 for the slots A and B that have still to pass the header where they stood (R327); `level` is
the farthest level that the accesses of the word now issuing have reached (R393); `owed` are values of a WAITC's wake not yet appended
to the log (R394): address, word, value; `lastT` is the latest completion time of the writes that a release of the wave waits for,
`ownT` of its own stores and atomics alone (R162, R226); `reads` counts the wave's reads of a line by a word, while they are logged or
replayed; `rlines` are the lines of a replayed wave as its log gave them, with the block's own later writes applied (R396); `acqAt` is
the step at which the wave last took an acquire or release side at device scope (R282), `tmin` the least value its reads of the
counter may give (R18). -/
structure Wave where
  blk : Nat
  idx : Nat
  width : Nat
  ctx : Nat
  st : WaveSt := .live
  a : Slot := {}
  b : Slot := {}
  shared : List Frame := []
  spills : List Spill := []
  exited : Lanes := 0
  preds : List Lanes := List.replicate 32 0
  sc : Tbl W64 := []
  ve : Tbl (List W32) := []
  empty : List EmptyMark := []
  pois : List PoisonMark := []
  cnt : Counters := {}
  seed : List W32 := []
  gang : W64 := 0
  gangBad : Bool := false
  gangK : Nat := 0
  scale : Scale := {}
  copyK : Nat := 0
  lastT : Nat := 0
  ownT : Nat := 0
  acqAt : Nat := 0
  tmin : Nat := 0
  trap : Option Trap := none
  defer : List Deferred := []
  parent : Option Nat := none
  readyAt : Nat := 0
  halted : Bool := false
  stepping : Nat := 0
  tag : Option (BitVec 16) := none
  level : Nat := 0
  wseq : Nat := 0
  logged : List Nat := []
  reads : Tbl Nat := []
  rlines : Tbl (List Byte) := []
  owed : List (Nat × Origin × W64) := []
deriving DecidableEq, Repr

/-- A buffer declaration: size and alignment (R33). -/
structure BufDecl where
  size : Nat
  align : Nat
deriving DecidableEq, Repr

/-- A barrier declaration: scope, count, and whether the count is the default of R33. -/
structure BarDecl where
  rope : Bool
  count : Nat
  all : Bool
deriving DecidableEq, Repr

/-- A live interval of a symbol, half-open in image byte offsets (R41). -/
structure Life where
  cls : SymCls
  num : Nat
  lo : Nat
  hi : Nat
deriving DecidableEq, Repr

/-- The kind-6 and kind-7 data of a variant, as the loader parsed them (R345, DESIGN CHOICE, log entry 8): `off0` is the offset in the
image's text of the variant's first word, `guards` are the offsets of its kernels' guards, `quadsLive` is QN. -/
structure Meta where
  off0 : Nat := 0
  guards : List Nat := []
  width : Nat := 0
  waves : Nat := 1
  perRope : Nat := 1
  fuse : Bool := false
  argSize : Nat := 0
  bufs : List BufDecl := []
  bars : List BarDecl := []
  nV : Nat := 0
  nS : Nat := 0
  nQ : Nat := 0
  quadsLive : Nat := 0
  lives : List Life := []
deriving DecidableEq, Repr

/-- The sizes of R14: 1 to 16 waves a block, 1 to 4 blocks a rope group. -/
def Meta.sized (m : Meta) : Bool := 1 ≤ m.waves && m.waves ≤ 16 && 1 ≤ m.perRope && m.perRope ≤ 4

/-- What a variant descriptor gives (R345): text address, image number, text length, and the data its word 2 names. -/
structure Variant where
  text : Nat := 0
  image : Nat := 0
  len : Nat := 0
  info : Meta := {}
deriving DecidableEq, Repr

/-! Blocks, rope groups, launches (R241 to R256). -/

/-- A barrier's state (R118, R121, R262); `flags` are the waves that have arrived with their phases. -/
structure Barrier where
  rope : Bool
  num : Nat
  all : Bool
  exp : Nat
  arr : Nat := 0
  phase : Nat := 0
  flags : List (Nat × Nat) := []
  left : List Nat := []
  ever : List Nat := []
  broken : Bool := false
deriving DecidableEq, Repr

/-- One wave's slice of a copy (R204, R205): `kind` 0 CPY, 1 CPYM, 2 CPYW; `undo` is what a CPYW's s_d held before it: its number,
value and poison (R239). -/
structure CopySlice where
  wid : Nat
  wave : Nat
  op : Option Nat
  kind : Nat
  card : Nat
  scope : Nat
  src : Nat
  dst : Nat
  len : Nat
  sbuf : Nat
  dbuf : Nat
  rbase : Nat
  rmask : W32
  recVa : Nat
  orig : Origin
  undo : Option (Nat × W64 × List PoisonMark) := none
deriving DecidableEq, Repr

/-- A collective copy (R207 to R211): `st` 0 gathering, 1 running, 2 done, 3 cancelled and not yet recorded, 4 its payload
written and to be performed at `tDone`; `running` once the engine transfers its payload, `cur` and `off` the slice and the byte
of it that it has reached (R312); `recv` lists receivers as number, block, entry; `cause`, `slice`, `bytes` are the outcome
that its record will report. -/
structure Copy where
  slices : List CopySlice := []
  st : Nat := 0
  entry : Option Nat := none
  recv : List (Nat × Nat × Nat) := []
  refused : W32 := 0
  tDone : Nat := 0
  running : Bool := false
  cur : Nat := 0
  off : Nat := 0
  cause : Nat := 0
  slice : Nat := 0
  bytes : Nat := 0
deriving DecidableEq, Repr

/-- Where a block is. -/
inductive Residence where
  | resident | swapped | preempted | retired
deriving DecidableEq, Repr

/-- An empty quad of a block: its symbol, the operation and its wave (R196). -/
structure QuadMark where
  num : Nat
  op : Nat
  wid : Nat
deriving DecidableEq, Repr

/-- A poisoned byte of a block's part of the scratchpad: its place there, its subcode, the word that fetched it and the address it was
read from (R159, R232, R399). -/
structure BufMark where
  off : Nat
  sub : Nat
  orig : Origin
  addr : Nat
deriving DecidableEq, Repr

/-- The rope group for which a pre-empted block gives way (R356, R358): group `num` of launch `id`, or the group `id`, of which a block
was away; `start` the time from which its slice counts, once it has been placed or that block has returned. -/
structure SliceWait where
  launch : Bool
  id : Nat
  num : Nat := 0
  start : Option Nat := none
deriving DecidableEq, Repr

/-- A block (R243 to R256). A handler's block has `handler` true. `scr` are the bytes of its buffers by their place in its part of the
scratchpad (R304), `area` its spill area in the context's pool (R249), `bufPois` the poisoned bytes of buffers, `qpois` the quads with
an uncorrectable error (R399). `rbytes` are the bytes that a replayed block has stored (R396); `sliceFor`: its slice has ended, and it
returns after the slice of a group to be placed (true, launch, number) or of one that was away (false, group, the time) (R358). -/
structure Block where
  ctx : Nat
  lid : Nat
  grp : Nat
  idx : Nat
  core : Nat
  budget : Nat
  width : Nat
  res : Residence := .resident
  mark : Bool := false
  newBudget : Nat := 0
  preMark : Bool := false
  waves : List Nat := []
  scr : Tbl Byte := []
  area : Nat × Nat := (0, 0)
  bufPois : List BufMark := []
  qpois : List Nat := []
  bars : List Barrier := []
  copies : Tbl Copy := []
  qempty : List QuadMark := []
  qbind : Tbl Nat := []
  qspill : Tbl (Tbl W32) := []
  handler : Bool := false
  var : Variant := {}
  sliceFor : Option SliceWait := none
  placedAt : Nat := 0
  rbytes : Tbl Byte := []
deriving DecidableEq, Repr

/-- A rope group (R241, R245). -/
structure Group where
  lid : Nat
  num : Nat
  ctx : Nat
  rope : Nat
  blocks : List Nat
  bars : List Barrier := []
  quads : List Nat := []
  since : Nat := 0
  retired : Bool := false
deriving DecidableEq, Repr

/-- The standing of an accepted packet (R339). -/
inductive LaunchSt where
  | waiting | offered | placed | done
deriving DecidableEq, Repr

/-- An accepted packet (R338, R339): `kind` 1 launch, 2 marker, 3 TLB invalidation; each later enabling of its queue adds
16 to `queue`, since that enabling counts its own packets (R335). `doneT` is the latest completion time of writes that may be the
launch's, and `flushed`, once its last group has retired, the name before which those still on their way were sent (R343). -/
structure Launch where
  ctx : Nat
  queue : Nat
  k : Nat
  kind : Nat
  ord : Bool
  fuse : Bool
  width : Nat
  mode : W32
  prio : Nat
  opp : Nat
  sig : Bool
  nblocks : Nat
  kdesc : Nat
  args : List Byte
  argsBad : Bool
  start : Nat
  seed : W32
  comp : Nat
  deps : List (Nat × Nat)
  tlbVa : Nat
  tlbLen : Nat
  st : LaunchSt := .waiting
  readyAt : Nat := 0
  var : Option Variant := none
  placed : Nat := 0
  finished : Nat := 0
  killed : Bool := false
  replay : Option Nat := none
  doneT : Nat := 0
  flushed : Option Nat := none
deriving DecidableEq, Repr

/-! Outstanding operations (R54, R56). -/

/-- One lane of a memory word. -/
structure LaneAcc where
  lane : Nat
  va : Nat
  pa : Nat
deriving DecidableEq, Repr

/-- One lane of an atomic: its operand and, for .cas, the compare value (R179). -/
structure AtomLane where
  lane : Nat
  va : Nat
  pa : Nat
  y : Nat
  y2 : Nat
deriving DecidableEq, Repr

/-- Where a redeem delivers (R172, R173). -/
inductive RdmDest where
  | vec (d : Nat)
  | buf (b off : Nat)
deriving DecidableEq, Repr

/-- A message of a step mailbox (R214): the payload is bytes [255:16]. -/
structure Msg where
  seq : W64
  ver : BitVec 16
  status : Nat
  len : Nat
  payload : List Byte
deriving DecidableEq, Repr

/-- The pending part of an operation; `old` lists the values of an atomic's lanes already updated, in their order. -/
inductive Body where
  | load (size order scope : Nat) (sx : Bool) (d : Nat) (lanes : List LaneAcc)
  | vals (vs : List (Nat × Nat × W32)) (ss : List (Nat × W64)) (bs : List (Nat × Nat × Byte)) (pm : List PoisonMark)
      (bp : List (Nat × BufMark))
  | store (left : List Nat) (tDone : Nat)
  | atom (code size order scope d : Nat) (lanes : List AtomLane) (old : List (Nat × Nat)) (pm : List PoisonMark)
  | ldt (d va pa size scope : Nat) (flt : Option Nat) (slice : Nat)
  | tkq (d : Nat) (t : W64)
  | rdm (dst : RdmDest) (t : W64) (size : Nat)
  | sfu (fn d : Nat) (lanes : List (Nat × W32)) (mode : W32) (rm : Nat)
  | mat (m : MatReq)
  | cpy (k : Nat)
  | mbsend (mbox buf off len : Nat) (ver : BitVec 16) (seq : W64)
  | mbrecv (mbox buf off d : Nat) (got : Option Msg)
  | hostsig (slotB : Bool)
  | mbpoll (mbox d : Nat)
deriving DecidableEq, Repr

/-- An outstanding operation: its wave, counter, word and time of issue. -/
structure Op where
  wid : Nat
  cnt : CntK
  orig : Origin
  t0 : Nat
  body : Body
deriving DecidableEq, Repr

/-- A write on its way to its home (R154, R266, R267): bytes by physical address, or a RED's update; the scope of a
write-through store; a write-back that leaves its line clean gives the scope at which the line was written; `cover` lists the
64-byte units that it and the other writes of its store cover whole (R399). -/
structure HomeWrite where
  wid : Nat
  ctx : Nat
  cache : Nat
  bytes : Tbl Byte
  red : Option (Nat × Nat × Nat × Nat)
  op : Option Nat
  scope : Nat := 0
  wb : Option Nat := none
  cover : List Nat := []
deriving DecidableEq, Repr

/-! Caches, translation, slices (R265, R297 to R320). -/

/-- What an L1 line holds (R299); `wscope` is 1 + the widest scope of a store that wrote the copy, 0 for none (R162). -/
inductive LineSt where
  | clean (data : List Byte) (leaseEnd : Nat) (wscope : Nat) (pois : List Nat)
  | dirty (bytes : Tbl Byte) (scope : Nat)
  | upd (code size : Nat) (elems : Tbl Nat)
deriving DecidableEq, Repr

/-- An L1 line of a context's data, with a number that names its fill (R395); of a dirty line it is the block whose stores alone
made its bytes, or a number of its own where another agent's store is among them. -/
structure Line where
  st : LineSt
  ctx : Nat
  fill : Nat
deriving DecidableEq, Repr

/-- A TLB entry (R316). -/
structure TlbEnt where
  ctx : Nat
  va : Nat
  leaf : Leaf
deriving DecidableEq, Repr

/-- A walk in progress for a slot's word or fetch, on the walkers of a base die (R316). -/
structure Walk where
  ctx : Nat
  page : Nat
  die : Nat
  wid : Nat
  slotB : Bool
deriving DecidableEq, Repr

/-- The state of a ticket entry (R168, R306). -/
inductive TkSt where
  | free | pending | ready | faulted
deriving DecidableEq, Repr

/-- Who has claimed a pending ticket (R174). -/
inductive Claim where
  | wave (op : Nat)
  | port (ep : Nat)
deriving DecidableEq, Repr

/-- A ticket-table entry (R306); `op` names the operation of its LDT. -/
structure Ticket where
  gen : BitVec 16 := 0
  st : TkSt := .free
  ctx : Nat := 0
  size : Nat := 0
  va : Nat := 0
  pa : Nat := 0
  orig : Origin := {}
  cause : Nat := 0
  leaseEnd : Nat := 0
  expired : Bool := false
  lines : Tbl (List Byte) := []
  pois : List Nat := []
  claim : Option Claim := none
  wid : Nat := 0
  op : Nat := 0
deriving DecidableEq, Repr

/-- A monitor-table entry (R308). -/
structure Mon where
  ctx : Nat
  wid : Nat
  slotB : Bool
  pa : Nat
  size : Nat
deriving DecidableEq, Repr

/-- A monitor-table entry that a wave of another member armed here: the wait is the peer's (R185, R406). -/
structure FarMon where
  pa : Nat
  size : Nat
  cond : Nat
  cmp : W64
deriving DecidableEq, Repr

/-- A base die's tables, with the monitors that peers armed there, and its way register; `nextInt` is the end of the estimator's
interval (R306, R308, R387, R388). -/
structure Slice where
  tk : Tbl Ticket := []
  mons : List Mon := []
  farMons : List FarMon := []
  ways : Nat := 16
  nextInt : Nat := 0
  nogate : Bool := false
  minways : Nat := 4
deriving DecidableEq, Repr

/-- A range-lock entry (R309). -/
structure Lock where
  slo : Nat
  dlo : Nat
  slen : Nat
  dlen : Nat
  seq : Nat
  done : Nat
  sbv : Bool
  dbv : Bool
  mcv : Bool
  blk : Nat
  sbuf : Nat
  dbuf : Nat
  ctx : Nat
  owner : Nat × Nat
deriving DecidableEq, Repr

/-- A belay-latch entry (R201): the members that have issued, with their operations. -/
structure Latch where
  gang : W64
  k : Nat
  opened : Nat
  grp : Nat
  issued : List (Nat × Nat)
deriving DecidableEq, Repr

/-- A physical quad: its owner and its 1,024 elements in row-major order, unlisted 0 (R199). -/
structure Quad where
  owner : Option Nat := none
  data : Tbl W32 := []
deriving DecidableEq, Repr

/-- A rope: engines, latch, locks, quads, operating point, thermal state with its next sample, power (R10, R381 to R386). `deficit` is
Emax - E (R385): 0 when the energy counter is full; `wfrac` the hundredths of a cycle not yet counted in `withheld` (R386). -/
structure Rope where
  fused : Bool := false
  locks : Tbl Lock := []
  latch : Tbl Latch := []
  quads : Tbl Quad := []
  tlb : List TlbEnt := []
  throttled : Bool := false
  dwellFrom : Option Nat := none
  entries : BitVec 16 := 0
  tj : BitVec 16 := 0
  nextSample : Nat := 0
  point : Nat := 2
  oldPoint : Nat := 2
  settleEnd : Option Nat := none
  allow : Nat := 9700
  withheld : BitVec 32 := 0
  wfrac : Nat := 0
  deficit : Nat := 0
deriving DecidableEq, Repr

/-- A core's debug window and stop (R321 to R327): `stops` the contexts for which a stop is requested whose cycle N has not come,
`stopCtx` the context whose stop freezes the core, `frozen` no wave of the core issues, `fresh` the context whose dump is due after a step,
`dump` the words of a dump not yet written and how many records they are, `more` the dumps of later steps that follow it. -/
structure Dbg where
  ctx : Nat := 0
  bkstop : Bool := false
  nrec : Nat := 0
  err : Nat := 0
  dumped : Bool := false
  buf : W64 := 0
  sel : W64 := 0
  stops : List Nat := []
  stopCtx : Option Nat := none
  frozen : Bool := false
  fresh : Option Nat := none
  dump : List W64 := []
  dumpRecs : Nat := 0
  more : List (List W64 × Nat) := []
deriving DecidableEq, Repr

/-- A core: scheduler sets, handler slot, TLB, debug window (R257, R260, R316, R321); the launches and the blocks that are
away for which the Harness has chosen it and which wait for room there, whether its shares are due (R354, R355);
`yields` are the waves that rank last in the next arbitration (R257). -/
structure Core where
  active : List Nat := []
  pending : List Nat := []
  handler : Option Nat := none
  yields : List Nat := []
  tlb : List TlbEnt := []
  dbg : Dbg := {}
  wantL : List Nat := []
  wantB : List Nat := []
  shareDue : Bool := false
deriving DecidableEq, Repr

/-! Contexts, queues (R335, R350, R391). -/

/-- A ring in a context's memory: `widx` is where the device writes next; `pend` lists entries written and, with their times, when
they are performed, in their order: WIDX does not cover them before (R352). -/
structure Ring where
  base : W64 := 0
  log2n : Nat := 0
  ridx : BitVec 32 := 0
  widx : BitVec 32 := 0
  pend : List (Nat × Nat) := []
deriving DecidableEq, Repr

/-- A queue (R335 to R337, R343): `gBase`, `gLog` govern while enabled; `rd` counts packets read, `cd` packets whose
completion CDONE covers, `fin` later completed ones; `reading` a mismatched word 0 is being read again, `tries`
times so far, next at `nextRd`; `deadLog` its enabling found a bad LOG2N. -/
structure Queue where
  base : W64 := 0
  log2n : Nat := 0
  en : Bool := false
  gBase : W64 := 0
  gLog : Nat := 0
  widx : BitVec 16 := 0
  rd : Nat := 0
  cd : Nat := 0
  fin : List Nat := []
  st : Nat := 0
  deadLog : Bool := false
  reading : Bool := false
  tries : Nat := 0
  nextRd : Nat := 0
deriving DecidableEq, Repr

/-- An outstanding page request (R318). -/
structure PageReq where
  tag : Nat
  page : Nat
  time : Nat
  joined : List (Nat × Bool)
deriving DecidableEq, Repr

/-- The text of an image that was loaded with pod sharing, and the bytes of the image's sections 1 to 7 (R347). -/
structure PodText where
  va : Nat
  len : Nat
  image : List Byte
deriving DecidableEq, Repr

/-- A hardware context: its record (R350), POLICY, sampling block (R391), queues, images, requests; `tearing` and `drainT` a
reset's end: STATE 0 or 1, the completion time of the writes that it flushes (R360). `lreads` keeps, of each line record at its log
unit, the word, WSEQ, and how often the wave's word had read the line before (R396). -/
structure Ctx where
  dbgfn : Nat := 0
  aud : Bool := false
  dbg : Bool := false
  replay : Bool := false
  st : Nat := 0
  en : Bool := false
  ptroot : Nat := 0
  handler : W64 := 0
  spillbase : W64 := 0
  spillmib : Nat := 0
  savebase : W64 := 0
  tlease : Nat := 262144
  dlease : Nat := 2048
  extms : Nat := 60000
  dlms : Nat := 2000
  tkent : Nat := 4096
  tkkib : Nat := 256
  monq : Nat := 1024
  weight : Nat := 1
  maxv : Nat := 256
  minv : Nat := 32
  tslice : W64 := 0
  vec : BitVec 48 := 0
  flog : Ring := {}
  sigq : Ring := {}
  prq : Ring := {}
  reclaim : BitVec 32 := 0
  rebind : BitVec 32 := 0
  swap : BitVec 8 := 0
  preempted : BitVec 8 := 0
  firstuse : BitVec 16 := 0
  flogdrop : BitVec 8 := 0
  watchdog : BitVec 8 := 0
  spillkib : BitVec 16 := 0
  spillRem : Nat := 0
  policy : BitVec 16 := 0
  speriod : Nat := 0
  sring : Ring := {}
  lring : Ring := {}
  sdrop : BitVec 32 := 0
  lovf : Bool := false
  lreads : Tbl (Origin × Nat × Nat) := []
  logen : Bool := false
  rpblock : BitVec 32 := 0
  rpen : Bool := false
  rppos : W64 := 0
  queues : Tbl Queue := []
  preqs : List PageReq := []
  metas : Tbl Meta := []
  pods : List PodText := []
  saveValid : List Nat := []
  tearing : Bool := false
  drainT : Nat := 0
  dlStart : Option Nat := none
deriving DecidableEq, Repr

/-! Base Camp (R363 to R374). -/

/-- A hart's state (R363, R365): `resv` is the address that LR reserved, `lastT` the latest completion time of its writes, `tmin` the
least value its reads of the counter may give (R18), `csr` holds the CSRs by number, `priv` 0 U, 1 S, 3 M. -/
structure Hart where
  pc : W64 := 0
  x : Tbl W64 := []
  f : Tbl W64 := []
  vreg : Tbl Nat := []
  csr : Tbl W64 := []
  priv : Nat := 1
  resv : Option Nat := none
  lastT : Nat := 0
  tmin : Nat := 0
  wfi : Bool := false
  cycle : W64 := 0
  instret : W64 := 0
deriving DecidableEq, Repr

/-- A window of an episode (R364). -/
structure Window where
  base : Nat := 0
  limit : Nat := 0
  x : Bool := false
  w : Bool := false
  rd : Bool := false
  v : Bool := false
deriving DecidableEq, Repr

/-- A redeem that the port has claimed (R374); a reset leaves it to run on with its result discarded: where its bytes go, its fetch
size code, its data once the fetch has them with their poisoned units, the completion time of its write once written. -/
structure Redeem where
  ticket : W64
  dst : Nat
  code : Nat
  data : Option (List Byte) := none
  pois : List Nat := []
  tDone : Option Nat := none
  discard : Bool := false
deriving DecidableEq, Repr

/-- An episode: record, windows, mailbox queues, mailbox page, port and hart (R364, R367, R368, R371, R374). -/
structure Episode where
  startver : BitVec 16 := 0
  svv : Bool := false
  lagen : Bool := false
  estate : Nat := 0
  bound : Bool := false
  owner : Nat := 0
  entry : W64 := 0
  deadline : W64 := 4000000
  lag : Nat := 2
  truncs : BitVec 16 := 0
  timeouts : BitVec 16 := 0
  steps : BitVec 32 := 0
  werr : Bool := false
  windows : Tbl Window := []
  actions : List Msg := []
  obs : List Msg := []
  actSeq : Nat := 1
  obsSeq : Nat := 1
  waiters : List Nat := []
  timeoutDue : Bool := false
  actbuf : Tbl Byte := []
  obsbuf : Tbl Byte := []
  aver : BitVec 16 := 0
  fault : Bool := false
  done : Bool := false
  mbie : Bool := false
  tkdst : W64 := 0
  busy : Bool := false
  fcause : Nat := 0
  tksize : Nat := 0
  result : Nat := 0
  timer : Option Nat := none
  redeems : List Redeem := []
  restart : Option Msg := none
  hart : Hart := {}
deriving DecidableEq, Repr

/-! The device (R403 to R413). -/

/-- An entry of the roster in force (R412). -/
structure RosterEnt where
  dev : Nat
  key : List Byte
deriving DecidableEq, Repr

/-- An attestation request in progress: a report over a nonce, or the chain (R410, R411). -/
inductive AttReq where
  | report (nonce : List Byte)
  | chain
deriving DecidableEq, Repr

/-- The device block's fields and what stands behind them (R403, R406, R408, R410, R412): `fw` is the running firmware, none for the
one the device was made with, `staged` one that passed its check and takes effect at the next device reset; `ptpT1` to `ptpT3` are the
times of the exchange in progress, `slewRem` the nanoseconds since the last one by which a correction changed the counter (R409). -/
structure Dev where
  stepping : Nat := 0
  svnMin : Nat := 0
  fw : Option (List Byte) := none
  staged : Option (List Byte) := none
  answering : Bool := true
  bootOk : Bool := true
  localNext : Nat := 0
  localGiB : Nat := 0
  ebase : W64 := 0
  elog : Nat := 0
  eridx : BitVec 32 := 0
  ewidx : BitVec 32 := 0
  edrop : BitVec 32 := 0
  fn : Tbl Nat := []
  tsrc : Nat := 0
  port : Nat := 0
  pdom : Nat := 0
  locked : Bool := false
  offset : W64 := 0
  tinit : W64 := 0
  ptpGood : Nat := 0
  ptpT1 : Option W64 := none
  ptpT2 : Option W64 := none
  ptpT3 : Option W64 := none
  corr : Int := 0
  slewRem : Nat := 0
  domid : BitVec 16 := 0
  domsize : Nat := 0
  links : BitVec 18 := 0
  devnum : BitVec 8 := 0
  member : Tbl W64 := []
  lost : List Nat := []
  rostaddr : W64 := 0
  rcount : Nat := 0
  rerr : Nat := 0
  roster : Option (List RosterEnt) := none
  rosterRaw : List Byte := []
  adrop : BitVec 32 := 0
  fwaddr : W64 := 0
  fwlen : BitVec 32 := 0
  fwok : Bool := false
  raddr : W64 := 0
  att : Option AttReq := none
  clen : Nat := 0
  aerr : Nat := 0
  bindings : List (List Byte × List Byte) := []
  announced : List (List Byte) := []
deriving DecidableEq, Repr

/-- An interrupt message: function, MSI-X index, the time its raising write is performed (R353). -/
structure Irq where
  fn : Nat
  vec : Nat
  after : Nat
deriving DecidableEq, Repr

/-- A pending cairn sample of a core and context, or a sampled word not yet recorded (R392): `wid` none while the word
has not issued; `level` is the farthest level that its accesses have reached (R393). -/
structure Pick where
  core : Nat
  ctx : Nat
  pEnd : Nat
  tag : BitVec 16
  wid : Option Nat
  words : List W64
  drawn : Bool
  level : Nat := 0
deriving DecidableEq, Repr

/-- The PC slot whose word runs. -/
structure Cursor where
  wid : Nat
  slotB : Bool
deriving DecidableEq, Repr

/-- An item of the agenda: what comes next (DESIGN CHOICE, log entry 4). -/
inductive Todo where
  /-- The slot of a wave is offered the issue slot. -/
  | issue (wid : Nat) (slotB : Bool)
  /-- A step of another agent. -/
  | event (i : Instr)
  /-- The time base advances by n nanoseconds (R17). -/
  | tick (n : Nat)
  /-- The host reads a register of a function (R402). -/
  | hostRead (fn addr size : Nat)
  /-- The host writes its own memory. -/
  | hostStore (pa : Nat) (bytes : List Byte)
  /-- An agent of a peer writes that peer's memory (R406). -/
  | peerStore (pa : Nat) (bytes : List Byte)
  /-- An instruction fetch of a core reads a word at its home; the word is on its way to the core (R282). -/
  | fetchAhead (core pa : Nat)
  /-- pyld loads a variant's data under the address that its descriptor names (R345). -/
  | loadMeta (ctx addr : Nat) (m : Meta)
  /-- A unit of HBM4E or of an L2 slice (R400: UNIT 1 or 2, CTX of the access) has an error: corrected, or uncorrectable (R398). -/
  | memError (pa unit ctx : Nat) (bad : Bool)
  /-- On-core storage, a ticket line buffer (at its physical address) or a table (R400: UNIT) has a corrected error (R398). -/
  | corrected (unit ctx pa : Nat)
  /-- An uncorrectable error of a 64-byte unit of an L1 line, of a ticket's line buffer, of a monitor's entry (R398, R399). -/
  | l1Error (cache line u : Nat)
  | ticketError (slice idx u : Nat)
  | monError (wid : Nat) (slotB : Bool)
  /-- A parity error of a word in an instruction cache, of a TLB entry (R398). -/
  | icacheParity (core pa : Nat)
  | tlbParity (core va : Nat)
  /-- A symbol of a wave, a byte of a buffer or a quad of a block has an uncorrectable error (R399). -/
  | symError (wid : Nat) (scalar : Bool) (num : Nat)
  | bufError (blk buf off : Nat)
  | quadError (blk num : Nat)
  /-- A launch whose rope groups have retired completes, once its writes are performed (R343). -/
  | finish (lid : Nat)
  /-- The local copy of the counter of a unit drifts to another lag behind the reference (R17). -/
  | drift (unit lag : Nat)
  /-- The copy engine transfers n more units of 16 bytes of a block's copy k (R208, R312). -/
  | copyMove (blk k n : Nat)
  /-- The answer of a mailbox's poll comes (R217). -/
  | pollDone (op : Nat)
  /-- pyld loads an image with pod sharing: its text and the bytes of its sections 1 to 7 (R347). -/
  | podLoad (ctx va len : Nat) (image : List Byte)
  /-- The Harness marks a block for a larger budget (R250). -/
  | rebindUp (blk : Nat)
  /-- A scalar symbol, or a vector pair, of a wave that is not live takes the value of another of its block, which shares its slot
  (R42, R46, R247). -/
  | share (wid : Nat) (scalar : Bool) (num : Nat) (wid2 num2 : Nat)
deriving DecidableEq, Repr

/-- The state of the machine. `fetches` are instruction words on their way to a core, with the step at which each was read
(R282); `peerMons` the monitors of this device's waves at peers' homes (R185); `skew` gives the local copy of the counter of
a unit as its lag and a value it has reached, `readMax` the greatest value that a read of the counter has given (R17, R18). -/
structure State where
  now : Nat := 0
  skew : Tbl (Nat × Nat) := []
  readMax : Nat := 0
  dev : Dev := {}
  mem : Tbl Byte := []
  poison : List Nat := []
  lease : Tbl Nat := []
  l1 : Tbl (Tbl Line) := []
  icache : Tbl (Tbl W32) := []
  fetches : Tbl (Tbl (W32 × Nat)) := []
  walks : Tbl Walk := []
  hw : Tbl HomeWrite := []
  ops : Tbl Op := []
  slices : Tbl Slice := []
  peerMons : List Mon := []
  ropes : Tbl Rope := []
  cores : Tbl Core := []
  ctxs : Tbl Ctx := []
  eps : Tbl Episode := []
  launches : Tbl Launch := []
  groups : Tbl Group := []
  blocks : Tbl Block := []
  waves : Tbl Wave := []
  offers : List Nat := []
  away : List Nat := []
  irqs : List Irq := []
  irqSent : List (Nat × Nat) := []
  picks : List Pick := []
  agenda : List Todo := []
  cur : Option Cursor := none
  fresh : Nat := 0
  nextId : Nat := 1
  hostData : W64 := 0
deriving DecidableEq, Repr

/-- The machine right after power-on and device reset (R403, R405): every context free, every table empty, every field
at its stated reset value, and memory with nothing listed. (DESIGN CHOICE, log entry 1; log entry 2; log entry 3) -/
def State.reset : State := {}

end Sys2Proof.Machine
end

