-- ==== Sys2Proof/Machine/Access.lean ====
section
/-! DEFINITION. The named reads and updates of the state's tables: waves, slots, symbols, counters, blocks, contexts. -/

namespace Sys2Proof.Machine

/-! Tables of the state. -/

def setWave (s : State) (wid : Nat) (w : Wave) : State := { s with waves := tput s.waves wid w }
def modWave (s : State) (wid : Nat) (f : Wave → Wave) : State := { s with waves := tmod s.waves wid f }
def modBlock (s : State) (b : Nat) (f : Block → Block) : State := { s with blocks := tmod s.blocks b f }
def modGroup (s : State) (g : Nat) (f : Group → Group) : State := { s with groups := tmod s.groups g f }
def modLaunch (s : State) (l : Nat) (f : Launch → Launch) : State := { s with launches := tmod s.launches l f }

/-- A context's record; an unlisted context holds its reset values. -/
def ctxOf (s : State) (c : Nat) : Ctx := tgetD s.ctxs c {}
def modCtx (s : State) (c : Nat) (f : Ctx → Ctx) : State := { s with ctxs := tset {} s.ctxs c (f (ctxOf s c)) }
def ropeOf (s : State) (r : Nat) : Rope := tgetD s.ropes r {}
def modRope (s : State) (r : Nat) (f : Rope → Rope) : State := { s with ropes := tset {} s.ropes r (f (ropeOf s r)) }
def coreOf (s : State) (c : Nat) : Core := tgetD s.cores c {}
def modCore (s : State) (c : Nat) (f : Core → Core) : State := { s with cores := tset {} s.cores c (f (coreOf s c)) }
def sliceOf (s : State) (g : Nat) : Slice := tgetD s.slices g {}
def modSlice (s : State) (g : Nat) (f : Slice → Slice) : State :=
  { s with slices := tset {} s.slices g (f (sliceOf s g)) }
def epOf (s : State) (e : Nat) : Episode := tgetD s.eps e {}
def modEp (s : State) (e : Nat) (f : Episode → Episode) : State := { s with eps := tset {} s.eps e (f (epOf s e)) }
def modDev (s : State) (f : Dev → Dev) : State := { s with dev := f s.dev }
def queueOf (c : Ctx) (q : Nat) : Queue := tgetD c.queues q {}
def modQueue (s : State) (c q : Nat) (f : Queue → Queue) : State :=
  modCtx s c (fun x => { x with queues := tset {} x.queues q (f (queueOf x q)) })

/-- The reference counter as a 64-bit word (R17). (DESIGN CHOICE, log entry 6) -/
def nowW (s : State) : W64 := w64 s.now

/-! The units and their numbers (R8). -/

/-- The die of a stack group, and of the base die of its stack. -/
def dieOfStack (g : Nat) : Nat := g / 4
/-- The rope of a core. -/
def ropeOfCore (core : Nat) : Nat := core / 4
/-- The stack group of a rope, and of a core. -/
def stackOfRope (rope : Nat) : Nat := rope / 36
def stackOfCore (core : Nat) : Nat := stackOfRope (ropeOfCore core)
/-- The environment core of an episode, four episodes a core, and its Base Camp cluster, 64 cores a cluster (R12). -/
def envCoreOfEp (e : Nat) : Nat := e / 4
def clusterOfEnv (core : Nat) : Nat := core / 64

/-! The local copies of the counter (R17, R18). -/

/-- The copies of ropes, base dies and Base Camp clusters, numbered in one row. -/
def ropeClock (rope : Nat) : Nat := rope
def baseClock (g : Nat) : Nat := Config.ropes + g
def campClock (cluster : Nat) : Nat := Config.ropes + Config.slices + cluster

/-- What a local copy shows: at most 8 behind the reference, and never less than it has shown. (DESIGN CHOICE, log entry 6) -/
def localNow (s : State) (unit : Nat) : Nat :=
  let c := tgetD s.skew unit (0, 0)
  max c.2 (s.now - min 8 c.1)

/-- A copy drifts to another lag behind the reference. (DESIGN CHOICE, log entry 6) -/
def drift (s : State) (unit lag : Nat) : State := { s with skew := tset (0, 0) s.skew unit (lag, localNow s unit) }

/-- What a read by an agent gives that must see at least `floor` (R18). -/
def readClock (s : State) (unit floor : Nat) : Nat := max floor (localNow s unit)

/-- The counter as a wave reads it, through its rope's copy. (DESIGN CHOICE, log entry 6) -/
def waveClock (s : State) (w : Wave) (core : Nat) : Nat := readClock s (ropeClock (ropeOfCore core)) w.tmin

/-- A wave has read the counter. -/
def sawTime (s : State) (wid v : Nat) : State :=
  modWave { s with readMax := max s.readMax v } wid (fun w => { w with tmin := max w.tmin v })

/-- An acquire side of a wave: every read made so far happens before its later ones. (DESIGN CHOICE, log entry 6) -/
def acquireTime (s : State) (wid : Nat) : State := modWave s wid (fun w => { w with tmin := max w.tmin s.readMax })

/-- A fresh name for an operation, wave, block, group or launch (DESIGN CHOICE, log entry 4). -/
def takeId (s : State) : Nat × State := (s.nextId, { s with nextId := s.nextId + 1 })

/-- Saturating increment of a packed counter (R350). -/
def satInc {n : Nat} (x : BitVec n) : BitVec n := if x = BitVec.allOnes n then x else x + 1

/-- Saturating addition to a packed counter (R350). -/
def satAdd {n : Nat} (x : BitVec n) (k : Nat) : BitVec n :=
  if x.toNat + k < 2 ^ n then x + BitVec.ofNat n k else BitVec.allOnes n

/-! Cairn levels (R393). -/

/-- The word that a wave is issuing has reached a level. -/
def reachNow (s : State) (wid lvl : Nat) : State := modWave s wid (fun w => { w with level := max w.level lvl })

/-- A word that has issued has reached a level: its samples take it. -/
def reachOp (s : State) (wid : Nat) (o : Origin) (lvl : Nat) : State :=
  { s with picks := s.picks.map (fun p =>
      if p.wid == some wid && p.words.getD 1 0 == w64 (o.image * 2 ^ 32 + o.off) then { p with level := max p.level lvl } else p) }

/-! Slots of a wave. -/

def slotOf (w : Wave) (b : Bool) : Slot := if b then w.b else w.a
def setSlot (w : Wave) (b : Bool) (x : Slot) : Wave := if b then { w with b := x } else { w with a := x }
def modSlot (w : Wave) (b : Bool) (f : Slot → Slot) : Wave := setSlot w b (f (slotOf w b))

/-- The wave holds paths in both slots (R105). -/
def isSplit (w : Wave) : Bool := w.a.used && w.b.used

/-- The address of the slot's next word, or of the header it stands at. -/
def wordAddr (x : Slot) : Nat := if x.inClause then x.hdr + 4 + 4 * x.idx else x.pc

/-- The count of a header (R58). -/
def hdrCount (h : W32) : Nat := bits h.toNat 3 0
/-- The class of a header (R58). -/
def hdrClass (h : W32) : BitVec 3 := h.extractLsb' 4 3
/-- The seam bit of a header (R58). -/
def hdrSeam (h : W32) : Bool := h.getLsbD 29
/-- The header that follows the slot's clause (R104). -/
def nextHdr (x : Slot) : Nat := x.hdr + 4 * (hdrCount x.hdrW + 1)
/-- The empty-policy bit of the slot's word: true traps (R59). -/
def emptyTrap (x : Slot) : Bool := x.hdrW.getLsbD (7 + x.idx)

/-- The frames a slot sees, top first: its own above the shared ones (R105). -/
def framesOf (w : Wave) (b : Bool) : List Frame := (slotOf w b).frames ++ w.shared

/-- The frames of a slot replaced, given how many of them are shared. -/
def setFrames (w : Wave) (b : Bool) (fs : List Frame) : Wave :=
  if isSplit w then
    let n := fs.length - w.shared.length
    modSlot { w with shared := fs.drop n } b (fun x => { x with frames := fs.take n })
  else { modSlot w b (fun x => { x with frames := [] }) with shared := fs }

/-- Frames of the whole wave (R105: 64 in all). -/
def frameCount (w : Wave) : Nat := w.shared.length + w.a.frames.length + w.b.frames.length

/-! Counters (R56, R57). -/

def cntGet (c : Counters) : CntK → Nat
  | .load => c.load
  | .store => c.store
  | .ticket => c.ticket
  | .matrix => c.matrix
  | .copy => c.copy
  | .special => c.special

def cntSet (c : Counters) (k : CntK) (n : Nat) : Counters :=
  match k with
  | .load => { c with load := n }
  | .store => { c with store := n }
  | .ticket => { c with ticket := n }
  | .matrix => { c with matrix := n }
  | .copy => { c with copy := n }
  | .special => { c with special := n }

def cntUp (w : Wave) (k : CntK) : Wave := { w with cnt := cntSet w.cnt k (cntGet w.cnt k + 1) }
/-- A counter never underflows (R57). -/
def cntDown (w : Wave) (k : CntK) : Wave := { w with cnt := cntSet w.cnt k (cntGet w.cnt k - 1) }

/-- The counters in the order of the wait mask's bits 22 to 27 (R56). -/
def cntList (c : Counters) : List Nat := [c.load, c.store, c.ticket, c.matrix, c.copy, c.special]
def cntZero (c : Counters) : Bool := (cntList c).all (· == 0)

/-! Symbols (R44). -/

def scGet (w : Wave) (n : Nat) : W64 := tgetD w.sc n 0
def scPut (w : Wave) (n : Nat) (v : W64) : Wave := { w with sc := tset 0 w.sc n v }
def veGet (w : Wave) (n l : Nat) : W32 := (tgetD w.ve n []).getD l 0
/-- Lane values written where the set holds the lane; other lanes keep theirs (R54). -/
def vePut (w : Wave) (n : Nat) (live : Lanes) (f : Nat → W32) : Wave :=
  { w with ve := tput w.ve n ((upto w.width).map (fun l => if live.getLsbD l then f l else veGet w n l)) }
def prGet (w : Wave) (n : Nat) : Lanes := w.preds.getD n 0
def prPut (w : Wave) (n : Nat) (live v : Lanes) : Wave :=
  { w with preds := setAt w.preds n ((prGet w n &&& ~~~live) ||| (v &&& live)) }

/-- The 64-bit value of the pair n, n + 1 in a lane (R44). -/
def pairGet (w : Wave) (n l : Nat) : Nat := (veGet w n l).toNat + 2 ^ 32 * (veGet w (n + 1) l).toNat
/-- A symbol or, when wide, a pair in a lane. -/
def vGet (w : Wave) (wide : Bool) (n l : Nat) : Nat := if wide then pairGet w n l else (veGet w n l).toNat
/-- A symbol or, when wide, a pair written in the lanes of a set. -/
def vPut (w : Wave) (wide : Bool) (n : Nat) (live : Lanes) (f : Nat → Nat) : Wave :=
  let w1 := vePut w n live (fun l => w32 (f l))
  if wide then vePut w1 (n + 1) live (fun l => w32 (f l >>> 32)) else w1

/-- Whether a vector or scalar symbol of the wave is empty (R54). -/
def isEmpty (w : Wave) (cls : SymCls) (n : Nat) : Bool := w.empty.any (fun e => e.cls == cls && e.num == n)
def isPoisoned (w : Wave) (cls : SymCls) (n : Nat) : Bool := w.pois.any (fun e => e.cls == cls && e.num == n)
/-- The symbol's poison mark goes when an instruction writes it whole. -/
def unPoison (w : Wave) (cls : SymCls) (n : Nat) : Wave :=
  { w with pois := w.pois.filter (fun e => !(e.cls == cls && e.num == n)) }

/-- All lanes of the wave's width. -/
def allLanes (width : Nat) : Lanes := BitVec.ofNat 64 (2 ^ width - 1)

/-! Places. -/

def blockOf (s : State) (w : Wave) : Option Block := tget s.blocks w.blk
/-- The core a wave's block is on. -/
def coreOfWave (s : State) (w : Wave) : Nat := match blockOf s w with | some b => b.core | none => 0

/-- Byte offset of an address in the image's text (R231). -/
def imgOff (v : Variant) (addr : Nat) : Nat := (addr + v.info.off0 + 2 ^ 64 - v.text) % 2 ^ 32

/-- The symbolic name of a word of a wave (R231, R306). -/
def originOf (b : Block) (w : Wave) (addr : Nat) : Origin :=
  ⟨b.var.image, imgOff b.var addr, b.idx, w.idx⟩

/-- The function that owns a context (R349, R403): values above 64 act as 64. -/
def ownerFn (s : State) (c : Nat) : Nat := min 64 (tgetD s.dev.fn c 0)

/-- A block is away from its core. -/
def isAway (b : Block) : Bool := b.res == .swapped || b.res == .preempted

/-- A wave's block is away from its core. -/
def waveAway (s : State) (wid : Nat) : Bool := ((tget s.waves wid).bind (blockOf s)).elim false isAway

/-- A slot that is occupied is parked. -/
def slotParked (x : Slot) : Bool := !x.used || x.park != .run

/-- The operations of a wave do not wait for its block's return: in a pre-empted block those of a wave that drains, or that is parked,
complete into the saved state (R357). (DEDUCED, log entry 22) -/
def intoSaved (w : Wave) (b : Block) : Bool := b.res == .preempted && (w.st == .draining || (slotParked w.a && slotParked w.b))

/-- A delivery into a wave waits until its block, which is away from its core, is restored (R256, R357). -/
def awayWave (s : State) (wid : Nat) : Bool :=
  (tget s.waves wid).elim false (fun w => (blockOf s w).elim false (fun b => isAway b && !intoSaved w b))

/-! Operations (R54, R56). -/

/-- An operation is entered under a fresh name and its counter counts it. -/
def addOp (s : State) (wid : Nat) (cnt : CntK) (orig : Origin) (body : Body) : Nat × State :=
  let id := s.nextId
  (id, modWave { s with ops := tput s.ops id ⟨wid, cnt, orig, s.now, body⟩, nextId := id + 1 } wid
    (fun w => cntUp w cnt))

def setBody (s : State) (id : Nat) (b : Body) : State :=
  { s with ops := tmod s.ops id (fun o => { o with body := b }) }

/-- Destinations marked empty by an operation (R54). -/
def markEmpty (w : Wave) (cls : SymCls) (nums : List Nat) (op : Nat) : Wave :=
  { w with empty := w.empty ++ nums.map (fun n => ⟨cls, n, op⟩) }

/-- A slot may issue again (R396). -/
def unstick (x : Slot) : Slot := { x with stuck := false }

/-- An operation ends: its destinations are full and its counter falls (R54, R56). -/
def endOp (s : State) (id : Nat) : State :=
  match tget s.ops id with
  | none => s
  | some o =>
    let s1 := modWave { s with ops := tdel s.ops id } o.wid
      (fun w => cntDown { w with
        empty := w.empty.filter (fun e => e.op ≠ id), a := unstick w.a, b := unstick w.b } o.cnt)
    match tget s1.waves o.wid with
    | none => s1
    | some w => modBlock s1 w.blk (fun b => { b with qempty := b.qempty.filter (fun e => e.op ≠ id) })

/-- The wave has an outstanding operation that satisfies p. -/
def anyOp (s : State) (wid : Nat) (p : Body → Bool) : Bool := s.ops.any (fun e => e.2.wid == wid && p e.2.body)

end Sys2Proof.Machine
end

