-- ==== Sys2Proof/Machine/Float.lean ====
section
/-! DEFINITION. Number formats and exact arithmetic (R72 to R94): values are exact dyadic numbers, computed without
rounding and rounded once. -/

namespace Sys2Proof.Machine

/-- A floating format (R72): widths, bias, the largest finite magnitude code, the infinity's magnitude code if any,
whether a NaN can be signalling. -/
structure Fmt where
  w : Nat
  fb : Nat
  bias : Nat
  maxMag : Nat
  inf : Option Nat
  sig : Bool
deriving DecidableEq, Repr

def f64 : Fmt := ⟨64, 52, 1023, 0x7FEFFFFFFFFFFFFF, some 0x7FF0000000000000, true⟩
def f32 : Fmt := ⟨32, 23, 127, 0x7F7FFFFF, some 0x7F800000, true⟩
def f16 : Fmt := ⟨16, 10, 15, 0x7BFF, some 0x7C00, true⟩
def bf16 : Fmt := ⟨16, 7, 127, 0x7F7F, some 0x7F80, true⟩
def e4m3 : Fmt := ⟨8, 3, 7, 0x7E, none, false⟩
def e5m2 : Fmt := ⟨8, 2, 15, 0x7B, some 0x7C, false⟩
def e2m1 : Fmt := ⟨4, 1, 1, 0x7, none, false⟩

/-- The format a type code names (R64, R72). -/
def fmtOf (t : Nat) : Fmt :=
  match t with
  | 9 => f64
  | 11 => f16
  | 12 => bf16
  | 13 => e4m3
  | 14 => e5m2
  | 15 => e2m1
  | _ => f32

/-- A value: a NaN with its sign, fraction and signalling bit; an infinity; or ±m·2^e exactly. -/
inductive FV where
  | nan (neg : Bool) (frac : Nat) (sig : Bool)
  | inf (neg : Bool)
  | fin (neg : Bool) (m : Nat) (e : Int)
deriving DecidableEq, Repr

/-- The exceptions of an operation (R84) and the cause code of a generated NaN (R78, R85). -/
structure Exc where
  nv : Bool := false
  dz : Bool := false
  ovf : Bool := false
  uf : Bool := false
  nx : Bool := false
  cc : Nat := 0
deriving DecidableEq, Repr

/-- Exceptions of two steps together; the first cause code stands (R140). -/
def Exc.join (a b : Exc) : Exc :=
  ⟨a.nv || b.nv, a.dz || b.dz, a.ovf || b.ovf, a.uf || b.uf, a.nx || b.nx, if a.cc != 0 then a.cc else b.cc⟩

/-- The subcode of a floating-point trap (R85). -/
def Exc.sub (x : Exc) : Nat :=
  x.cc * 256 + x.nx.toNat * 16 + x.uf.toNat * 8 + x.ovf.toNat * 4 + x.dz.toNat * 2 + x.nv.toNat

/-- Some raised exception's enable bit is set in MODE (R51, R53). -/
def Exc.traps (x : Exc) (mode : Nat) : Bool :=
  (x.nv && bit mode 8) || (x.dz && bit mode 9) || (x.ovf && bit mode 10) || (x.uf && bit mode 11)
    || (x.nx && bit mode 12)

/-- The value of a bit pattern in a format (R72 to R74). -/
def unpack (f : Fmt) (x : Nat) : FV :=
  let mag := x % 2 ^ (f.w - 1)
  let neg := bit x (f.w - 1)
  let ex := mag >>> f.fb
  let fr := mag % 2 ^ f.fb
  let isNan := match f.inf with
    | some i => decide (i < mag)
    | none => f == e4m3 && mag == 0x7F
  if isNan then .nan neg fr (f.sig && !bit fr (f.fb - 1))
  else if f.inf == some mag then .inf neg
  else if ex == 0 then .fin neg fr (1 - (f.bias : Int) - f.fb)
  else .fin neg (fr + 2 ^ f.fb) ((ex : Int) - f.bias - f.fb)

/-- A pattern from a sign and a magnitude code. -/
def packMag (f : Fmt) (neg : Bool) (mag : Nat) : Nat := (if neg then 2 ^ (f.w - 1) else 0) + mag

/-- The generated NaN of a format with a cause (R78). -/
def nanMake (f : Fmt) (cc : Nat) : Nat :=
  match f.inf with
  | some i => if f == e5m2 then 0x7E else i + 2 ^ (f.fb - 1) + cc
  | none => if f == e4m3 then 0x7F else 0

/-- The pattern of an infinity; a format without one gives its R79 result. -/
def packInf (f : Fmt) (neg : Bool) : Nat :=
  match f.inf with
  | some i => packMag f neg i
  | none => packMag f neg (if f == e4m3 then 0x7F else 7)

/-- A NaN of format g as format f has it, quieted (R77, R79). A NaN of E4M3 or E5M2 into E5M2 falls under two bullets
of R79; 'into E4M3 or E5M2' is taken, which gives 0x7F or 0xFF (DESIGN CHOICE, log entry 53). -/
def nanConv (g f : Fmt) (neg : Bool) (frac : Nat) : Nat :=
  if f == e4m3 || f == e5m2 then packMag f neg 0x7F
  else if f == e2m1 then 0
  else
    let i := f.inf.getD 0
    if !g.sig then packMag f neg (i + 2 ^ (f.fb - 1) + 1)
    else packMag f neg (i + 2 ^ (f.fb - 1) + (frac % 2 ^ (g.fb - 1)) % 2 ^ (f.fb - 1))

/-! Rounding (R80 to R83). Modes: 0 RNE, 1 RZ, 2 RU, 3 RD, 4 RS; outside R81, RS rounds as RNE.
Mode 9 is the harts' round to nearest, ties away (PRESUMED, log entry 20). -/

/-- The mode that a round field and MODE select (R64, R80). -/
def rmOf (field mode : Nat) : Nat := if field == 0 then mode % 8 else field - 1

/-- Whether the magnitude q is incremented, given the remainder over 2^k. -/
def roundUp (rm : Nat) (neg : Bool) (q rem k : Nat) : Bool :=
  if rem == 0 then false
  else match rm with
    | 1 => false
    | 2 => !neg
    | 3 => neg
    | 9 => decide (2 ^ k ≤ 2 * rem)
    | _ => decide (2 ^ k < 2 * rem) || (2 * rem == 2 ^ k && q % 2 == 1)

/-- m·2^e rounded to a multiple of 2^q: the multiple and whether it is inexact. -/
def roundAt (rm : Nat) (neg : Bool) (m : Nat) (e q : Int) : Nat × Bool :=
  if q ≤ e then (m <<< (e - q).toNat, false)
  else
    let k := (q - e).toNat
    let r := m % 2 ^ k
    (m >>> k + (if roundUp rm neg (m >>> k) r k then 1 else 0), r != 0)

/-- The magnitude code of r·2^q in a format, with the exponent unbounded above. -/
def magCode (f : Fmt) (r : Nat) (q : Int) : Nat :=
  if r < 2 ^ f.fb then r
  else
    let l := Nat.log2 r
    let ex := (l : Int) + q + f.bias
    (ex.toNat <<< f.fb) + (if l ≤ f.fb then r <<< (f.fb - l) else r >>> (l - f.fb)) - 2 ^ f.fb

/-- The result of an overflow (R82). -/
def overflowMag (f : Fmt) (rm : Nat) (neg : Bool) : Nat :=
  match f.inf with
  | none => f.maxMag
  | some i => match rm with
    | 1 => f.maxMag
    | 2 => if neg then f.maxMag else i
    | 3 => if neg then i else f.maxMag
    | _ => i

/-- FTZ governs FP64, FP32, FP16 and BF16 results only (R83). -/
def ftzFmt (f : Fmt) : Bool := f.sig

/-- round_to: the exact ±m·2^e in a format under a mode and FTZ; `sat` turns an overflow into ±largest (R71, R82, R83,
R133). -/
def roundFin (f : Fmt) (rm : Nat) (ftz sat : Bool) (neg : Bool) (m : Nat) (e : Int) : Nat × Exc :=
  if m == 0 then (packMag f neg 0, {})
  else
    let lead := (Nat.log2 m : Int) + e
    let emin : Int := 1 - f.bias
    let un := roundAt rm neg m e (lead - f.fb)
    let tiny := decide ((Nat.log2 un.1 : Int) + (lead - f.fb) < emin)
    let q := max (lead - f.fb) (emin - f.fb)
    let r := roundAt rm neg m e q
    if tiny && ftz && ftzFmt f then (packMag f neg 0, { uf := true, nx := true })
    else
      let mag := magCode f r.1 q
      if f.maxMag < mag then
        (packMag f neg (if sat then f.maxMag else overflowMag f rm neg), { ovf := true, nx := true })
      else (packMag f neg mag, { uf := tiny && r.2, nx := r.2 })

/-- The xorshift step of SEED (R81). -/
def xorshift (s : W32) : W32 :=
  let a := s ^^^ (s <<< 13)
  let b := a ^^^ (a >>> 17)
  b ^^^ (b <<< 5)

/-- Stochastic rounding of ±m·2^e with the random 16 bits (R81). -/
def roundRS (f : Fmt) (ftz sat : Bool) (rnd : Nat) (neg : Bool) (m : Nat) (e : Int) : Nat × Exc :=
  if m == 0 then (packMag f neg 0, {})
  else
    let lead := (Nat.log2 m : Int) + e
    let emin : Int := 1 - f.bias
    let q := max (lead - f.fb) (emin - f.fb)
    let lo := roundAt 1 neg m e q
    let k := (q - e).toNat
    let t := if lo.2 then ((m % 2 ^ k) <<< 16) >>> k else 0
    let r := if rnd < t then lo.1 + 1 else lo.1
    let mag := magCode f r q
    if f.maxMag < mag then
      (packMag f neg (if sat then f.maxMag else overflowMag f 4 neg), { ovf := true, nx := true })
    else
      let tiny := r != 0 && decide ((Nat.log2 r : Int) + q < emin)
      if tiny && ftz && ftzFmt f then (packMag f neg 0, { uf := true, nx := true })
      else (packMag f neg mag, { uf := tiny && lo.2, nx := lo.2 })

/-! Exact arithmetic. -/

/-- The signed numerator of ±m over 2^-e at a common exponent. -/
def sgn (neg : Bool) (m : Nat) : Int := if neg then -(m : Int) else m

/-- The exact sum; an exact zero of unlike zeros or of a cancellation is +0, or -0 under RD (IEEE 754-2019). -/
def addFin (rm : Nat) (n1 : Bool) (m1 : Nat) (e1 : Int) (n2 : Bool) (m2 : Nat) (e2 : Int) : Bool × Nat × Int :=
  let e := min e1 e2
  let x := sgn n1 (m1 <<< (e1 - e).toNat) + sgn n2 (m2 <<< (e2 - e).toNat)
  if x == 0 then ((if m1 == 0 && m2 == 0 && n1 == n2 then n1 else rm == 3), 0, e)
  else (decide (x < 0), x.natAbs, e)

/-- Compare two finite values. -/
def cmpFin (n1 : Bool) (m1 : Nat) (e1 : Int) (n2 : Bool) (m2 : Nat) (e2 : Int) : Ordering :=
  let e := min e1 e2
  compare (sgn n1 (m1 <<< (e1 - e).toNat)) (sgn n2 (m2 <<< (e2 - e).toNat))

/-- Compare two non-NaN values; -0 equals +0. -/
def cmpFV (x y : FV) : Ordering :=
  match x, y with
  | .inf a, .inf b => if a == b then .eq else if a then .lt else .gt
  | .inf a, _ => if a then .lt else .gt
  | _, .inf b => if b then .gt else .lt
  | .fin a m e, .fin b n f => cmpFin a m e b n f
  | _, _ => .eq

def isNan : FV → Bool
  | .nan .. => true
  | _ => false
def isSNan : FV → Bool
  | .nan _ _ s => s
  | _ => false
def fvNeg : FV → Bool
  | .nan n _ _ => n
  | .inf n => n
  | .fin n _ _ => n
def isZeroFV : FV → Bool
  | .fin _ 0 _ => true
  | _ => false

/-- A subnormal input becomes a zero of its sign under DAZ (R83). -/
def daz (on : Bool) (f : Fmt) (x : Nat) : Nat :=
  if on && (x % 2 ^ (f.w - 1)) >>> f.fb == 0 then x / 2 ^ (f.w - 1) * 2 ^ (f.w - 1) else x

/-- The first NaN among operands, each with its format, in result format f, and whether a signalling one is among them
(R77); one of the result's own format keeps its sign and fraction. -/
def propNan (f : Fmt) (xs : List (Fmt × FV)) : Option (Nat × Exc) :=
  match xs.find? (fun x => isNan x.2) with
  | some (g, .nan neg fr _) =>
    some (if g == f && f.inf.isSome then packMag f neg (f.inf.getD 0 + (fr ||| 2 ^ (f.fb - 1))) else nanConv g f neg fr,
      { nv := xs.any (fun x => isSNan x.2) })
  | _ => none

/-- An invalid operation's result and exception (R78). -/
def invalid (f : Fmt) (cc : Nat) : Nat × Exc := (nanMake f cc, { nv := true, cc := cc })

/-- x + y rounded once (R129). -/
def fAdd (f : Fmt) (rm : Nat) (ftz : Bool) (x y : Nat) : Nat × Exc :=
  let a := unpack f x
  let b := unpack f y
  match propNan f [(f, a), (f, b)] with
  | some r => r
  | none => match a, b with
    | .inf p, .inf q => if p == q then (packInf f p, {}) else invalid f 3
    | .inf p, _ => (packInf f p, {})
    | _, .inf q => (packInf f q, {})
    | .fin p m e, .fin q n g =>
      let r := addFin rm p m e q n g
      roundFin f rm ftz false r.1 r.2.1 r.2.2
    | _, _ => invalid f 5

/-- The pattern with its sign inverted (R129). -/
def flipSign (f : Fmt) (x : Nat) : Nat := x ^^^ 2 ^ (f.w - 1)

/-- x − y: NaNs propagate as given, numbers add with y's sign inverted (R129). -/
def fSub (f : Fmt) (rm : Nat) (ftz : Bool) (x y : Nat) : Nat × Exc :=
  if isNan (unpack f y) then fAdd f rm ftz x y else fAdd f rm ftz x (flipSign f y)

/-- x × y rounded once (R129). -/
def fMul (f : Fmt) (rm : Nat) (ftz : Bool) (x y : Nat) : Nat × Exc :=
  let a := unpack f x
  let b := unpack f y
  match propNan f [(f, a), (f, b)] with
  | some r => r
  | none =>
    let s := fvNeg a != fvNeg b
    match a, b with
    | .fin _ m e, .fin _ n g => roundFin f rm ftz false s (m * n) (e + g)
    | _, _ => if isZeroFV a || isZeroFV b then invalid f 4 else (packInf f s, {})

/-- x × y + z with one rounding (R129): 0 × ∞ raises NV even when z is a quiet NaN. -/
def fFma (f : Fmt) (rm : Nat) (ftz : Bool) (x y z : Nat) : Nat × Exc :=
  let a := unpack f x
  let b := unpack f y
  let c := unpack f z
  let zi := match a, b with
    | .inf _, b => isZeroFV b
    | a, .inf _ => isZeroFV a
    | _, _ => false
  match propNan f [(f, a), (f, b), (f, c)] with
  | some r => (r.1, { r.2 with nv := r.2.nv || zi })
  | none =>
    if zi then invalid f 4
    else
      let s := fvNeg a != fvNeg b
      match a, b, c with
      | .fin _ m e, .fin _ n g, .fin q k h =>
        let r := addFin rm s (m * n) (e + g) q k h
        roundFin f rm ftz false r.1 r.2.1 r.2.2
      | .fin .., .fin .., .inf q => (packInf f q, {})
      | _, _, .inf q => if q == s then (packInf f q, {}) else invalid f 3
      | _, _, _ => (packInf f s, {})

/-- VFMIN and VFMAX (R86): −0 counts as less than +0. -/
def fMinMax (f : Fmt) (mx legacy : Bool) (x y : Nat) : Nat × Exc :=
  let a := unpack f x
  let b := unpack f y
  let nv : Exc := { nv := isSNan a || isSNan b }
  if isNan a || isNan b then
    if legacy || (isNan a && isNan b) then
      match propNan f [(f, a), (f, b)] with
      | some r => r
      | none => (x, nv)
    else (if isNan a then y else x, nv)
  else
    let lt := match cmpFV a b with
      | .lt => true
      | .eq => fvNeg a && !fvNeg b
      | .gt => false
    let eqv := cmpFV a b == .eq && fvNeg a == fvNeg b
    (if eqv then x else if lt != mx then x else y, {})

/-- A result that is not rounded, under FTZ: a subnormal of a format that FTZ governs becomes a zero of its sign, with UF
and NX (R83). -/
def fFlush (f : Fmt) (ftz : Bool) (r : Nat × Exc) : Nat × Exc :=
  let mag := r.1 % 2 ^ (f.w - 1)
  if ftz && ftzFmt f && mag != 0 && mag >>> f.fb == 0 then
    (packMag f (bit r.1 (f.w - 1)) 0, r.2.join { uf := true, nx := true })
  else r

/-- ±m·2^e rounded to an integer: its magnitude and whether it is inexact. -/
def toInteger (rm : Nat) (neg : Bool) (m : Nat) (e : Int) : Nat × Bool := roundAt rm neg m e 0

/-- A conversion from a float to an integer type of width w (R87). -/
def fToInt (x : FV) (rm w : Nat) (sg lcvt : Bool) : Nat × Exc :=
  let hi : Int := if sg then (2 ^ (w - 1) : Nat) - 1 else (2 ^ w : Nat) - 1
  let lo : Int := if sg then -((2 ^ (w - 1) : Nat) : Int) else 0
  let indef := 2 ^ (w - 1)
  let bad := fun (v : Int) => ((if lcvt then indef else wrapI w v), ({ nv := true } : Exc))
  match x with
  | .nan .. => bad 0
  | .inf n => bad (if n then lo else hi)
  | .fin n m e =>
    let r := toInteger (if rm == 4 then 0 else rm) n m e
    let v := sgn n r.1
    if hi < v then bad hi else if v < lo then bad lo else (wrapI w v, { nx := r.2 })

/-- A conversion from float to float; `rnd` gives the random bits under RS (R79, R81, R133). A NaN that E2M1
cannot hold raises NV with no cause, also one of E4M3 or E5M2 (DESIGN CHOICE, log entry 53). -/
def fConv (g f : Fmt) (rm : Nat) (ftz sat : Bool) (rnd : Nat) (x : Nat) : Nat × Exc :=
  match unpack g x with
  | .nan n fr s => (nanConv g f n fr, { nv := s || f == e2m1 })
  | .inf n => (packInf f n, if f.inf.isNone then { nv := true, cc := 6 } else {})
  | .fin n m e => if rm == 4 then roundRS f ftz sat rnd n m e else roundFin f rm ftz sat n m e

/-- A conversion from an integer (R133). -/
def fOfInt (f : Fmt) (rm : Nat) (ftz : Bool) (rnd : Nat) (v : Int) : Nat × Exc :=
  if rm == 4 then roundRS f ftz false rnd (decide (v < 0)) v.natAbs 0
  else roundFin f rm ftz false (decide (v < 0)) v.natAbs 0

/-- VFRND: x rounded to an integral value of its format; NX only under .x (R129). -/
def fRnd (f : Fmt) (rm : Nat) (withNx : Bool) (x : Nat) : Nat × Exc :=
  match unpack f x with
  | .nan .. => match propNan f [(f, unpack f x)] with
    | some r => r
    | none => (x, {})
  | .inf _ => (x, {})
  | .fin n m e =>
    let r := toInteger (if rm == 4 then 0 else rm) n m e
    ((roundFin f 0 false false n r.1 0).1, { nx := withNx && r.2 })

/-- Codes 10 to 12 of an atomic: MODE ignored, RNE, subnormals kept, generated NaNs with cause 5 (R179). -/
def atomFloat (code : Nat) (f : Fmt) (m y : Nat) : Nat :=
  let r := match code with
    | 10 => fAdd f 0 false m y
    | 11 => fMinMax f false false m y
    | _ => fMinMax f true false m y
  if r.2.cc != 0 then nanMake f 5 else r.1

/-! Exact sums. -/

/-- The exact sum of signed dyadics as a numerator over a common exponent. -/
def sumDy (ts : List (Int × Int)) : Int × Int :=
  ts.foldl (fun a t =>
    let e := min a.2 t.2
    (a.1 * 2 ^ (a.2 - e).toNat + t.1 * 2 ^ (t.2 - e).toNat, e)) (0, 0)

/-- An exact dyadic rounded to FP32 under RNE, subnormals kept (R88). -/
def rne32 (x : Int × Int) : Nat := (roundFin f32 0 false false (decide (x.1 < 0)) x.1.natAbs x.2).1

/-- a0·b0 + a1·b1 + c of VFDOT2, exact before its one rounding (R130). Beside a NaN a product of 0 and infinity still raises NV and
infinities of both signs do not; an exactly zero sum is -0 where every product and c are -0, or under RD where they are not all zeros
of one sign (DESIGN CHOICE, log entry 53). -/
def fDot2 (g : Fmt) (rm : Nat) (ftz : Bool) (a0 b0 a1 b1 c : Nat) : Nat × Exc :=
  let xs := [(g, unpack g a0), (g, unpack g b0), (g, unpack g a1), (g, unpack g b1), (f32, unpack f32 c)]
  let prods := [(unpack g a0, unpack g b0), (unpack g a1, unpack g b1)]
  let zi := prods.any (fun p => match p.1, p.2 with
    | .inf _, b => isZeroFV b
    | a, .inf _ => isZeroFV a
    | _, _ => false)
  match propNan f32 xs with
  | some r => (r.1, { r.2 with nv := r.2.nv || zi })
  | none =>
    if zi then invalid f32 4
    else
      let infs := (prods.filterMap (fun p => match p.1, p.2 with
          | .inf a, b => some (a != fvNeg b)
          | a, .inf b => some (fvNeg a != b)
          | _, _ => none)) ++ (match unpack f32 c with | .inf n => [n] | _ => [])
      if infs.contains true && infs.contains false then invalid f32 3
      else match infs with
        | n :: _ => (packInf f32 n, {})
        | [] =>
          let t := prods.map (fun p => match p.1, p.2 with
            | .fin p m e, .fin q n f => (sgn (p != q) (m * n), e + f)
            | _, _ => (0, 0))
          let cz := match unpack f32 c with | .fin n m e => (sgn n m, e) | _ => (0, 0)
          let x := sumDy (t ++ [cz])
          if x.1 == 0 then
            let negs := (prods.map (fun p => fvNeg p.1 != fvNeg p.2)) ++ [fvNeg (unpack f32 c)]
            let allz := t.all (fun y => y.1 == 0) && cz.1 == 0
            (packMag f32 (if allz && negs.all (· == negs.headD false) then negs.headD false else rm == 3) 0, {})
          else roundFin f32 rm ftz false (decide (x.1 < 0)) x.1.natAbs x.2

/-! Scaled matrix arithmetic (R88 to R94). -/

/-- ⌊log2 |x|⌋ of a nonzero dyadic. -/
def expOf (x : Int × Int) : Int := (Nat.log2 x.1.natAbs : Int) + x.2

/-- tree56: the sum of finite terms in the 56-bit window (R91). -/
def tree56 (ts : List (Int × Int)) : Int × Int :=
  let nz := ts.filter (fun t => t.1 != 0)
  match nz with
  | [] => (0, 0)
  | t0 :: _ =>
    let mx := nz.foldl (fun m t => max m (expOf t)) (expOf t0)
    let lsb := mx + 8 - 55
    (nz.foldl (fun a t =>
      a + (if lsb ≤ t.2 then t.1 * 2 ^ (t.2 - lsb).toNat else t.1 / 2 ^ (lsb - t.2).toNat)) 0, lsb)

/-- rne32(S) × sigma + acc of R90, special values by R92. -/
def scaledFma (s32 sigma acc : Nat) : Nat := (fFma f32 0 false s32 sigma acc).1

/-- One chunk of a scaled pass (R90, R92): elements a, b with their formats; ma, mb the group microscales of an E2M1
pass; sa, sb the FP32 scales. -/
def scaledChunk (ta tb : Nat) (a b : List Nat) (ma mb : List Nat) (sa sb acc : Nat) : Nat :=
  let e2 := ta == 15
  let fa := fmtOf ta
  let fb := fmtOf tb
  let va := a.map (unpack fa)
  let vb := b.map (unpack fb)
  let prods := va.zip vb
  let sigma := (fMul f32 0 false sa sb).1
  let s32 :=
    if (va ++ vb).any isNan then 0x7FC00001
    else if e2 && (ma ++ mb).any (· == 255) then 0x7FC00002
    else if prods.any (fun p => match p.1, p.2 with
        | .inf _, y => isZeroFV y
        | x, .inf _ => isZeroFV x
        | _, _ => false) then 0x7FC00004
    else
      let infs := prods.filterMap (fun p => match p.1, p.2 with
        | .inf x, y => some (x != fvNeg y)
        | x, .inf y => some (fvNeg x != y)
        | _, _ => none)
      if infs.contains true && infs.contains false then 0x7FC00003
      else match infs with
        | n :: _ => packInf f32 n
        | [] =>
          let t := prods.map (fun p => match p.1, p.2 with
            | .fin p m e, .fin q n f => (sgn (p != q) (m * n), e + f)
            | _, _ => ((0 : Int), (0 : Int)))
          let terms := if e2 then
              (upto 4).map (fun g =>
                let x := sumDy ((t.drop (32 * g)).take 32)
                (x.1, x.2 + ((ma.getD g 127 : Int) - 127) + ((mb.getD g 127 : Int) - 127)))
            else t
          rne32 (tree56 terms)
  if isNan (unpack f32 sa) || isNan (unpack f32 sb) then scaledFma s32 sigma acc
  else scaledFma s32 sigma acc

/-- One group of 16 of a BF16 or FP16 pass (R93). The spec gives no sign to an exactly zero sum: -0 where every product
and acc are -0, else +0 (DESIGN CHOICE, log entry 53). -/
def halfGroup (g : Fmt) (a b : List Nat) (acc : Nat) : Nat :=
  let pr := (a.map (unpack g)).zip (b.map (unpack g))
  let xs := pr.flatMap (fun p => [(g, p.1), (g, p.2)]) ++ [(f32, unpack f32 acc)]
  match propNan f32 xs with
  | some r => r.1
  | none =>
    if pr.any (fun p => match p.1, p.2 with
        | .inf _, y => isZeroFV y
        | x, .inf _ => isZeroFV x
        | _, _ => false) then 0x7FC00004
    else
      let infs := (pr.filterMap (fun p => match p.1, p.2 with
        | .inf x, y => some (x != fvNeg y)
        | x, .inf y => some (fvNeg x != y)
        | _, _ => none)) ++ (match unpack f32 acc with | .inf n => [n] | _ => [])
      if infs.contains true && infs.contains false then 0x7FC00003
      else match infs with
        | n :: _ => packInf f32 n
        | [] =>
          let t := pr.map (fun p => match p.1, p.2 with
            | .fin p m e, .fin q n f => (sgn (p != q) (m * n), e + f)
            | _, _ => ((0 : Int), (0 : Int)))
          let c := match unpack f32 acc with | .fin n m e => (sgn n m, e) | _ => (0, 0)
          let x := sumDy (t ++ [c])
          if x.1 == 0 then
            let negs := (pr.map (fun p => fvNeg p.1 != fvNeg p.2)) ++ [fvNeg (unpack f32 acc)]
            packMag f32 ((t.all (fun y => y.1 == 0)) && c.1 == 0 && negs.all (· == true)) 0
          else rne32 x

/-- One chunk of an INT8 pass (R94). -/
def intChunk (ta tb : Nat) (a b : List Nat) (acc : Nat) : Nat :=
  let v := fun (t x : Nat) => if isSigned t then sextI x 8 else ((x % 256 : Nat) : Int)
  let sum := ((a.zip b).map (fun p => v ta p.1 * v tb p.2)).foldl (· + ·) 0
  wrapI 32 ((acc : Int) + sum)

/-! Roots, quotients and the elementary functions of class 2 (R135, R136), in fixed point with 256 fraction bits. -/

/-- Integer square root, bit by bit from bit k. -/
def isqrtLoop : Nat → Nat → Nat → Nat
  | 0, _, r => r
  | k + 1, n, r => let t := r + 2 ^ k; isqrtLoop k n (if t * t ≤ n then t else r)
def isqrt (n : Nat) : Nat := isqrtLoop (Nat.log2 n / 2 + 1) n 0

/-- Fraction bits of the fixed point. -/
def fxb : Nat := 256
/-- π/2 and ln 2 times 2^256. -/
def fxHalfPi : Nat := 181885788445883162140117471388864931326696688664196214979386075558969447233092
def fxLn2 : Nat := 80260960185991308862233904206310070533990667611589946606122867505419956976171

/-- Σ t^k/k! of n terms from term, in fixed point: `alt` keeps every second power and alternates signs. -/
def expLoop : Nat → Nat → Nat → Nat → Nat → Nat
  | 0, _, _, _, acc => acc
  | n + 1, k, t, term, acc =>
    let nx := ((term * t) >>> fxb) / (k + 1)
    expLoop n (k + 1) t nx (acc + nx)

/-- e^t for 0 ≤ t < 1 in fixed point. -/
def fxExp (t : Nat) : Nat := expLoop 70 0 t (2 ^ fxb) (2 ^ fxb)

/-- The alternating series of sin (k = 1) and cos (k = 0) in fixed point over signed terms. -/
def trigLoop : Nat → Nat → Nat → Int → Int → Int
  | 0, _, _, _, acc => acc
  | n + 1, k, t2, term, acc =>
    let nx := -((term * t2 / 2 ^ fxb) / (((k + 1) * (k + 2) : Nat) : Int))
    trigLoop n (k + 2) t2 nx (acc + nx)

def fxSin (t : Nat) : Int := trigLoop 45 1 ((t * t) >>> fxb) t t
def fxCos (t : Nat) : Int := trigLoop 45 0 ((t * t) >>> fxb) (2 ^ fxb : Nat) (2 ^ fxb : Nat)

/-- Binary digits of log2 y for 1 ≤ y < 2 in fixed point. -/
def logLoop : Nat → Nat → Nat → Nat
  | 0, _, acc => acc
  | n + 1, y, acc =>
    let z := (y * y) >>> fxb
    if 2 ^ (fxb + 1) ≤ z then logLoop n (z >>> 1) (2 * acc + 1) else logLoop n z (2 * acc)

/-- ±m·2^e in fixed point, truncated. -/
def toFx (m : Nat) (e : Int) : Nat :=
  let k := e + fxb
  if 0 ≤ k then m <<< k.toNat else m >>> (-k).toNat

/-- 2^x for ±m·2^e with |x| < 300, as mantissa and exponent. -/
def exp2Dy (neg : Bool) (m : Nat) (e : Int) : Nat × Int :=
  let x := toFx m e
  let n := x >>> fxb
  let f := x % 2 ^ fxb
  let p : Nat × Int := if neg && f != 0 then (2 ^ fxb - f, -(n : Int) - 1) else (f, if neg then -(n : Int) else n)
  (fxExp ((p.1 * fxLn2) >>> fxb), p.2 - fxb)

/-- log2 of m·2^e as a signed dyadic. -/
def log2Dy (m : Nat) (e : Int) : Int × Int :=
  let l := Nat.log2 m
  let y := m <<< (fxb - l)
  (((l : Int) + e) * 2 ^ 100 + logLoop 100 y 0, -100)

/-- sin or cos of ±m·2^e as a signed dyadic. -/
def trigDy (cosine neg : Bool) (m : Nat) (e : Int) : Int × Int :=
  let x := toFx m e
  let q := x / fxHalfPi
  let r := x % fxHalfPi
  let k := (if cosine then q + 1 else q) % 4
  let v := if k % 2 == 0 then fxSin r else fxCos r
  let v := if k ≥ 2 then -v else v
  ((if neg && !cosine then -v else v), -(fxb : Int))

/-- sin or cos of ±m·2^e as a signed dyadic that rounds, and lies among the FP32 values, as the exact one does: that of a small
operand lies just below the operand in magnitude, or just below 1 (R135). -/
def trigVal (cosine neg : Bool) (m : Nat) (e : Int) : Int × Int :=
  if (Nat.log2 m : Int) + e < -60 then
    if cosine then (2 ^ 100 - 1, -100) else (if neg then 1 - (m * 2 ^ 100 : Nat) else (m * 2 ^ 100 : Nat) - 1, e - 100)
  else
    let v := trigDy cosine neg m e
    (2 * v.1 + (if v.1 < 0 then -1 else 1), v.2 - 1)

/-- tanh of m·2^e ≥ 0 below 16 as a dyadic. -/
def tanhDy (m : Nat) (e : Int) : Int × Int :=
  let x := toFx m e
  let y := (2 * x <<< fxb) / fxLn2
  let n := y >>> fxb
  let ex := fxExp (((y % 2 ^ fxb) * fxLn2) >>> fxb) <<< n
  ((((ex - 2 ^ fxb) <<< fxb) / (ex + 2 ^ fxb) : Nat), -(fxb : Int))

/-- The dyadic moved by the implementation's own error, at most 2^-24 of it, before its rounding: one amount for each
function, so the function stays monotonic and within 2 ulp (R135, DESIGN CHOICE, log entry 10). -/
def sfuBias (fn : Nat) (x : Int × Int) : Int × Int :=
  let k : Int := ((Config.sfuFree fn 0).toNat % 5 : Nat) - 2
  (x.1 * 2 ^ 25 + x.1 * k, x.2 - 25)

/-- x ≤ y for two dyadics. -/
def dyLe (x y : Int × Int) : Bool := decide ((sumDy [x, (-y.1, y.2)]).1 ≤ 0)

/-- A dyadic held between two others: between two arguments whose results are exact, the result stays between them
(R135, monotonic). -/
def dyClamp (lo hi x : Int × Int) : Int × Int := if dyLe x lo then lo else if dyLe hi x then hi else x

/-- A truncated value that is not exact, half a unit of its fixed point further from zero, so that its rounding is
inexact (R83, R135). -/
def sticky (v : Int × Int) : Int × Int := (2 * v.1 + (if v.1 < 0 then -1 else 1), v.2 - 1)

/-- The largest finite FP32 value. -/
def f32Largest : Int × Int := (2 ^ 24 - 1, 104)

/-- VSIN and VCOS: any FP32 value within 2 ulp of the exact value v, where a free value of the operand picks it among the
five around the rounded value r (R135, DESIGN CHOICE, log entry 10). -/
def sfuNear (fn : Nat) (x : W32) (ftz : Bool) (v : Int × Int) (r : Nat) : Nat :=
  let k : Int := ((Config.sfuFree fn x).toNat % 5 : Nat) - 2
  let c := sgn (bit r 31) (r % 2 ^ 31) + k
  let p := packMag f32 (if c == 0 then bit r 31 else decide (c < 0)) c.natAbs
  let lg := max (expOf v) (-126) - 22
  match unpack f32 p with
  | .fin n m e =>
    let d := sumDy [(sgn n m, e), (-v.1, v.2)]
    let near := if lg ≤ d.2 then d.1.natAbs <<< (d.2 - lg).toNat ≤ 1 else d.1.natAbs ≤ 2 ^ (lg - d.2).toNat
    if near && !(ftz && c.natAbs < 2 ^ 23) then p else r
  | _ => r

/-- The result of a special-function word on FP32 bits (R135, R136). fn: 0 VEX2, 1 VLG2, 2 VRCP, 3 VRSQ, 4 VSQRT,
5 VSIN, 6 VCOS, 7 VTANH (DESIGN CHOICE, log entry 10). UF of VSIN is judged on the exact value rounded, also where the
value returned is another within 2 ulp (R83, DESIGN CHOICE, log entry 53). -/
def sfuEval (fn : Nat) (rm : Nat) (dazOn ftz : Bool) (x0 : W32) : Nat × Exc :=
  let x := daz dazOn f32 x0.toNat
  let rm := if rm == 4 then 0 else rm
  let rnd := fun (rm : Nat) (v : Int × Int) => roundFin f32 rm ftz false (decide (v.1 < 0)) v.1.natAbs v.2
  let inexact := fun (r : Nat × Exc) => (r.1, { r.2 with nx := true })
  let zero := fun (n : Bool) => packMag f32 n 0
  match unpack f32 x with
  | .nan n fr s => match propNan f32 [(f32, .nan n fr s)] with
    | some r => r
    | none => (x, {})
  | .inf n => match fn with
    | 0 => (if n then 0 else packInf f32 false, {})
    | 1 => if n then invalid f32 5 else (packInf f32 false, {})
    | 2 => (zero n, {})
    | 3 => if n then invalid f32 5 else (0, {})
    | 4 => if n then invalid f32 5 else (packInf f32 false, {})
    | 7 => (packMag f32 n 0x3F800000, {})
    | _ => invalid f32 5
  | .fin n 0 _ => match fn with
    | 0 => (0x3F800000, {})
    | 1 => (packInf f32 true, { dz := true })
    | 2 => (packInf f32 n, { dz := true })
    | 3 => (packInf f32 n, { dz := true })
    | 6 => (0x3F800000, {})
    | _ => (zero n, {})
  | .fin n m e => match fn with
    | 0 =>
      let i := roundAt 1 false m e 0
      if !n && 128 ≤ i.1 then (packInf f32 false, { ovf := true, nx := true })
      else if !i.2 then
        if n && 149 < i.1 then (0, { uf := true, nx := true })
        else rnd 0 (1, if n then -(i.1 : Int) else i.1)
      else if n && 160 ≤ i.1 then (0, { uf := true, nx := true })
      else
        let v := exp2Dy n m e
        let w : Int × Int := sticky (v.1, v.2)
        let p := expOf w
        if p < -126 || dyLe f32Largest w then inexact (rnd 0 w)
        else
          let hi := if dyLe (1, p + 1) f32Largest then (1, p + 1) else f32Largest
          inexact (rnd 0 (dyClamp (1, p) hi (sfuBias 0 w)))
    | 1 =>
      if n then invalid f32 5
      else if m == 2 ^ Nat.log2 m then rnd 0 ((Nat.log2 m : Int) + e, 0)
      else
        let l := (Nat.log2 m : Int) + e
        inexact (rnd 0 (dyClamp (l, 0) (l + 1, 0) (sfuBias 1 (sticky (log2Dy m e)))))
    | 2 =>
      let q := 2 ^ 80 / m
      rnd rm (sgn n (4 * q + (if 2 ^ 80 % m == 0 then 0 else 1)), -e - 82)
    | 3 =>
      if n then invalid f32 5
      else
        let m2 := if e % 2 == 0 then m else 2 * m
        let e2 := if e % 2 == 0 then e else e - 1
        let r := isqrt (2 ^ 120 / m2)
        rnd rm (4 * (r : Int) + (if r * r * m2 == 2 ^ 120 then 0 else 1), -(e2 / 2) - 62)
    | 4 =>
      if n then invalid f32 5
      else
        let m2 := if e % 2 == 0 then m else 2 * m
        let e2 := if e % 2 == 0 then e else e - 1
        let r := isqrt (m2 <<< 60)
        rnd rm (4 * (r : Int) + (if r * r == m2 <<< 60 then 0 else 1), e2 / 2 - 32)
    | 5 =>
      let v := trigVal false n m e
      let r := rnd 0 v
      inexact (sfuNear 5 x0 ftz v r.1, r.2)
    | 6 =>
      let v := trigVal true n m e
      let r := rnd 0 v
      inexact (sfuNear 6 x0 ftz v r.1, r.2)
    | _ =>
      if 4 ≤ (Nat.log2 m : Int) + e then (packMag f32 n 0x3F800000, { nx := true })
      else
        let v := sfuBias 7 (sticky (tanhDy m e))
        let r := rnd 0 ((if n then -v.1 else v.1), v.2)
        inexact (if 0x3F800000 < r.1 % 2 ^ 31 then packMag f32 n 0x3F800000 else r.1, r.2)

end Sys2Proof.Machine
end

