-- ==== Sys2Proof/Machine/Mem.lean ====
section
/-! DEFINITION. Memory: where an address lives, the storage behind it, L1 copies under their leases, recalls, monitors
and writes performed at a home (R154, R184, R265 to R267, R297 to R303, R308). -/

namespace Sys2Proof.Machine

/-- The storage rows of R297. -/
inductive Region where
  | dev | stack | regs | peer (d : Nat) | host | nowhere
deriving DecidableEq, Repr

/-- 1 GiB. -/
def gib : Nat := 2 ^ 30

/-- The local address behind a peer address that names the issuing device itself (R297). -/
def canonPa (s : State) (pa : Nat) : Nat :=
  if bits pa 51 50 == 1 && bits pa 49 42 == s.dev.devnum.toNat then bits pa 41 0 else pa

/-- The row of R297 that a physical address lies in. -/
def regionOf (s : State) (pa0 : Nat) : Region :=
  let pa := canonPa s pa0
  if bit pa 51 then .host
  else if bits pa 51 50 == 1 then .peer (bits pa 49 42)
  else if pa < 8 * (64 - s.dev.localGiB) * gib then .dev
  else if 0x00F000000000 ≤ pa && pa ≤ 0x00FFFFFFFFFF then .regs
  else if 0x010000000000 ≤ pa && pa < 0x010000000000 + 8 * 2 ^ 36 && pa % 2 ^ 36 < s.dev.localGiB * gib then .stack
  else .nowhere

/-- The home slice of device memory (R297). -/
def homeSlice (s : State) (pa0 : Nat) : Nat :=
  let pa := canonPa s pa0
  if 0x010000000000 ≤ pa then (pa - 0x010000000000) / 2 ^ 36
  else bits pa 14 12 ^^^ bits pa 17 15 ^^^ bits pa 20 18 ^^^ bits pa 23 21

/-- Storage of this device. -/
def isDevMem (s : State) (pa : Nat) : Bool := regionOf s pa == .dev || regionOf s pa == .stack
/-- Storage that an access can reach: not a register page, not a hole. -/
def isStorage (s : State) (pa : Nat) : Bool := regionOf s pa != .regs && regionOf s pa != .nowhere

/-- A device of the domain whose memory answers (R406, R407, R401). -/
def peerHere (s : State) (d : Nat) : Bool :=
  s.dev.domsize != 0 && (tgetD s.dev.member (d / 64) 0).getLsbD (d % 64) && !s.dev.lost.contains d

/-- A peer address of a departed device or of none (R401, R406). -/
def departed (s : State) (pa : Nat) : Bool :=
  match regionOf s pa with
  | .peer d => !peerHere s d
  | _ => false

/-- The byte of storage at a physical address; a byte nothing has written reads 0 (DESIGN CHOICE, log entry 2). -/
def rdByte (s : State) (pa : Nat) : Byte := tgetD s.mem (canonPa s pa) 0
def wrByte (s : State) (pa : Nat) (b : Byte) : State := { s with mem := tset 0 s.mem (canonPa s pa) b }

/-- The 128-byte line and the 64-byte unit of an address (R299, R398). -/
def lineOf (pa : Nat) : Nat := pa / 128
def unitOf (pa : Nat) : Nat := pa / 64

/-- A unit is poisoned: marked, or in a departed peer's memory (R399, R401). -/
def unitPois (s : State) (pa : Nat) : Bool := s.poison.contains (unitOf (canonPa s pa)) || departed s pa

/-! L1 lines. -/

/-- A cache's lines; caches are the cores' L1s, then the environment cores' private L2s. -/
def l1Of (s : State) (cid : Nat) : Tbl Line := tgetD s.l1 cid []
def getLine (s : State) (cid ln : Nat) : Option Line := tget (l1Of s cid) ln
def putLine (s : State) (cid ln : Nat) (l : Line) : State :=
  { s with l1 := tset [] s.l1 cid (tput (l1Of s cid) ln l) }
def dropLine (s : State) (cid ln : Nat) : State := { s with l1 := tset [] s.l1 cid (tdel (l1Of s cid) ln) }
/-- A clean copy of a line goes. -/
def dropClean (s : State) (cid ln : Nat) : State :=
  match getLine s cid ln with
  | some ⟨.clean .., _, _⟩ => dropLine s cid ln
  | _ => s
/-- The bytes of a line at its home. -/
def homeLine (s : State) (ln : Nat) : List Byte := (upto 128).map (fun i => rdByte s (ln * 128 + i))
/-- The holders of a line's update-only copies (R302). -/
def holders (s : State) (ln : Nat) : Nat :=
  (s.l1.filter (fun e => match tget e.2 ln with | some ⟨.upd .., _, _⟩ => true | _ => false)).length
/-- The lines of one L1, or of one slice of a fused L1: 256 KiB (R299). -/
def l1Lines : Nat := 2048

/-- The cache of a core that holds a physical address: its own, or the slice of the rope's fused L1 (R300). -/
def cacheOf (s : State) (core pa : Nat) : Nat :=
  if (ropeOf s (ropeOfCore core)).fused then 4 * ropeOfCore core + (bits pa 8 7 ^^^ bits pa 10 9) else core
/-- The caches that make up a core's L1 (R300). -/
def cachesOf (s : State) (core : Nat) : List Nat :=
  if (ropeOf s (ropeOfCore core)).fused then (upto 4).map (fun c => 4 * ropeOfCore core + c) else [core]
/-- The reach of a core's L1 as a scope code: block, or rope when fused (R154). -/
def reachOf (s : State) (core : Nat) : Nat := if (ropeOf s (ropeOfCore core)).fused then 3 else 2

/-- The level of R393 at which an access of a core reaches a home: host, peer, or the L2 slice of its own or the other die; a
register page is none. Whether a slice had to read its HBM4E stack is not architectural. (DESIGN CHOICE, log entry 16) -/
def homeLevel (s : State) (core pa : Nat) : Nat :=
  match regionOf s pa with
  | .host => 9
  | .peer _ => 8
  | .dev => if dieOfStack (homeSlice s pa) == dieOfStack (stackOfCore core) then 4 else 5
  | .stack => if dieOfStack (homeSlice s pa) == dieOfStack (stackOfCore core) then 4 else 5
  | _ => 0
/-- The level of an L1: the core's own, or another core's slice of a fused one. -/
def l1Level (s : State) (core pa : Nat) : Nat := if cacheOf s core pa == core then 2 else 3

/-- What a cache holds serves a read of n bytes within a line: dirty bytes, or a clean copy under its lease (R154, R265). -/
def l1Serves (s : State) (cid pa n : Nat) (atHome : Bool) : Bool :=
  match getLine s cid (lineOf pa) with
  | some ⟨.dirty by_ _, _, _⟩ => (upto n).all (fun i => (tget by_ (pa + i)).isSome)
  | some ⟨.clean _ le _ _, _, _⟩ => s.now < le && !atHome
  | _ => false
/-- The level that a read reaches. -/
def readLevel (s : State) (core pa n : Nat) (atHome : Bool) : Nat :=
  if l1Serves s (cacheOf s core pa) pa n atHome then l1Level s core pa else homeLevel s core pa
/-- The level that a store at a scope reaches (R154). -/
def storeLevel (s : State) (core pa scope : Nat) : Nat :=
  if regionOf s pa != .regs && scope ≤ reachOf s core then l1Level s core pa else homeLevel s core pa

/-! The new value of an atomic (R179). -/

/-- m' of the integer codes at w bits; y2 is the compare value of .cas. -/
def atomInt (code w m y y2 : Nat) : Nat :=
  match code with
  | 0 => (m + y) % 2 ^ w
  | 1 => if sextI m w ≤ sextI y w then m else y
  | 2 => if sextI m w ≥ sextI y w then m else y
  | 3 => min m y
  | 4 => max m y
  | 5 => m &&& y
  | 6 => m ||| y
  | 7 => m ^^^ y
  | 8 => y
  | 9 => if m = y2 then y else m
  | _ => m

/-- m' of every code at w bits (R179). -/
def atomVal (code w m y y2 : Nat) : Nat :=
  if 10 ≤ code then atomFloat code (if w == 64 then f64 else f32) m y else atomInt code w m y y2

/-! Monitors (R184, R308). -/

/-- The little-endian number of n bytes of storage. -/
def rdNum (s : State) (pa n : Nat) : Nat := ofBytes ((upto n).map (fun i => rdByte s (pa + i)))

/-- The memory word of a WAITC as it is compared and delivered: sign-extended for .lt and .ge (R183). -/
def monExt (cond size x : Nat) : W64 :=
  if cond == 2 || cond == 3 then BitVec.ofInt 64 (sextI x (8 * size)) else w64 (x % 2 ^ (8 * size))

/-- The condition of a WAITC (R183). -/
def monCond (cond size m : Nat) (cmp : W64) : Bool :=
  let x := monExt cond size m
  let y := monExt cond size cmp.toNat
  match cond with
  | 0 => x == y
  | 1 => x != y
  | 2 => x.toInt < y.toInt
  | 3 => x.toInt ≥ y.toInt
  | 4 => x.toNat < y.toNat
  | 5 => x.toNat ≥ y.toNat
  | 6 => x &&& y != 0
  | _ => x &&& y == 0

/-- A slot leaves its clause for the header after it; one whose PC a debugger has set stands at its header (R327). -/
def toNextHdr (x : Slot) : Slot :=
  { x with inClause := false, pc := if x.inClause then nextHdr x else x.pc, idx := 0, words := [], park := .run, phase := 0, walked := [] }

/-- A line that an acquire at scope X leaves: not clean, or written by a store at scope X or wider and not behind its home,
so that no read after the acquire goes behind it (R162, R277). (DEDUCED, log entry 42) -/
def survives (s : State) (scope ln : Nat) (l : Line) : Bool :=
  match l.st with
  | .clean data _ ws _ => decide (scope < ws) && holders s ln == 0 && data == homeLine s ln
  | _ => true

/-- The acquire side of a FENCE at scope X beyond the reach: clean lines of that L1 not written by a store at scope X or
wider are invalidated (R162). -/
def acquireL1 (s : State) (core scope : Nat) : State :=
  if scope ≤ reachOf s core then s
  else (cachesOf s core).foldl (fun t c => { t with l1 := tset [] t.l1 c ((l1Of t c).filter (fun e => survives s scope e.1 e.2)) }) s

/-- A wave's later fetches are ordered behind what it has acquired (R164, R282). -/
def acquireFetch (s : State) (wid : Nat) : State := modWave s wid (fun w => { w with acqAt := s.nextId })

/-- A wave takes an acquire side at a scope: its later reads of the counter are ordered behind what it has acquired, at device
scope and wider its later fetches too (R18, R282). A block that is away acquires as it returns (R256). -/
def acquireBy (s : State) (wid core scope : Nat) : State :=
  let s1 := acquireTime (if waveAway s wid then s else acquireL1 s core scope) wid
  if scope < 5 then s1 else acquireFetch s1 wid

/-- The wave waiting at a monitor is woken with the value that met its condition (R184); its L1 keeps no older copy of
the word (R275). (DEDUCED, log entry 21) -/
def wakeMon (s : State) (wid : Nat) (slotB : Bool) (m : MonReq) (x : Nat) : State :=
  match tget s.waves wid with
  | none => s
  | some w =>
    let core := coreOfWave s w
    let v := monExt m.cond m.size x
    let o := match blockOf s w with | some b => originOf b w (wordAddr (slotOf w slotB)) | none => {}
    let w1 := unPoison (scPut { modSlot w slotB toNextHdr with
      owed := if (ctxOf s w.ctx).logen then w.owed ++ [(m.va, o, v)] else w.owed } m.d v) .s m.d
    let s1 := dropClean (setWave s wid w1) (cacheOf s core m.pa) (lineOf m.pa)
    if m.order == 2 then acquireBy s1 wid core m.scope else s1

/-- The request of a slot parked at a monitor. -/
def monOf (w : Wave) (slotB : Bool) : Option MonReq :=
  match (slotOf w slotB).park with
  | .monitor m => some m
  | _ => none

/-- The monitors of a slice changed; number 8 stands for the monitors at peers' homes. -/
def modMons (s : State) (g : Nat) (f : List Mon → List Mon) : State :=
  if g == 8 then { s with peerMons := f s.peerMons } else modSlice s g (fun t => { t with mons := f t.mons })
def monsOf (s : State) (g : Nat) : List Mon := if g == 8 then s.peerMons else (sliceOf s g).mons

/-- Every monitor of a slice on the bytes written is checked in arming order; those that hold wake and are freed. -/
def checkMons (s : State) (g : Nat) (touch : Nat → Bool) : State :=
  (monsOf s g).foldl (fun s e =>
    if (upto e.size).any (fun i => touch (e.pa + i)) then
      match (tget s.waves e.wid).bind (fun w => monOf w e.slotB) with
      | none => s
      | some m =>
        if monCond m.cond m.size (rdNum s m.pa m.size) m.cmp then
          wakeMon (modMons s g (fun l => l.filter (fun x => x ≠ e))) e.wid e.slotB m
            (rdNum s m.pa m.size)
        else s
    else s) s

/-- The peers' monitors of a slice whose condition a write meets are freed; their waves wake on the peer (R185, R406). -/
def freeFar (s : State) (g : Nat) (touch : Nat → Bool) : State :=
  if (sliceOf s g).farMons.isEmpty then s
  else modSlice s g (fun t => { t with farMons := t.farMons.filter (fun m =>
    !((upto m.size).any (fun i => touch (m.pa + i)) && monCond m.cond m.size (rdNum s m.pa m.size) m.cmp)) })

/-! Writes performed at a home (R267, R270). -/

/-- Units of storage written whole lose their poison (R399). -/
def cleanUnits (s : State) (us : List Nat) : State := { s with poison := s.poison.filter (fun u => !us.contains u) }

/-- A write that covers a whole 64-byte unit clears its poison; a partial write leaves it (R399). -/
def clearPois (s : State) (bytes : Tbl Byte) : State :=
  let units := (bytes.map (fun e => unitOf (canonPa s e.1))).eraseDups
  let whole := units.filter (fun u => (upto 64).all (fun i => bytes.any (fun e => canonPa s e.1 == u * 64 + i)))
  cleanUnits s whole

/-- The greatest lease end the homes have granted on the lines written (R265, R267). -/
def leaseMax (s : State) (bytes : Tbl Byte) : Nat :=
  bytes.foldl (fun m e => max m (tgetD s.lease (lineOf (canonPa s e.1)) 0)) 0

/-- A write of a line ends the reservations of harts on it (R363). -/
def dropResv (s : State) (lns : List Nat) : State :=
  { s with eps := s.eps.map (fun e => match e.2.hart.resv with
      | some pa => if lns.contains (lineOf pa) then (e.1, { e.2 with hart := { e.2.hart with resv := none } }) else e
      | none => e) }

/-- Bytes written at their home at this instant: storage, poison, monitors. The second component is the write
completion time T = max(h, G) (R267). A store to a departed peer is dropped (R401). -/
def performBytes (s : State) (bytes : Tbl Byte) : State × Nat :=
  let live := bytes.filter (fun e => isStorage s e.1 && !departed s e.1)
  let t := max s.now (leaseMax s live)
  let s1 := dropResv (clearPois (live.foldl (fun s e => wrByte s e.1 e.2) s) live) (live.map (fun e => lineOf (canonPa s e.1)))
  let touch := fun a => live.any (fun e => canonPa s e.1 == canonPa s a)
  let gs := ((live.filter (fun e => isDevMem s e.1)).map (fun e => homeSlice s e.1)).eraseDups
  let far := live.any (fun e => !isDevMem s e.1)
  let s2 := (sortBy (· ≤ ·) gs).foldl (fun s g => freeFar (checkMons s g touch) g touch) s1
  (if far then checkMons s2 8 touch else s2, t)

/-- A write of a context under a name completes at T: for each of its launches whose write it may be (R343). (DEDUCED, log entry 42) -/
def launchSees (ctx name t : Nat) (l : Launch) : Launch :=
  if l.ctx == ctx && l.st == .placed && l.flushed.elim true (fun n => decide (name < n)) then { l with doneT := max l.doneT t } else l

/-- The writes of an L1 complete at T for the waves of its cores and for the launches whose writes they may be. (DEDUCED, log entry 42) -/
def raiseCacheT (s : State) (cid ctx name t : Nat) : State :=
  { s with
    launches := s.launches.map (fun e => (e.1, launchSees ctx name t e.2))
    waves := s.waves.map (fun e =>
      if e.2.st == .live && (cachesOf s (coreOfWave s e.2)).contains cid then (e.1, { e.2 with lastT := max e.2.lastT t }) else e) }

/-- One update-only element combined into memory, with its completion time; a poisoned unit is not updated (R303, R399). -/
def combineElem (s : State) (pa code size c : Nat) : State × Nat :=
  if (upto size).any (fun i => unitPois s (pa + i)) then (s, s.now)
  else
    let m := rdNum s pa size
    let v := atomVal code (8 * size) m c 0
    performBytes s ((bytesOf size v).zipIdx.map (fun e => (pa + e.2, e.1)))

/-- One holder's elements combined, its line emptied: the combined updates complete at T (R267, R303). -/
def recallFrom (s : State) (cid ctx ln code size : Nat) (el : Tbl Nat) : State × Nat :=
  let r := el.foldl (fun (p : State × Nat) x =>
    let q := combineElem p.1 (ln * 128 + x.1) code size x.2
    (q.1, max p.2 q.2)) (dropLine s cid ln, 0)
  (raiseCacheT r.1 cid ctx r.1.nextId r.2, r.2)

/-- A recall of a line: each holder in ascending core number is combined and emptied (R303); with it the greatest
completion time of the combined updates. -/
def recallLineT (s : State) (ln : Nat) : State × Nat :=
  s.l1.foldl (fun (p : State × Nat) (e : Nat × Tbl Line) =>
    match tget e.2 ln with
    | some ⟨.upd code size el, ctx, _⟩ =>
      let r := recallFrom p.1 e.1 ctx ln code size el
      (r.1, max p.2 r.2)
    | _ => p) (s, 0)
def recallLine (s : State) (ln : Nat) : State := (recallLineT s ln).1

/-- Lines of a slice in its combine directory (R302). -/
def dirLines (s : State) (g : Nat) : Nat :=
  ((s.l1.flatMap (fun e => (e.2.filter (fun l => match l.2.st with
    | .upd .. => homeSlice s (l.1 * 128) == g | _ => false)).map (·.1))).eraseDups).length

/-- The value of n bytes at their home, after the recall that serving an access performs (R181). -/
def homeRead (s : State) (pa n : Nat) : List Byte × State :=
  let s1 := recallLine s (lineOf (canonPa s pa))
  ((upto n).map (fun i => rdByte s1 (pa + i)), s1)

/-- What a walker or another reader without a copy finds at the home: the value after a recall, nothing changed. -/
def peekNum (s : State) (pa n : Nat) : Nat := ofBytes (homeRead s pa n).1

/-! Lines leave an L1 (R266, R299, R414). -/

/-- A write sent to its home under a fresh name. -/
def pushHw (s : State) (h : HomeWrite) : Nat × State :=
  (s.nextId, { s with hw := tput s.hw s.nextId h, nextId := s.nextId + 1 })

/-- A dirty line's bytes leave for the home; the line is clean once they are performed (R266). (DEDUCED, log entry 42) -/
def writeBack (s : State) (wid ctx cid ln : Nat) : State :=
  match getLine s cid ln with
  | some ⟨.dirty by_ sc, _, _⟩ => (pushHw (dropLine s cid ln) ⟨wid, ctx, cid, by_, none, none, 0, some sc, []⟩).2
  | _ => s

/-- A line leaves an L1: a clean copy goes, dirty bytes leave for the home, updates are combined (R266, R303, R414). -/
def evictLine (s : State) (cid ln : Nat) : State :=
  match getLine s cid ln with
  | some ⟨.clean .., _, _⟩ => dropLine s cid ln
  | some ⟨.dirty by_ _, c, _⟩ => (pushHw (dropLine s cid ln) ⟨0, c, cid, by_, none, none, 0, none, []⟩).2
  | some ⟨.upd .., _, _⟩ => recallLine s ln
  | none => s

/-- An L1 holds bytes or updates of a line that its home lacks. -/
def lineOwn (s : State) (cid ln : Nat) : Bool :=
  match getLine s cid ln with
  | some ⟨.dirty .., _, _⟩ => true
  | some ⟨.upd .., _, _⟩ => true
  | _ => false

/-- Room for a line: where it is absent and the L1 is full, one of its lines leaves, which one is not architectural
(R299, R414). (DESIGN CHOICE, log entry 13) -/
def makeRoom (s : State) (cid ln : Nat) : State :=
  let t := l1Of s cid
  if t.length < l1Lines || (tget t ln).isSome then s
  else
    let victim := ((t.map (·.1)).getD ((Config.freeValue s.fresh).toNat % t.length) 0)
    evictLine { s with fresh := s.fresh + 1 } cid victim

/-! Reads by a core (R154, R157, R265, R266). -/

/-- A line filled from its home under a fresh lease; `ws` as in a clean line's `wscope` (R162, R265). -/
def fillLine (s0 : State) (cid ctx ln ws : Nat) : State :=
  let s := makeRoom s0 cid ln
  let le := s.now + (ctxOf s ctx).dlease
  let pz := (upto 2).filter (fun u => unitPois s (ln * 128 + 64 * u))
  let s1 := putLine s cid ln ⟨.clean (homeLine s ln) le ws pz, ctx, s.nextId⟩
  let key := lineOf (canonPa s1 (ln * 128))
  { s1 with lease := tput s1.lease key (max le (tgetD s1.lease key 0)), nextId := s1.nextId + 1 }

/-- A read of n bytes (within one line) served to a cache: dirty bytes first, then a clean copy whose lease runs unless
the read must be served by the home, else the home, which grants a lease. The third component says whether some unit
read is poisoned, the fourth whether some byte was served beyond what the L1 held. -/
def cacheRead (s : State) (cid ctx pa n : Nat) (atHome : Bool) : List Byte × State × Bool × Bool :=
  let ln := lineOf pa
  let fromHome := fun (s : State) (kept : Tbl Byte) =>
    let s1 := recallLine s ln
    let bs := (upto n).map (fun i => tgetD kept (pa + i) (rdByte s1 (pa + i)))
    let pz := (upto n).any (fun i => (tget kept (pa + i)).isNone && unitPois s1 (pa + i))
    (bs, s1, pz)
  match getLine s cid ln with
  | some ⟨.dirty by_ _, _, _⟩ =>
    let r := fromHome s by_
    (r.1, r.2.1, r.2.2, (upto n).any (fun i => (tget by_ (pa + i)).isNone))
  | some ⟨.clean data le _ pz, _, _⟩ =>
    if s.now < le && !atHome then
      ((upto n).map (fun i => data.getD (pa % 128 + i) 0), s,
        (upto n).any (fun i => pz.contains ((pa % 128 + i) / 64)), false)
    else fill s cid ctx pa fromHome
  | _ => fill s cid ctx pa fromHome
where
  /-- A fill from the home under a fresh lease (R265). -/
  fill (s : State) (cid ctx pa : Nat) (fromHome : State → Tbl Byte → List Byte × State × Bool) :
      List Byte × State × Bool × Bool :=
    let r := fromHome s []
    (r.1, fillLine r.2.1 cid ctx (lineOf pa) 0, r.2.2, true)

/-! Writes by a core (R154, R158, R266). -/

/-- A write from this cache to the line is still on its way. -/
def hwBusy (s : State) (cid ln : Nat) : Bool :=
  s.hw.any (fun e => e.2.cache == cid && (e.2.bytes.any (fun b => lineOf b.1 == ln) ||
    (match e.2.red with | some (pa, _, _, _) => lineOf pa == ln | none => false)))

/-- A store of a block, or of another agent (0), kept in the L1: the line becomes dirty and records the scope (R154, R266); one to
a departed peer's memory is dropped (R401, R407). -/
def narrowStore (s0 : State) (cid ctx pa : Nat) (bs : List Byte) (scope blk : Nat) : State :=
  let ln := lineOf pa
  if departed s0 pa then s0 else
  let s := makeRoom s0 cid ln
  let s1 := match getLine s cid ln with | some ⟨.upd .., _, _⟩ => recallLine s ln | _ => s
  let old : Tbl Byte × Nat := match getLine s1 cid ln with | some ⟨.dirty by_ _, _, f⟩ => (by_, f) | _ => ([], blk)
  let new := bs.zipIdx.foldl (fun t e => tput t (pa + e.2) e.1) old.1
  putLine { s1 with nextId := s1.nextId + 1 } cid ln ⟨.dirty new scope, ctx, if old.2 == blk then blk else s1.nextId⟩

/-- A write-through store: bytes of a dirty line go with it, and a clean copy of the writer's L1 is updated when it is
performed (R154, R185, R266). -/
def wideStore (s : State) (wid ctx cid pa : Nat) (bs : List Byte) (op scope : Nat) : Nat × State :=
  let ln := lineOf pa
  let s0 := match getLine s cid ln with | some ⟨.upd .., _, _⟩ => recallLine s ln | _ => s
  let r : Tbl Byte × State := match getLine s0 cid ln with
    | some ⟨.dirty by_ _, _, _⟩ => (by_, dropLine s0 cid ln)
    | _ => ([], s0)
  pushHw r.2 ⟨wid, ctx, cid, bs.zipIdx.foldl (fun t e => tput t (pa + e.2) e.1) r.1, none, some op, scope, none, []⟩

/-- A clean copy takes the bytes of its own L1's write-through store and keeps its lease (R266). -/
def updateCopy (s : State) (cid : Nat) (bytes : Tbl Byte) (scope : Nat) : State :=
  bytes.foldl (fun s e =>
    match getLine s cid (lineOf e.1) with
    | some ⟨.clean data le ws pz, c, f⟩ =>
      putLine s cid (lineOf e.1) ⟨.clean (setAt data (e.1 % 128) e.2) le (max ws (scope + 1)) pz, c, f⟩
    | _ => s) s

/-- Every dirty line of a core's L1 recorded at a scope narrower than X is written back, and its update-only lines are
combined (R162). -/
def releaseL1 (s : State) (wid ctx core scope : Nat) : State :=
  (cachesOf s core).foldl (fun s c =>
    (l1Of s c).foldl (fun (s : State) (e : Nat × Line) =>
      match e.2.st with
      | .dirty _ sc => if sc < scope then writeBack s wid ctx c e.1 else s
      | .upd .. => recallLine s e.1
      | .clean .. => s) s) s

/-- Bytes of device storage written by an engine or the Harness at its home at once; the answer carries T. -/
def engineWrite (s : State) (pa : Nat) (bs : List Byte) : State × Nat :=
  let lns := (bs.zipIdx.map (fun e => lineOf (canonPa s (pa + e.2)))).eraseDups
  performBytes (lns.foldl recallLine s) (bs.zipIdx.map (fun e => (pa + e.2, e.1)))

end Sys2Proof.Machine
end

