-- ==== Sys2Proof/Machine/Xlat.lean ====
section
/-! DEFINITION. Translation: the page-table walk, the TLBs, the walkers of a base die, the translations of one word
(R150, R314 to R316). -/

namespace Sys2Proof.Machine

/-- An address in canonical form: bits [63:56] are all equal (R150). -/
def canonical (va : Nat) : Bool := bits va 63 56 == 0 || bits va 63 56 == 255

/-- The index of a virtual address at the root and at levels 0 to 3 (R314). -/
def walkIndex (level va : Nat) : Nat :=
  match level with
  | 0 => bits va 56 48
  | 1 => bits va 47 39
  | 2 => bits va 38 30
  | 3 => bits va 29 21
  | _ => bits va 20 16

/-- log2 of the bytes that a leaf maps at a level: 1 GiB, 2 MiB, 64 KiB (R314). -/
def leafLog (level : Nat) : Nat := if level == 2 then 30 else if level == 3 then 21 else 16

/-- What a page-table entry says (R315). -/
inductive Pte where
  | invalid
  | table (pa : Nat)
  | leaf (l : Leaf)
deriving DecidableEq, Repr

/-- An entry of a level read: root 0, then levels 0 to 3 as 1 to 4 (R315). A register page permits no execute. -/
def pteOf (s : State) (level e : Nat) : Pte :=
  let isLeaf := bit e 1
  let addr := bits e 51 8 * 256
  if !bit e 0 || bits e 60 52 != 0 || bits e 7 2 != 0 then .invalid
  else if isLeaf then
    if level ≤ 1 || addr % 2 ^ leafLog level != 0 || regionOf s addr == .nowhere then .invalid
    else .leaf ⟨addr, leafLog level, bit e 63 && regionOf s addr != .regs, bit e 62, bit e 61⟩
  else if level ≥ 4 || (level != 3 && addr % 4096 != 0) then .invalid
  else .table addr

/-- The walk from a table, a level at a time (R314, R316); a poisoned entry is not valid (R399). -/
def walkFrom (s : State) (va : Nat) : List Nat → Nat → Option Leaf
  | [], _ => none
  | level :: rest, table =>
    let a := table + 8 * walkIndex level va
    if unitPois s a || !isStorage s a then none
    else match pteOf s level (peekNum s a 8) with
      | .invalid => none
      | .leaf l => some l
      | .table t => walkFrom s va rest t

/-- The walk of a context's tree (R314). -/
def walkTable (s : State) (ctx va : Nat) : Option Leaf :=
  walkFrom s va [0, 1, 2, 3, 4] ((ctxOf s ctx).ptroot * 4096)

/-- The physical address that a leaf gives, in its local form (R297). -/
def leafPa (s : State) (l : Leaf) (va : Nat) : Nat := canonPa s (l.pa + va % 2 ^ l.lg)

/-- The leaf of a translation list that covers an address of a context. -/
def tlbFind (t : List TlbEnt) (ctx va : Nat) : Option Leaf :=
  (t.find? (fun e => e.ctx == ctx && e.va >>> e.leaf.lg == va >>> e.leaf.lg)).map (·.leaf)

/-- A translation held by the core or its rope, in that order (R316). -/
def tlbLook (s : State) (core ctx va : Nat) : Option Leaf :=
  match tlbFind (coreOf s core).tlb ctx va with
  | some l => some l
  | none => tlbFind (ropeOf s (ropeOfCore core)).tlb ctx va

/-- A valid translation enters both TLBs; the oldest entry of a full one goes (R316). -/
def tlbFill (s : State) (core ctx va : Nat) (l : Leaf) : State :=
  let e : TlbEnt := ⟨ctx, va >>> l.lg <<< l.lg, l⟩
  let s1 := modCore s core (fun c => { c with tlb := (e :: c.tlb.filter (· ≠ e)).take 64 })
  modRope s1 (ropeOfCore core) (fun r => { r with tlb := (e :: r.tlb.filter (· ≠ e)).take 4096 })

/-- What is known of the translation of an address for a slot's word: the walk made for it, else a TLB entry. The outer
none asks for a walk; some none is a walk that found no valid translation. -/
def xlatKnown (s : State) (core ctx : Nat) (x : Slot) (va : Nat) : Option (Option Leaf) :=
  match x.walked.find? (fun r => r.page == va / 65536) with
  | some r => some r.leaf
  | none => (tlbLook s core ctx va).map some

/-- The walks of a base die in progress. -/
def walksOf (s : State) (die : Nat) : Nat := (s.walks.filter (fun e => e.2.die == die)).length

/-- Walks are started for the addresses of a word that have no known translation, at most four at once on the die
(R316). -/
def startWalks (s : State) (wid : Nat) (slotB : Bool) (core ctx : Nat) (x : Slot) (vas : List Nat) : State :=
  let die := stackOfCore core
  vas.foldl (fun s va =>
    let page := va / 65536
    if (xlatKnown s core ctx x va).isSome || walksOf s die ≥ 4
      || s.walks.any (fun e => e.2.wid == wid && e.2.slotB == slotB && e.2.page == page) then s
    else { s with walks := tput s.walks s.nextId ⟨ctx, page, die, wid, slotB⟩, nextId := s.nextId + 1 }) s

/-- A translation made by an engine or the Harness at once: a TLB entry of the core, else a walk. -/
def engineXlat (s : State) (core ctx va : Nat) : Option Leaf :=
  match tlbLook s core ctx va with
  | some l => some l
  | none => walkTable s ctx va

/-- The physical address of device-side storage of a context (rings, packets, records): canonical, translated, with the
permission asked, and storage. The second answer tells a missing translation (cause 6) from a missing permission (7). -/
def devXlat (s : State) (ctx va : Nat) (write : Bool) : Except (Nat × Nat) Nat :=
  if !canonical va then .error (6, 2)
  else match walkTable s ctx va with
    | none => .error (6, 1)
    | some l =>
      if write && !l.w then .error (7, 2)
      else if !write && !l.rd then .error (7, 1)
      else if !isStorage s (leafPa s l va) then .error (7, 4)
      else .ok (leafPa s l va)

/-- Bytes of a context's memory read by the device at their homes; none when some page gives no read. -/
def devRead (s : State) (ctx va n : Nat) : Option (List Byte) :=
  if (upto n).all (fun i => (devXlat s ctx (va + i) false).isOk) then
    some ((upto n).map (fun i => match devXlat s ctx (va + i) false with
      | .ok pa => BitVec.ofNat 8 (peekNum s pa 1)
      | .error _ => 0))
  else none

/-- A 64-bit word of memory that the device reads, none when its page gives no read. -/
def devWord (s : State) (ctx va : Nat) : Option Nat :=
  match devXlat s ctx va false with
  | .ok pa => some (peekNum s pa 8)
  | .error _ => none

/-- Words written by the device to a context's memory at their home; none when the page gives no write. The number is
the completion time of the write. -/
def devWrite (s : State) (ctx va : Nat) (ws : List W64) : Option (State × Nat) :=
  match devXlat s ctx va true with
  | .ok pa => some (engineWrite s pa (ws.flatMap (fun w => bytesOf 8 w.toNat)))
  | .error _ => none

end Sys2Proof.Machine
end

