-- ==== Sys2Proof/Machine/Log.lean ====
section
/-! DEFINITION. Records that the device writes into a context's rings: interrupts, the fault log, the replay log and its
reading back, cairn records (R352, R353, R392 to R396). -/

namespace Sys2Proof.Machine

/-- The interrupt of VEC byte k of a context, sent after the write that raises it is performed at T (R353). (DESIGN CHOICE, log entry 35) -/
def raiseIrq (s : State) (ctx k t : Nat) : State :=
  { s with irqs := s.irqs ++ [⟨ownerFn s ctx, bits (ctxOf s ctx).vec.toNat (8 * k + 7) (8 * k), t⟩] }

/-- Entries of a ring written at performance time t, n of them, or n units of it: WIDX covers them from t on, behind the earlier
ones (R352, R391). -/
def ringPush (now : Nat) (r : Ring) (n t : Nat) : Ring :=
  { r with widx := r.widx + BitVec.ofNat 32 n, pend := r.pend.dropWhile (fun p => decide (p.2 ≤ now)) ++ [(n, t)] }

/-- WIDX as it reads: the entries that have been performed, in their order. -/
def ringSeen (now : Nat) (r : Ring) : BitVec 32 :=
  r.widx - BitVec.ofNat 32 (((r.pend.dropWhile (fun p => decide (p.2 ≤ now))).map (·.1)).foldl (· + ·) 0)

/-- A ring has no room for another entry, or is disabled (R352). -/
def ringFull (r : Ring) : Bool := r.log2n == 0 || (r.widx - r.ridx).toNat == 2 ^ r.log2n

/-- The virtual address of a ring's next entry. -/
def ringSlot (r : Ring) (size : Nat) : Nat := (r.base.toNat + size * (r.widx.toNat % 2 ^ r.log2n)) % 2 ^ 64

/-- An entry of the fault log: the 32 words of a record with word 18 as R352 lays it out. A full, disabled or unwritable
ring drops it and counts it; the fault interrupt is raised either way. -/
def faultLog (s : State) (ctx : Nat) (rec : List W64) (blk wave reason : Nat) : State :=
  let r := (ctxOf s ctx).flog
  let ws := setAt rec 18 (w64 (blk * 2 ^ 32 + reason * 16 + wave))
  let drop := raiseIrq (modCtx s ctx (fun c => { c with flogdrop := satInc c.flogdrop })) ctx 3 s.now
  if ringFull r then drop
  else match devWrite s ctx (ringSlot r 256) ws with
    | none => drop
    | some (s1, t) => raiseIrq (modCtx s1 ctx (fun c => { c with flog := ringPush s.now r 1 t })) ctx 3 t

/-! The replay log (R394). -/

/-- The words of a log record's header. -/
def logHeader (kind nu wave blk : Nat) (o : Origin) (addr wseq now : Nat) : List W64 :=
  [w64 (kind * 2 ^ 56 + nu * 2 ^ 40 + wave * 2 ^ 36 + blk), w64 (o.image * 2 ^ 32 + o.off), w64 addr, w64 wseq,
   w64 now, 0, 0, 0]

/-- Bytes padded with zeros to a multiple of 64, as words. -/
def padWords (data : List Byte) : List W64 :=
  (upto (8 * ((data.length + 63) / 64))).map (fun i => w64 (ofBytes ((data.drop (8 * i)).take 8)))

/-- Log units of a record of so many data bytes, header included. -/
def logUnits (n : Nat) : Nat := 1 + (n + 63) / 64

/-- The log ring is found full: LOVF is set and logging stops (R394). (DEDUCED, log entry 37) -/
def logFull (s : State) (ctx : Nat) : State := modCtx s ctx (fun c => { c with lovf := true })

/-- Units of words written to the log ring from unit u on, and when they are performed; none when the ring's page gives no write.
(DEDUCED, log entry 37) -/
def logWrite (s : State) (ctx u : Nat) (ws : List W64) : Option (State × Nat) :=
  let r := (ctxOf s ctx).lring
  (upto (ws.length / 8)).foldl (fun (os : Option (State × Nat)) i =>
    os.bind (fun p => (devWrite p.1 ctx ((r.base.toNat + 64 * ((u + i) % 2 ^ r.log2n)) % 2 ^ 64)
      ((ws.drop (8 * i)).take 8)).map (fun q => (q.1, max p.2 q.2)))) (some (s, 0))

/-- One record of a wave appended, with the counter as the wave reads it: a filler first where it would wrap (R18, R394). (DEDUCED,
log entry 37) -/
def logRec (s : State) (wid kind addr : Nat) (o : Origin) (data : List Byte) : State :=
  match tget s.waves wid with
  | none => s
  | some w =>
    let c := ctxOf s w.ctx
    let r := c.lring
    if !c.logen || c.lovf then s
    else
      let n := 2 ^ r.log2n
      let nu := logUnits data.length
      let at_ := r.widx.toNat % n
      let fill := if at_ + nu > n then n - at_ else 0
      let used := (r.widx - r.ridx).toNat
      if used + fill + nu > n then logFull s w.ctx
      else
        let now := waveClock s w (coreOfWave s w)
        let hdr := logHeader kind nu w.idx ((blockOf s w).elim 0 (·.idx)) o addr w.wseq now
        let filler := if fill == 0 then [] else
          logHeader 0 fill 0 0 {} 0 0 now ++ List.replicate (8 * (fill - 1)) (0 : W64)
        match logWrite s w.ctx r.widx.toNat (filler ++ hdr ++ padWords data) with
        | none => logFull s w.ctx
        | some (s1, t) =>
          modWave (modCtx (sawTime s1 wid now) w.ctx (fun c => { c with lring := ringPush s.now r (fill + nu) t }))
            wid (fun w => { w with wseq := w.wseq + 1 })

/-! Reading the log back (R396). -/

/-- The replay of a wave's launch, if it is one. -/
def replayOf (s : State) (w : Wave) : Bool :=
  match blockOf s w with
  | none => false
  | some b => ((tget s.launches b.lid).bind (·.replay)).isSome

/-- A log record as found: its first unit, its header words, its data. -/
structure LogRec where
  unit : Nat
  kind : Nat
  nu : Nat
  image : Nat
  off : Nat
  addr : Nat
  data : List Byte
deriving DecidableEq, Repr

/-- The record of a block's wave with a sequence number, read unit by unit from `u`, at most `fuel` records. -/
def findRec (s : State) (ctx blk wave wseq : Nat) : Nat → Nat → Option LogRec
  | 0, _ => none
  | fuel + 1, u =>
    let r := (ctxOf s ctx).lring
    if u == r.widx.toNat then none
    else
      let va := fun i => (r.base.toNat + 64 * ((u + i) % 2 ^ r.log2n)) % 2 ^ 64
      match devWord s ctx (va 0), devWord s ctx (va 0 + 8), devWord s ctx (va 0 + 16), devWord s ctx (va 0 + 24) with
      | some h, some org, some addr, some q =>
        let nu := max 1 (bits h 55 40)
        if bits h 63 56 != 0 && bits h 39 36 == wave && bits h 31 0 == blk && q == wseq then
          let data := (upto (nu - 1)).flatMap (fun i => (devRead s ctx (va (i + 1)) 64).getD [])
          some ⟨u, bits h 63 56, nu, bits org 63 32, bits org 31 0, addr, data⟩
        else findRec s ctx blk wave wseq fuel ((u + nu) % 2 ^ 32)
      | _, _, _, _ => none

/-- A wave's next record (R396). -/
def nextRec (s : State) (w : Wave) : Option LogRec :=
  let r := (ctxOf s w.ctx).lring
  findRec s w.ctx ((blockOf s w).elim 0 (·.idx)) w.idx w.wseq ((r.widx - r.ridx).toNat) r.ridx.toNat

/-- The replay moves past a record: RPPOS names the unit it has reached. -/
def tookRec (s : State) (wid : Nat) (w : Wave) (l : LogRec) : State :=
  modWave (modCtx s w.ctx (fun c => { c with rppos := w64 (l.unit + l.nu) })) wid (fun w => { w with wseq := w.wseq + 1 })

/-- What a wave receives from outside its block: logged, or in a replay supplied by the wave's next record. The answer
is none when the record differs in KIND, IMAGE or OFFSET or none is left (R394, R396). (DEDUCED, log entry 37) -/
def receive (s : State) (wid kind addr : Nat) (o : Origin) (data : List Byte) : Option (State × List Byte) :=
  match tget s.waves wid with
  | none => some (s, data)
  | some w =>
    if replayOf s w then
      match nextRec s w with
      | some l =>
        if l.kind == kind && l.image == o.image && l.off == o.off then
          some (tookRec s wid w l, (upto data.length).map (fun i => l.data.getD i 0))
        else none
      | none => none
    else some (logRec s wid kind addr o data, data)

/-- A replayed event that is not the wave's next record may have to wait for its turn: the record is of another
outstanding word of the wave, or a slot of the wave can still issue (R396). -/
def notTurn (s : State) (wid : Nat) (o : Origin) (self : Option Nat) (slots : List Bool) : Bool :=
  match tget s.waves wid with
  | none => false
  | some w =>
    if !replayOf s w then false
    else match nextRec s w with
      | none => false
      | some l =>
        if l.image == o.image && l.off == o.off then false
        else s.ops.any (fun e => e.2.wid == wid && some e.1 != self && e.2.orig.image == l.image && e.2.orig.off == l.off)
          || slots.any (fun b => (slotOf w b).used && (slotOf w b).park == .run && !(slotOf w b).stuck)

/-! Cairn records (R392, R393). -/

/-- The words of a cairn or marker record known at issue. -/
def cairnWords (kind ctx : Nat) (tag : BitVec 16) (blk image off wave point : Nat) (slotB trapped : Bool)
    (now addr : Nat) : List W64 :=
  [w64 (kind * 2 ^ 60 + ctx * 2 ^ 53 + tag.toNat * 2 ^ 32 + blk), w64 (image * 2 ^ 32 + off), 0,
   w64 (wave * 2 ^ 40 + point * 2 ^ 38 + (if slotB then 2 ^ 37 else 0) + (if trapped then 2 ^ 36 else 0)),
   w64 now, w64 addr, 0, 0]

/-- A record put into the sample ring, or dropped and counted when the ring is full, disabled or unwritable. -/
def samplePush (s : State) (ctx : Nat) (ws : List W64) : State :=
  let r := (ctxOf s ctx).sring
  let drop := modCtx s ctx (fun c => { c with sdrop := satInc c.sdrop })
  if ringFull r then drop
  else match devWrite s ctx (ringSlot r 64) ws with
    | none => drop
    | some (s1, t) => modCtx s1 ctx (fun c => { c with sring := ringPush s.now r 1 t })

/-- The sample of a word that traps while its slot is parked at it is marked as trapped (R393). -/
def markTrapped (s : State) (wid : Nat) (slotB : Bool) (image off : Nat) : State :=
  { s with picks := s.picks.map (fun p =>
      let w3 := (p.words.getD 3 0).toNat
      if p.wid == some wid && p.words.getD 1 0 == w64 (image * 2 ^ 32 + off) && bit w3 37 == slotB && !bit w3 36 then
        { p with words := setAt p.words 3 (w64 (w3 + 2 ^ 36)) }
      else p) }

/-- A word issues: it is the sample that SAMPLE or this period's instant asked for, with the counter as the wave reads it (R18, R227,
R392). -/
def sampleHook (s : State) (wid core : Nat) (w : Wave) (b : Block) (slotB trapped clear : Bool) (off addr : Nat) : State :=
  let due := (ctxOf s w.ctx).speriod != 0 && s.picks.any (fun p => p.core == core && p.ctx == w.ctx && p.drawn && p.wid.isNone && s.now < p.pEnd)
  let lvl := (tget s.waves wid).elim 0 (·.level)
  let s := if lvl == 0 then s else modWave s wid (fun w => { w with level := 0 })
  if !due && w.tag.isNone then s
  else
    let now := waveClock s ((tget s.waves wid).getD w) core
    let ws := cairnWords 1 w.ctx (w.tag.getD 0) b.idx b.var.image off w.idx (ropeOf s (ropeOfCore core)).point slotB
      trapped now addr
    let rest := s.picks.filter (fun p => !(p.core == core && p.ctx == w.ctx && p.drawn && p.wid.isNone))
    let pEnd := (s.picks.filter (fun p => p.core == core && p.ctx == w.ctx)).foldl (fun m p => max m p.pEnd) 0
    modWave { sawTime s wid now with picks := rest ++ [⟨core, w.ctx, pEnd, w.tag.getD 0, some wid, ws, true, lvl⟩] } wid
      (fun w => if clear then { w with tag := none } else w)

end Sys2Proof.Machine
end

