-- ==== Sys2Proof/Machine/Bars.lean ====
section
/-! DEFINITION. Barriers of blocks and rope groups: arrival, phase completion, wake, leaving, breaking (R118 to R121,
R262, R263). -/

namespace Sys2Proof.Machine

/-- The barriers of a block and of its rope group, as one list of a scope. -/
def barsOf (s : State) (b : Block) (rope : Bool) : List Barrier :=
  if rope then (match tget s.groups b.grp with | some g => g.bars | none => []) else b.bars

/-- The barrier that a number names in a block (R44). -/
def barOf (s : State) (b : Block) (num : Nat) : Option Barrier :=
  match b.bars.find? (fun x => x.num == num) with
  | some x => some x
  | none => (barsOf s b true).find? (fun x => x.num == num)

/-- A barrier of a block, or of its rope group, changed. -/
def setBar (s : State) (blk : Nat) (x : Barrier) : State :=
  match tget s.blocks blk with
  | none => s
  | some b =>
    let upd := fun (l : List Barrier) => l.map (fun y => if y.num == x.num && y.rope == x.rope then x else y)
    if x.rope then modGroup s b.grp (fun g => { g with bars := upd g.bars })
    else modBlock s blk (fun b => { b with bars := upd b.bars })

/-- The waves that share a barrier: those of the block, or of the rope group's blocks. -/
def barWaves (s : State) (b : Block) (rope : Bool) : List Nat :=
  if rope then (match tget s.groups b.grp with
    | some g => g.blocks.flatMap (fun k => (tget s.blocks k).elim [] (·.waves))
    | none => [])
  else b.waves

/-- The slot of a wave parked at a barrier's phase. -/
def parkedAt (w : Wave) (x : Barrier) (phase : Nat) : Option Bool :=
  if w.a.park == .barrier x.rope x.num phase then some false
  else if w.b.park == .barrier x.rope x.num phase then some true
  else none

/-- The acquire side at a barrier's scope (R120). -/
def barScope (rope : Bool) : Nat := if rope then 3 else 2

/-- A waiting wave is released: it stands at the next header; the wake is an acquire at the barrier's scope and, from a
rope barrier, a logged event with the phase number (R118, R120, R394). -/
def barWake (s : State) (wid : Nat) (x : Barrier) (phase : Nat) : State :=
  match tget s.waves wid with
  | none => s
  | some w =>
    match parkedAt w x phase with
    | none => s
    | some slotB =>
      let o := match blockOf s w with | some b => originOf b w (wordAddr (slotOf w slotB)) | none => {}
      let s1 := setWave s wid (modSlot w slotB toNextHdr)
      let s2 := if x.rope then logRec s1 wid 5 0 o (bytesOf 8 phase) else s1
      acquireFetch (acquireBy s2 wid (coreOfWave s2 w) (barScope x.rope)) wid

/-- The phase completes when A is at least E: the phase number rises, A is 0, the waiting waves are released (R118). -/
def barCheck (s : State) (blk : Nat) (x : Barrier) : State :=
  if x.arr < x.exp || x.broken then setBar s blk x
  else match tget s.blocks blk with
    | none => s
    | some b =>
      let ws := (barWaves s b x.rope).filter (fun i => ((tget s.waves i).bind (fun w => parkedAt w x x.phase)).isSome)
      let x1 := { x with phase := x.phase + 1, arr := 0, flags := x.flags.filter (fun f => !ws.contains f.1) }
      ws.foldl (fun s i => barWake s i x x.phase) (setBar s blk x1)

/-- An arrival (R119); of the wave's arrivals so far `ever` keeps up to two, so that one that a trap undoes can leave (R239). -/
def barArrive (s : State) (blk wid : Nat) (x : Barrier) : State :=
  barCheck s blk { x with arr := x.arr + 1, flags := (wid, x.phase) :: x.flags, ever := if x.ever.count wid < 2 then wid :: x.ever else x.ever }

/-- A wave leaves a barrier (R121). -/
def barLeave (s : State) (blk wid : Nat) (x : Barrier) : State :=
  let here := x.flags.any (fun f => f.1 == wid && f.2 == x.phase)
  barCheck s blk { x with arr := if here then x.arr - 1 else x.arr, exp := x.exp - 1,
                          flags := x.flags.filter (fun f => f.1 ≠ wid), left := wid :: x.left }

/-- A retiring wave leaves every barrier of its block and rope group that counts it (R117, R121). -/
def leaveBars (s : State) (blk wid : Nat) : State :=
  match tget s.blocks blk with
  | none => s
  | some b =>
    (b.bars ++ barsOf s b true).foldl (fun s x0 =>
      match (tget s.blocks blk).bind (fun b => barOf s b x0.num) with
      | none => s
      | some x => if (x.all || x.ever.contains wid) && !x.left.contains wid then barLeave s blk wid x else s) s

/-- A kill breaks every barrier of the wave's block and rope group (R262). -/
def breakBars (s : State) (blk : Nat) : State :=
  match tget s.blocks blk with
  | none => s
  | some b =>
    let brk := fun (l : List Barrier) => l.map (fun x => { x with broken := true })
    modGroup (modBlock s blk (fun b => { b with bars := brk b.bars })) b.grp (fun g => { g with bars := brk g.bars })

end Sys2Proof.Machine
end

