-- ==== Sys2Proof/Machine/Points.lean ====
section
/-! DEFINITION. The operating point of a rope: hints, the point that R340 chooses, changes and their settling, the clock
(R340, R381, R382). -/

namespace Sys2Proof.Machine

/-- The rope groups resident on a rope: those with a block on it (R341, R384). -/
def residentGroups (s : State) (rope : Nat) : Tbl Group :=
  s.groups.filter (fun e => e.2.rope == rope && !e.2.retired &&
    e.2.blocks.any (fun k => (tget s.blocks k).elim false (fun b => b.res == .resident)))

/-- The operating-point hint of a launch. -/
def hintOf (s : State) (lid : Nat) : Nat := (tget s.launches lid).elim 0 (·.opp)

/-- HINT (R384): the highest hint of the resident rope groups. -/
def ropeHint (s : State) (rope : Nat) : Nat := (residentGroups s rope).foldl (fun m e => max m (hintOf s e.2.lid)) 0

/-- The hints of the launches and blocks for which the Harness has chosen a core of the rope: their placement follows the
change of point (R340). (DEDUCED, log entry 17) -/
def wantedHint (s : State) (rope : Nat) : Nat :=
  (upto 4).foldl (fun m i =>
    let c := coreOf s (4 * rope + i)
    let ls := c.wantL.filter (fun l => (tget s.launches l).elim false (fun l => l.st == .offered))
    let bs := (c.wantB.filterMap (tget s.blocks)).filter (fun b => b.res == .swapped || b.res == .preempted)
    (ls ++ bs.map (·.lid)).foldl (fun m l => max m (hintOf s l)) m) 0

/-- The point that R340 and R381 give a rope. (DEDUCED, log entry 17) -/
def targetPoint (s : State) (rope : Nat) : Nat :=
  if (ropeOf s rope).throttled then 1
  else match max (ropeHint s rope) (wantedHint s rope) with
    | 0 => 2
    | h => h

/-- The point whose clock the rope runs at: the lower while a change settles (R382). -/
def clockPoint (r : Rope) : Nat := if r.settleEnd.isSome then min r.oldPoint r.point else r.point

/-- A change of point is decided when the rope's point is not the one it is to hold (R382). (DEDUCED, log entry 17) -/
def repoint (s : State) (rope : Nat) : State :=
  let p := targetPoint s rope
  if (ropeOf s rope).point == p then s
  else modRope s rope (fun r => { r with oldPoint := clockPoint r, point := p, settleEnd := some (s.now + 20000) })

/-- What a rope waited for has gone elsewhere or ended: each rope holds the point that is now its own (R340, R381). -/
def repointAll (s : State) : State := s.ropes.foldl (fun s e => repoint s e.1) s

end Sys2Proof.Machine
end

