-- ==== Sys2Proof/Machine/Kill.lean ====
section
/-! DEFINITION. The end of waves, blocks, rope groups and launches: gang breaks, cancelled copies, kills, retirement,
completion records (R202, R210, R261, R262, R343). -/

namespace Sys2Proof.Machine

/-! Gangs (R200 to R202). -/

/-- N of a gang register. -/
def gangN (g : W64) : Nat := bits g.toNat 2 0
/-- MEMBERk as block slot and wave index. -/
def gangMember (g : W64) (k : Nat) : Nat × Nat :=
  (bits g.toNat (8 * k + 13) (8 * k + 12), bits g.toNat (8 * k + 11) (8 * k + 8))
/-- The members in list order. -/
def gangMembers (g : W64) : List (Nat × Nat) := (upto (gangN g)).map (gangMember g)

/-- A block's slot in its rope group (R200). -/
def blockSlot (b : Block) : Nat := b.idx % b.var.info.perRope

/-- The wave at a slot and index of a rope group. -/
def memberWave (s : State) (grp : Nat) (m : Nat × Nat) : Option Nat :=
  match tget s.groups grp with
  | none => none
  | some g =>
    match g.blocks.find? (fun k => (tget s.blocks k).elim false (fun b => blockSlot b == m.1)) with
    | none => none
    | some k => ((tget s.blocks k).elim [] (·.waves)).find? (fun i => (tget s.waves i).elim false (fun w => w.idx == m.2))

/-- A latch entry breaks: the issued members' counters drop and each traps before its next word; every member's gang is
broken (R202). -/
def latchBreak (s : State) (rope key sub : Nat) : State :=
  match tget (ropeOf s rope).latch key with
  | none => s
  | some e =>
    let s1 := modRope s rope (fun r => { r with latch := tdel r.latch key })
    let s2 := e.issued.foldl (fun s (p : Nat × Nat) =>
      match tget s.ops p.2 with
      | none => s
      | some o => modWave (endOp s p.2) p.1 (fun w =>
          { w with defer := w.defer ++ [{ cause := 0x0C, sub := sub, orig := o.orig }] })) s1
    (gangMembers e.gang).foldl (fun s m =>
      match memberWave s e.grp m with
      | none => s
      | some i => modWave s i (fun w => { w with gangBad := true })) s2

/-- The open latch entries that list a wave. -/
def latchOf (s : State) (rope grp slot idx : Nat) : List Nat :=
  ((ropeOf s rope).latch.filter (fun e => e.2.grp == grp && (gangMembers e.2.gang).contains (slot, idx))).map (·.1)

/-! Copies (R207, R210). -/

/-- A kill cancels the block's copies that wait for the wave or run (R210). -/
def cancelCopies (b : Block) : Block :=
  { b with copies := b.copies.map (fun e => if e.2.st ≤ 1 || e.2.st == 4 then (e.1, { e.2 with st := 3 }) else e) }

/-! Retirement (R261). -/

/-- The rope groups of a launch (R241); a replay places one block (R396). -/
def launchGroups (l : Launch) : Nat :=
  match l.replay, l.var with
  | some _, _ => 1
  | none, some v => (l.nblocks + v.info.perRope - 1) / v.info.perRope
  | none, none => 0

def waveOver (w : Wave) : Bool := w.st == .retired || w.st == .killed

/-- The cores that the Harness has chosen for a block that is away wait for it no longer, and their shares are due (R354). -/
def forgetWant (s : State) (blk : Nat) : State :=
  { s with cores := s.cores.map (fun e =>
      if e.2.wantB.contains blk then (e.1, { e.2 with wantB := e.2.wantB.filter (· ≠ blk), shareDue := true }) else e) }

/-- A block whose last wave has retired or been killed frees what it holds; so does its rope group (R261). -/
def retireBlock (s : State) (blk : Nat) : State :=
  match tget s.blocks blk with
  | none => s
  | some b =>
    if b.res == .retired || !b.waves.all (fun i => (tget s.waves i).elim true waveOver) then s
    else if b.handler then { s with blocks := tdel s.blocks blk }
    else
      let s1 := modBlock { s with away := s.away.filter (· ≠ blk) } blk
        (fun b => { b with res := .retired, scr := [], area := (0, 0), bufPois := [], qpois := [], qbind := [], qspill := [] })
      let s2 := repointAll (repoint (forgetWant (modCore s1 b.core (fun c => { c with shareDue := true })) blk) (ropeOfCore b.core))
      match tget s2.groups b.grp with
      | none => s2
      | some g =>
        if g.blocks.all (fun k => (tget s2.blocks k).elim true (fun b => b.res == .retired)) then
          modLaunch (modGroup s2 b.grp (fun g => { g with retired := true, quads := [], bars := [] })) b.lid
            (fun l => { l with finished := l.finished + 1 })
        else s2

/-! Kills (R262). -/

/-- The update-only lines of a core's L1 are combined (R262, R303). -/
def combineCore (s : State) (core : Nat) : State :=
  (cachesOf s core).foldl (fun s c =>
    (l1Of s c).foldl (fun (s : State) (e : Nat × Line) =>
      match e.2.st with
      | .upd .. => recallLine s e.1
      | _ => s) s) s

/-- A class-4 word of a completed gang entry runs on without its wave. -/
def keepsRunning (o : Op) : Bool :=
  match o.body with
  | .mat m => !m.latched && m.members.length > 1
  | _ => false

/-- The effects of a kill on one wave, before its block's retirement is looked at (R262). -/
def killRaw (s : State) (wid : Nat) : State :=
  match tget s.waves wid with
  | none => s
  | some w =>
    if waveOver w then s
    else
      let core := coreOfWave s w
      let s1 := match blockOf s w with
        | none => s
        | some b =>
          if b.handler then s
          else (latchOf s (ropeOfCore core) b.grp (blockSlot b) w.idx).foldl
            (fun s k => latchBreak s (ropeOfCore core) k 4) s
      let gone := (s1.ops.filter (fun e => e.2.wid == wid && !keepsRunning e.2)).map (·.1)
      let s2 := gone.foldl endOp s1
      let s3 := { s2 with
        slices := s2.slices.map (fun e => (e.1, { e.2 with mons := e.2.mons.filter (fun m => m.wid ≠ wid) })),
        peerMons := s2.peerMons.filter (fun m => m.wid ≠ wid),
        eps := s2.eps.map (fun e => (e.1, { e.2 with waiters := e.2.waiters.filter (fun i => !gone.contains i) })),
        walks := s2.walks.filter (fun e => e.2.wid ≠ wid),
        ctxs := s2.ctxs.map (fun e => (e.1, { e.2 with preqs := e.2.preqs.map (fun p =>
          { p with joined := p.joined.filter (fun j => j.1 ≠ wid) }) })) }
      let s4 := modWave s3 wid (fun w => { w with
        st := .killed, a := {}, b := {}, shared := [], spills := [], sc := [], ve := [], empty := [], pois := [],
        cnt := {}, trap := none, defer := [], halted := false, stepping := 0, tag := none })
      let s5 := modCore s4 core (fun c => { c with
        active := c.active.filter (· ≠ wid), pending := c.pending.filter (· ≠ wid),
        handler := if c.handler == some wid then none else c.handler })
      let s6 := combineCore s5 core
      match tget s6.blocks w.blk with
      | none => s6
      | some b =>
        if b.handler then s6
        else modLaunch (modBlock (breakBars s6 w.blk) w.blk cancelCopies) b.lid (fun l => { l with killed := true })

/-- A wave is killed, with its handler if one runs for it (R262). -/
def killWave (s : State) (wid : Nat) : State :=
  match tget s.waves wid with
  | none => s
  | some w =>
    let hid := w.trap.bind (·.handler)
    let s1 := match hid with | some h => killRaw s h | none => s
    let s2 := killRaw s1 wid
    let s3 := match hid.bind (tget s.waves) with | some h => retireBlock s2 h.blk | none => s2
    retireBlock s3 w.blk

/-- Every wave of a block is killed (R360, R396). -/
def killBlock (s : State) (blk : Nat) : State :=
  match tget s.blocks blk with
  | none => s
  | some b => b.waves.foldl killWave s

/-- A replayed block whose next record does not match is killed, and RPPOS names the unit at which that was found: the record's, or
the log's end (R396). -/
def replayFail (s : State) (wid : Nat) : State :=
  match tget s.waves wid with
  | none => s
  | some w =>
    let u := (nextRec s w).elim ((ctxOf s w.ctx).lring.widx.toNat) (·.unit)
    killBlock (modCtx s w.ctx (fun c => { c with rppos := w64 u })) w.blk

/-! Completion (R342, R343). -/

/-- CDONE advances over every packet whose completion follows on the last it covers (R335). -/
def cdoneRun : Nat → Nat → List Nat → Nat × List Nat
  | 0, cd, fin => (cd, fin)
  | n + 1, cd, fin => if fin.contains cd then cdoneRun n (cd + 1) (fin.filter (· ≠ cd)) else (cd, fin)

/-- A packet completes: the record at COMPADDR, then CDONE, then the interrupt of SIG (R343). -/
def completePacket (s : State) (lid status : Nat) : State :=
  match tget s.launches lid with
  | none => s
  | some l =>
    let r := if l.comp == 0 then none
      else devWrite s l.ctx l.comp [w64 (status * 2 ^ 56 + l.k % 2 ^ 16), nowW s]
    let s1 := match r with | some (s1, _) => s1 | none => s
    let t := match r with | some (_, t) => t | none => s.now
    let s2 := if l.queue ≥ 16 then s1 else modQueue s1 l.ctx l.queue (fun q =>
      let p := cdoneRun (q.fin.length + 1) q.cd (l.k :: q.fin)
      { q with cd := p.1, fin := p.2 })
    let s3 := modLaunch s2 lid (fun l => { l with st := .done })
    let s4 := { s3 with offers := s3.offers.filter (· ≠ lid) }
    let s5 := repointAll s4
    if l.sig then raiseIrq s5 l.ctx 0 t else s5

/-- The waves of a launch. -/
def launchWaves (s : State) (lid : Nat) : List Nat :=
  (s.blocks.filter (fun e => e.2.lid == lid && !e.2.handler)).flatMap (fun e => e.2.waves)

/-- Every dirty or update-only line of a context is written at its home (R343). -/
def flushCtx (s : State) (ctx : Nat) : State × Nat :=
  s.l1.foldl (fun (p : State × Nat) (e : Nat × Tbl Line) =>
    e.2.foldl (fun (p : State × Nat) (l : Nat × Line) =>
      if l.2.ctx ≠ ctx then p
      else match l.2.st with
        | .dirty by_ _ =>
          let r := performBytes (dropLine p.1 e.1 l.1) by_
          (r.1, max p.2 r.2)
        | .upd .. =>
          let r := recallLineT p.1 l.1
          (r.1, max p.2 r.2)
        | .clean .. => p) p) (s, s.now)

/-- Every dirty line of a context leaves for its home, and its update-only lines are combined (R343). -/
def sendCtx (s : State) (ctx : Nat) : State × Nat :=
  s.l1.foldl (fun (p : State × Nat) (e : Nat × Tbl Line) =>
    e.2.foldl (fun (p : State × Nat) (l : Nat × Line) =>
      if l.2.ctx ≠ ctx then p
      else match l.2.st with
        | .dirty .. => (evictLine p.1 e.1 l.1, p.2)
        | .upd .. =>
          let r := recallLineT p.1 l.1
          (r.1, max p.2 r.2)
        | .clean .. => p) p) (s, s.now)

/-- Every rope group of a launch has retired. -/
def launchOver (s : State) (l : Launch) : Bool :=
  l.st == .placed && l.var.isSome && l.finished == launchGroups l && (ctxOf s l.ctx).st != 2

/-- The latest completion time of the writes of a launch's waves. -/
def launchT (s : State) (lid : Nat) : Nat :=
  (launchWaves s lid).foldl (fun m i => max m ((tget s.waves i).elim 0 (·.lastT))) 0

/-- As the last rope group of a launch has retired, the dirty lines of its context leave for their homes; of the context's writes that
are on their way then, any may be the launch's (R343). (DEDUCED, log entry 42) -/
def flushLaunch (s : State) (lid : Nat) (l : Launch) : State :=
  if l.flushed.isSome then s
  else
    let p := sendCtx s l.ctx
    modLaunch p.1 lid (fun l => { l with flushed := some p.1.nextId, doneT := max (launchT s lid) (max l.doneT p.2) })

/-- A launch whose rope groups have retired completes once every write of it is performed at host scope (R343). -/
def finishLaunch (s : State) (lid : Nat) : State :=
  match tget s.launches lid with
  | none => s
  | some l =>
    if !launchOver s l then s
    else
      let s1 := flushLaunch s lid l
      match tget s1.launches lid with
      | none => s1
      | some l1 =>
        if s1.hw.any (fun e => e.2.ctx == l.ctx && decide (e.1 < l1.flushed.getD 0)) || decide (s1.now < l1.doneT) then s1
        else completePacket s1 lid (if l.killed then 1 else 0)

end Sys2Proof.Machine
end

