-- ==== Sys2Proof/Machine/Maps.lean ====
section
/-! DEFINITION. The maps of a binding set (R245, R247, R304): packed maps, the places of buffers and quads, the symbols that a
budget binds to spill slots, the areas of the spill pool (R249, R351). -/

namespace Sys2Proof.Machine

/-! Packed maps (R247, DESIGN CHOICE, log entry 14). -/

/-- A thing to be packed: its size, its alignment, its intervals, its place once it has one. -/
structure Pack where
  size : Nat
  align : Nat
  lives : List (Nat × Nat)
  at_ : Nat := 0
deriving DecidableEq, Repr

/-- The recorded intervals of a symbol. -/
def livesOf (m : Meta) (cls : SymCls) (n : Nat) : List (Nat × Nat) :=
  (m.lives.filter (fun l => l.cls == cls && l.num == n)).map (fun l => (l.lo, l.hi))

/-- Two symbols are live at one offset. -/
def livesMeet (a b : List (Nat × Nat)) : Bool := a.any (fun x => b.any (fun y => decide (x.1 < y.2) && decide (y.1 < x.2)))

/-- The least multiple of an alignment that is at least n. -/
def alignUp (n a : Nat) : Nat := (n + a - 1) / a * a

/-- The place of the next thing: the lowest that is free of what is live with it, tried at 0 and after each of those. (DESIGN CHOICE,
log entry 14) -/
def packOne (done : List Pack) (p : Pack) : Pack :=
  let foes := done.filter (fun q => livesMeet q.lives p.lives)
  let tries := sortBy (· ≤ ·) (0 :: foes.map (fun q => alignUp (q.at_ + q.size) p.align))
  let free := fun x => foes.all (fun q => decide (x + p.size ≤ q.at_) || decide (q.at_ + q.size ≤ x))
  { p with at_ := (tries.find? free).getD 0 }

/-- Things packed in their order, each with its place. -/
def packAll (ps : List Pack) : List Pack := ps.foldl (fun done p => done ++ [packOne done p]) []

/-- The length of a packed map, its parts in declaration order. (DESIGN CHOICE, log entry 14) -/
def packLen (ps : List Pack) : Nat := (packAll ps).foldl (fun m p => max m (p.at_ + p.size)) 0

/-- The buffers of a variant: a scratchpad offset is a multiple of the alignment and of 128 (R304). -/
def bufPacks (m : Meta) : List Pack :=
  m.bufs.zipIdx.map (fun e => ⟨e.1.size, max 128 e.1.align, livesOf m .buf e.2, 0⟩)

/-- The place of a buffer in its block's part of the scratchpad (R247, R304): buffers whose intervals do not meet may overlie. (DESIGN
CHOICE, log entry 7; DESIGN CHOICE, log entry 14) -/
def bufAt (m : Meta) (buf : Nat) : Nat := ((packAll (bufPacks m))[buf]?).elim 0 (·.at_)

/-- The slot of each quad symbol of a variant in its packed map. (DEDUCED, log entry 18) -/
def quadSlots (m : Meta) : List Nat := (packAll ((upto m.nQ).map (fun n => ⟨1, 1, livesOf m .q n, 0⟩))).map (·.at_)

/-! Spill-bound symbols (R244, R247, R248): at budget V a wave has V vector and V/2 scalar slots. -/

/-- The intervals of a vector pair, which is bound as a unit, or of a scalar symbol. -/
def unitLives (m : Meta) (scalar : Bool) (k : Nat) : List (Nat × Nat) :=
  if scalar then livesOf m .s k else livesOf m .v (2 * k) ++ livesOf m .v (2 * k + 1)

/-- At a budget, a pair or scalar symbol that meets as many lower ones as there are slots is bound to a spill slot; every other
one finds a slot that those do not take. Which are is not architectural. (DESIGN CHOICE, log entry 19) -/
def spillBound (m : Meta) (v : Nat) (scalar : Bool) (n : Nat) : Bool :=
  let k := if scalar then n else n / 2
  let slots := v / 2
  decide (slots ≤ k) &&
    decide (slots ≤ ((upto k).filter (fun j => livesMeet (unitLives m scalar j) (unitLives m scalar k))).length)

/-- Bytes of a vector or scalar symbol at a width. -/
def symBytes (width : Nat) (scalar : Bool) : Nat := if scalar then 8 else 4 * width

/-- Bytes of the spill slots of a block at a budget, with so many quad symbols beyond its allotment. (DESIGN CHOICE, log entry 19) -/
def spillNeed (m : Meta) (width v quads : Nat) : Nat :=
  let count := fun (scalar : Bool) (n : Nat) => if n ≤ (if scalar then v / 2 else v) then 0 else ((upto n).filter (spillBound m v scalar)).length
  m.waves * (count false m.nV * symBytes width false + count true m.nS * symBytes width true) + quads * 4096

/-- Bytes of the divergence stacks of a block's waves, 32 entries of 32 bytes each (R105). (DESIGN CHOICE, log entry 19) -/
def stackNeed (m : Meta) : Nat := m.waves * 32 * 32

/-- Bytes of the state of a block that is away (R255): its symbols at its budget, its bound quads, its buffers, and for each wave 8
KiB of predicates, slots, stacks and counters. (DESIGN CHOICE, log entry 19) -/
def savedNeed (m : Meta) (width v : Nat) : Nat :=
  m.waves * (v * symBytes width false + v / 2 * symBytes width true + 8192) + m.quadsLive * 4096 + packLen (bufPacks m)

/-- Bytes of a block's spill area (R249). (DESIGN CHOICE, log entry 19) -/
def areaNeed (m : Meta) (width v quads : Nat) : Nat := spillNeed m width v quads + stackNeed m + savedNeed m width v

/-- Quad symbols of the i-th block of a rope group beyond an allotment of so many quads. -/
def quadsBeyond (m : Meta) (i quads : Nat) : Nat :=
  if m.nQ == 0 then 0
  else ((quadSlots m).filter (fun x => decide (m.quadsLive ≤ x) || decide (quads ≤ i * m.quadsLive + x))).length

/-! The spill pool (R249, R351). -/

/-- The areas of a context's blocks, apart from one. -/
def areasOf (s : State) (ctx skip : Nat) : List (Nat × Nat) :=
  (s.blocks.filter (fun e => e.1 != skip && e.2.ctx == ctx && e.2.res != .retired && e.2.area.2 != 0)).map (·.2.area)

/-- The lowest place in a context's pool for an area that no other takes; none where it does not fit. (DESIGN CHOICE, log entry 19) -/
def areaFor (s : State) (ctx : Nat) (taken : List (Nat × Nat)) (need : Nat) : Option (Nat × Nat) :=
  let pool := (ctxOf s ctx).spillmib * 1048576
  let free := fun x => decide (x + need ≤ pool) && taken.all (fun a => decide (x + need ≤ a.1) || decide (a.1 + a.2 ≤ x))
  ((sortBy (· ≤ ·) (0 :: taken.map (fun a => a.1 + a.2))).find? free).map (fun x => (x, need))

/-- Areas for several blocks that are placed together. -/
def areasFor (s : State) (ctx : Nat) : List Nat → List (Nat × Nat) → Option (List (Nat × Nat))
  | [], _ => some []
  | n :: r, taken => (areaFor s ctx taken n).bind (fun a => (areasFor s ctx r (a :: taken)).map (fun l => a :: l))

end Sys2Proof.Machine
end

