-- ==== Sys2Proof/Machine/Ops.lean ====
section
/-! DEFINITION. The issue of an instruction word and the taking of a trap: the order of trap conditions, guards, operand
checks, the trap record, its delivery, the return from a handler (R54, R55, R58 to R61, R65, R69, R70, R104, R224,
R229 to R235, R317, R385). -/

namespace Sys2Proof.Machine

/-- The outcome of a step. -/
abbrev Out := Host.Outcome State Fault Refusal

/-! Operands (R44, R45, R66). -/

/-- An operand of a word: the field it stands in (0 d, 1 a, 2 b, 3 c), its class, the field's value, how many symbols it
covers, whether they are read and written, and the multiple its field must be. -/
structure Opnd where
  field : Nat
  cls : SymCls
  f : Nat
  n : Nat := 1
  rd : Bool := false
  wr : Bool := false
  al : Nat := 1
deriving DecidableEq, Repr

/-- The window's first symbol of a class in a slot (R44). -/
def winBase (x : Slot) : SymCls → Nat
  | .v => 128 * x.ctl.winV.toNat
  | .s => 128 * x.ctl.winS.toNat
  | .q => 128 * x.ctl.winQ.toNat
  | _ => 0

/-- The first symbol of an operand. -/
def opNum (x : Slot) (o : Opnd) : Nat := winBase x o.cls + o.f
/-- The symbols of an operand. -/
def opNums (x : Slot) (o : Opnd) : List Nat := (upto o.n).map (fun i => opNum x o + i)

/-- A symbol of a class is below its class's count, or declared by the kernel (R45). -/
def declared (s : State) (b : Block) (cls : SymCls) (n : Nat) : Bool :=
  match cls with
  | .v => n < b.var.info.nV
  | .s => n < b.var.info.nS
  | .q => n < b.var.info.nQ
  | .p => n < 32
  | .buf => n < b.var.info.bufs.length
  | .bar => (barOf s b n).isSome

/-- An operand's slots that are empty to this word; a class-4 word does not wait for quads that its own wave's class-4
words emptied (R54, R196). -/
def emptyTo (b : Block) (wid : Nat) (w : Wave) (x : Slot) (mat : Bool) (o : Opnd) : Bool :=
  match o.cls with
  | .v => (opNums x o).any (isEmpty w .v)
  | .s => (opNums x o).any (isEmpty w .s)
  | .q => b.qempty.any (fun e => (opNums x o).contains e.num && !(mat && e.wid == wid))
  | _ => false

/-- The poison mark that a word reads first; a quad with an uncorrectable error counts as one (R399). -/
def poisonRead (b : Block) (w : Wave) (x : Slot) (ops : List Opnd) : Option PoisonMark :=
  (ops.filter (·.rd)).findSome? (fun o =>
    (opNums x o).findSome? (fun n =>
      if o.cls == .q && b.qpois.contains n then some ⟨.q, n, 2, {}, 0⟩
      else w.pois.find? (fun p => p.cls == o.cls && p.num == n)))

/-! Traps (R229 to R235). -/

/-- What a word's trap condition supplies. `kind` is the page request's KIND (R318). -/
structure TrapInfo where
  cause : Nat
  sub : Nat
  fmask : Lanes := 0
  addr : Nat := 0
  elem : Nat := 0
  orig : Option Origin := none
  extra : W64 := 0
  kind : Nat := 1
deriving DecidableEq, Repr

/-- The trap of a word that reads a mark: a poisoned value names the word it came from, an error in the block's own storage
names none (R229, R231). (DESIGN CHOICE, log entry 45) -/
def poisonTrap (p : PoisonMark) : TrapInfo :=
  { cause := 0x14, sub := p.sub, addr := p.addr, orig := if p.sub == 1 then some p.orig else none }

/-- The code of a class in DCLS. (DEDUCED, log entry 46) -/
def dcls : SymCls → Nat
  | .v => 0
  | .s => 1
  | .q => 2
  | .p => 3
  | .buf => 4
  | .bar => 5

/-- The 32 words of a trap record, with the counter as its wave reads it (R18, R231). (DEDUCED, log entry 46) -/
def mkRecord (now : Nat) (b : Block) (x : Slot) (slotB : Bool) (p : Site) (t : TrapInfo) : List W64 :=
  let flv := t.fmask != 0
  let src := fun i => if flv then w64 (p.srcs.getD i 0) else 0
  let o := t.orig.getD {}
  [w64 (t.sub * 2 ^ 32 + (if slotB then 2 ^ 15 else 0) + (if flv then 2 ^ 14 else 0) + lowLane t.fmask * 2 ^ 8 + t.cause),
   w64 (b.var.image * 2 ^ 32 + imgOff b.var p.addr),
   w64 (imgOff b.var p.clause * 2 ^ 32 + p.word),
   w64 p.hdr.toNat,
   w64 (p.w2.toNat * 2 ^ 32 + p.w1.toNat),
   p.live, t.fmask, src 0, src 1, src 2,
   (match p.dest with | some (c, n, k) => w64 (k * 2 ^ 16 + dcls c * 2 ^ 12 + n) | none => 0),
   w64 t.addr, w64 t.elem, w64 now,
   w64 (x.ctl.mode.toNat * 2 ^ 32 + x.ctl.winV.toNat * 2 ^ 16 + x.ctl.winS.toNat * 2 ^ 8 + x.ctl.winQ.toNat),
   w64 (o.image * 2 ^ 32 + o.off),
   w64 (o.blk * 2 ^ 32 + (if t.orig.isSome then 16 else 0) + o.wave),
   t.extra] ++ List.replicate 14 0

/-- The variant that a variant descriptor names: 64-byte aligned, readable, its data loaded (R345, DESIGN CHOICE, log entry 8). -/
def variantAt (s : State) (ctx addr : Nat) : Option Variant :=
  if addr % 64 != 0 then none
  else match devWord s ctx addr, devWord s ctx (addr + 8), devWord s ctx (addr + 16) with
    | some text, some w1, some w2 =>
      if (upto 5).all (fun i => devWord s ctx (addr + 24 + 8 * i) == some 0) then
        (tget (ctxOf s ctx).metas w2).map (fun m => ⟨text, bits w1 63 32, bits w1 31 0, m⟩)
      else none
    | _, _, _ => none

/-- A variant accepts a width: its .wave names it, or names none (R345). -/
def accepts (v : Variant) (width : Nat) : Bool := v.info.width == 0 || v.info.width == width

/-- The handler registered for a context at a width (R233, R351). -/
def handlerOf (s : State) (ctx width : Nat) : Option Variant :=
  let h := (ctxOf s ctx).handler.toNat
  if h == 0 then none else (variantAt s ctx h).bind (fun v => if accepts v width then some v else none)

/-- A taken trap is delivered (R233, R234): a handler's trap kills it and its parked wave; with no handler registered the
wave is killed; otherwise the wave parks with its record until its handler runs. -/
def deliverTrap (s : State) (wid : Nat) (slotB atHdr : Bool) (rec : List W64) : State :=
  match tget s.waves wid with
  | none => s
  | some w =>
    let bi := (blockOf s w).elim 0 (·.idx)
    match w.parent with
    | some pid =>
      let precord := ((tget s.waves pid).bind (·.trap)).elim [] (·.words)
      killWave (faultLog (faultLog s w.ctx precord bi w.idx 2) w.ctx rec bi w.idx 3) pid
    | none =>
      match handlerOf s w.ctx w.width with
      | none => killWave (faultLog s w.ctx rec bi w.idx 1) wid
      | some _ =>
        setWave s wid { modSlot w slotB (fun x => { x with park := .trapped, phase := 0, walked := [] }) with
          trap := some { words := rec, slotB := slotB, atHdr := atHdr, handler := none } }

/-- A trap is taken at a word or a header: the record is filled and delivered. -/
def takeTrap (s : State) (wid : Nat) (slotB : Bool) (p : Site) (t : TrapInfo) : State :=
  match tget s.waves wid with
  | none => s
  | some w =>
    match blockOf s w with
    | none => s
    | some b =>
      let now := waveClock s w b.core
      deliverTrap (sawTime s wid now) wid slotB p.atHdr (mkRecord now b (slotOf w slotB) slotB p t)

/-! Page requests (R317, R318). -/

/-- The lowest tag that is free. -/
def freeTag (c : Ctx) : Option Nat := (upto 4096).find? (fun t => !c.preqs.any (fun p => p.tag == t))

/-- A translation fault becomes a page request: it joins an outstanding one on its 64 KiB range, or makes a record; the
slot parks. With no tag or no ring entry the trap is taken. (DEDUCED, log entry 31) -/
def pageRequest (s : State) (wid : Nat) (slotB : Bool) (p : Site) (t : TrapInfo) : State :=
  match tget s.waves wid with
  | none => s
  | some w =>
    match blockOf s w with
    | none => s
    | some b =>
      let now := waveClock s w b.core
      let rec_ := mkRecord now b (slotOf w slotB) slotB p t
      let park := fun (s : State) tag => modWave (sawTime s wid now) wid (fun w => modSlot w slotB (fun x =>
        { x with park := .pageReq tag rec_, walked := [] }))
      let c := ctxOf s w.ctx
      match c.preqs.find? (fun r => r.page == t.addr / 65536) with
      | some r =>
        park (modCtx s w.ctx (fun c => { c with preqs := c.preqs.map (fun q =>
          if q.tag == r.tag then { q with joined := q.joined ++ [(wid, slotB)] } else q) })) r.tag
      | none =>
        match freeTag c with
        | none => takeTrap s wid slotB p t
        | some tag =>
          if ringFull c.prq then takeTrap s wid slotB p t
          else match devWrite s w.ctx (ringSlot c.prq 32)
              [w64 t.addr, w64 (b.var.image * 2 ^ 32 + imgOff b.var p.addr),
               w64 (b.idx * 2 ^ 32 + w.idx * 2 ^ 28 + w.ctx * 2 ^ 16 + tag * 2 ^ 4 + t.kind), w64 now] with
            | none => takeTrap s wid slotB p t
            | some (s1, tw) =>
              park (raiseIrq (modCtx s1 w.ctx (fun c => { c with
                prq := ringPush s.now c.prq 1 tw,
                preqs := c.preqs ++ [⟨tag, t.addr / 65536, s.now, [(wid, slotB)]⟩] })) w.ctx 4 tw) tag

/-- A trap condition met at a word or header: a replayable translation fault, or a trap (R317). -/
def raise (s : State) (wid : Nat) (slotB : Bool) (p : Site) (t : TrapInfo) : State :=
  match tget s.waves wid with
  | none => s
  | some w =>
    if (ctxOf s w.ctx).replay && t.cause == 6 && (t.sub == 1 || t.sub == 3) then pageRequest s wid slotB p t
    else takeTrap s wid slotB p t

/-! The return from a handler (R224). -/

/-- Where ERESUME sends the parked wave. -/
inductive Resume where
  | retry | skip
  | jump (pc : Nat)
deriving DecidableEq, Repr

/-- .skip is accepted: at a word, or at a header after clause format subcode 2, 3 or 4 (R224). -/
def skipOk (t : Trap) : Bool :=
  !t.atHdr || ((t.words.getD 0 0).toNat % 256 == 3 && 2 ≤ bits (t.words.getD 0 0).toNat 63 32
    && bits (t.words.getD 0 0).toNat 63 32 ≤ 4)

/-- The slot's word is issued again; a word that could not be fetched is fetched again. -/
def rearm (x : Slot) : Slot :=
  let y := { x with park := .run, phase := 0, walked := [] }
  if x.words.any (fun f => match f with | .bad _ _ => true | .ok _ => false) then { y with words := [] } else y

/-- Where a slot stands now. -/
def standOf (x : Slot) : Stand := ⟨x.pc, x.inClause, x.hdr, x.hdrW, x.idx, x.words, x.mask, x.ctl⟩
/-- A slot set to stand at a place. -/
def putStand (x : Slot) (t : Stand) : Slot :=
  { x with pc := t.pc, inClause := t.inClause, hdr := t.hdr, hdrW := t.hdrW, idx := t.idx, words := t.words, mask := t.mask,
           ctl := t.ctl, phase := 0, walked := [] }
/-- A slot that issues a class-4 word again stands back where it was (R240). -/
def comeBack (x : Slot) : Slot :=
  match x.back with
  | t :: rest => { putStand x t with back := rest }
  | [] => x
/-- The same, for a slot whose control goes elsewhere. -/
def leaveBack (x : Slot) : Slot := { (x.back.getLast?).elim x (putStand x) with back := [] }

/-- The trapping slot continues (R68, R224): the word again, the word after it, the header after it, or a target. A class-4 word that
has trapped at the engine is put where the slot stands, to be issued again before the slot goes on from there (R240).
(DEDUCED, log entry 44) -/
def resumeSlot (t : Trap) (r : Resume) (x : Slot) : Slot :=
  let y := rearm x
  let hdr := (t.words.getD 3 0).toNat
  match r with
  | .retry => (match t.again with | some st => { putStand y st with back := standOf y :: y.back } | none => y)
  | .jump pc => { leaveBack y with inClause := false, pc := pc, idx := 0, words := [] }
  | .skip =>
    if t.stay || (!t.atHdr && !x.inClause) then y
    else if !x.back.isEmpty then comeBack y
    else if t.atHdr then { y with pc := y.pc + 4 * (bits hdr 3 0 + 1) }
    else
      let n := if bit (t.words.getD 4 0).toNat 25 then 2 else 1
      if x.idx + n ≥ hdrCount x.hdrW then toNextHdr y else { y with idx := x.idx + n }

/-- The parked wave resumes and its handler retires (R224). -/
def resumeWave (s : State) (hid pid : Nat) (r : Resume) : State :=
  let s1 := modWave s pid (fun w =>
    match w.trap with
    | none => w
    | some t => { modSlot w t.slotB (resumeSlot t r) with trap := none })
  match tget s1.waves hid with
  | none => s1
  | some h =>
    let core := coreOfWave s1 h
    let s2 := modCore (setWave s1 hid { h with st := .retired }) core (fun c => { c with handler := none })
    retireBlock s2 h.blk

/-! The issue of a word (R69). -/

/-- What the body of a word sees. -/
structure IC where
  wid : Nat
  slotB : Bool
  w : Wave
  x : Slot
  b : Block
  core : Nat
  live : Lanes
  u : UW
deriving DecidableEq, Repr

/-- What the body of a word does. -/
inductive Eff where
  /-- It completes and the slot moves to its next word or header. -/
  | done (s : State)
  /-- It completes, and the wave ranks last in the next arbitration (R257). -/
  | yields (s : State)
  /-- It completes and control goes to a header. -/
  | jump (s : State) (pc : Nat)
  /-- It completes and has set the slot itself. -/
  | set (s : State)
  /-- Its trap condition is met. -/
  | trap (s : State) (t : TrapInfo)
  /-- It waits at issue. -/
  | wait (s : State)
deriving DecidableEq, Repr

/-- The fixed facts of an instruction word: its fields, its reserved-field check at a width, whether its guard is taken
per lane, whether it must be last (R61), whether only a handler may issue it (R221), whether it is a class-4 word,
whether it joins gangs (R201), whether it is SAMPLE, the fields that it uses even with no lane live (R140, R332), its operands, a
destination that a value it reads selects (R223), and the address that a cairn record gives it (R393). -/
structure WSpec where
  u : UW
  ok : Nat → Bool
  lanes : Bool := false
  last : Bool := false
  hOnly : Bool := false
  mat : Bool := false
  gang : Bool := false
  tags : Bool := false
  always : List Nat := []
  ops : Nat → List Opnd := fun _ => []
  dest : Wave → Slot → Option Opnd := fun _ _ => none
  addr : IC → Nat := fun _ => 0

/-- Lanes that the guard selects (R65); guard 8 passes nowhere. (DEDUCED, log entry 39) -/
def guardLanes (w : Wave) (g : Nat) : Lanes :=
  if g == 0 then BitVec.allOnes 64
  else if g ≤ 7 then prGet w g
  else if 9 ≤ g then ~~~(prGet w (g - 8))
  else 0

/-- A wave-level word executes (R65). -/
def guardWave (w : Wave) (mask : Lanes) (g : Nat) : Bool :=
  if g == 0 then true
  else if g ≤ 7 then prGet w g &&& mask != 0
  else if 9 ≤ g then prGet w (g - 8) &&& mask == 0
  else false

/-- lane_live (R71): the lanes of MASK for which the guard passes; a wave-level word's guard passes for all or none. -/
def liveLanes (lanes : Bool) (w : Wave) (mask : Lanes) (g : Nat) : Lanes :=
  mask &&& allLanes w.width &&& (if lanes then guardLanes w g else if guardWave w mask g then BitVec.allOnes 64 else 0)

/-- The effective priority number of a wave (R259, R260). -/
def effPrio (s : State) (w : Wave) (b : Block) : Nat :=
  if b.handler then 0
  else (tget s.launches b.lid).elim 0 (·.prio) - (s.now - w.readyAt) / 65536

/-- The power allowance does not withhold a priority number on a rope (R385). (DESIGN CHOICE, log entry 11) -/
def powerOk (r : Rope) (prio : Nat) : Bool :=
  r.deficit == 0 || r.deficit ≤ Config.emax - Config.emax / 2 ||
    (r.deficit ≤ Config.emax && prio ≤ 32 * (Config.emax - r.deficit) / (Config.emax / 2))

/-- The cost of an event subtracted from a rope's energy (R385). (DESIGN CHOICE, log entry 11) -/
def spend (s : State) (rope kind : Nat) : State :=
  modRope s rope (fun r => { r with deficit := r.deficit + Config.energyCost kind })
/-- The cost of n events. -/
def spendN (s : State) (rope kind n : Nat) : State :=
  modRope s rope (fun r => { r with deficit := r.deficit + n * Config.energyCost kind })

/-- A parked slot that holds the whole wave: a trap or a page request (R233, R317). -/
def holdsWave (x : Slot) : Bool :=
  match x.park with
  | .trapped => true
  | .pageReq _ _ => true
  | _ => false

/-- A stop freezes a core for a wave of a context: for every wave until the dump is written, and after a dump buffer fault for the
waves of other contexts as long as the stop still holds (R322, R323, R326). (DEDUCED, log entry 34) -/
def frozenFor (d : Dbg) (ctx : Nat) : Bool := d.frozen && !(d.stops.isEmpty && d.dump.isEmpty && d.stopCtx == some ctx)

/-- A wave is offered the issue slot only while it is live, resident, in the active set or the handler slot, not parked
by a trap or a page request, not halted or frozen, and not withheld (R233, R257, R317, R323, R385). -/
def waveRuns (s : State) (wid : Nat) (w : Wave) (b : Block) : Bool :=
  w.st == .live && w.trap.isNone && !w.halted && !frozenFor (coreOf s b.core).dbg w.ctx && b.res == .resident
    && !holdsWave w.a && !holdsWave w.b
    && ((coreOf s b.core).active.contains wid || (coreOf s b.core).handler == some wid)
    && powerOk (ropeOf s (ropeOfCore b.core)) (effPrio s w b)

/-- A slot is offered the issue slot only while it holds a path and is not parked. -/
def slotRuns (x : Slot) : Bool := x.used && x.park == .run

/-- A word issued: the ready time, the power, the watchdog (R259, R362, R385). -/
def issued (s : State) (wid core : Nat) : State :=
  match tget s.waves wid with
  | none => s
  | some w =>
    let s1 := setWave s wid { w with readyAt := s.now, a := unstick w.a, b := unstick w.b }
    let s2 := modCtx s1 w.ctx (fun c => { c with dlStart := none })
    spend (modCore s2 core (fun c => { c with yields := [] })) (ropeOfCore core) 0

/-- A wave ranks last in the next arbitration of its core (R257). -/
def yieldIf (s : State) (core wid : Nat) (y : Bool) : State :=
  if y then modCore s core (fun c => { c with yields := wid :: c.yields }) else s
/-- The yield hint of a header (R58). -/
def hdrYield (h : W32) : Bool := h.getLsbD 28

/-- The slot moves past a word of n words; at the clause's end it stands at the next header (R58, R104); after a class-4 word issued
again it stands where it stood (R240). -/
def advance (s : State) (wid : Nat) (slotB : Bool) (n : Nat) : State :=
  modWave s wid (fun w =>
    let x := slotOf w slotB
    if !x.back.isEmpty then setSlot w slotB (comeBack x)
    else if x.idx + n ≥ hdrCount x.hdrW then setSlot w slotB (toNextHdr x)
    else setSlot w slotB { x with idx := x.idx + n, phase := 0, acq := x.acq, walked := [] })

/-- The slot goes to a header (R104). -/
def goTo (s : State) (wid : Nat) (slotB : Bool) (pc : Nat) : State :=
  modWave s wid (fun w => modSlot w slotB (fun x => { toNextHdr x with pc := pc }))

/-- The raw word of a slot at an index, 0 when it was not fetched. -/
def rawWord (x : Slot) (i : Nat) : W32 := match x.words.getD i (.bad 0 0) with | .ok w => w | .bad _ _ => 0

/-- The place of the slot's word in a record. -/
def wordSite (w : Wave) (x : Slot) (sp : WSpec) (ops : List Opnd) (live : Lanes) (t : TrapInfo) : Site :=
  let src := fun f => (ops.find? (fun o => o.field == f && o.rd)).elim 0 (fun o =>
    match o.cls with
    | .v => if o.n ≥ 2 then pairGet w (opNum x o) (lowLane t.fmask) else (veGet w (opNum x o) (lowLane t.fmask)).toNat
    | .s => (scGet w (opNum x o)).toNat
    | _ => 0)
  let w1 := rawWord x x.idx
  { clause := x.hdr, word := x.idx, hdr := x.hdrW, w1 := w1, w2 := if sp.u.two then rawWord x (x.idx + 1) else 0,
    addr := wordAddr x, live := live,
    dest := ((sp.dest w x).or (ops.find? (fun o => (o.field == 0 || o.cls == .buf) && o.wr || o.cls == .bar))).map
      (fun o => (o.cls, opNum x o, o.n)),
    srcs := [src 1, src 2, src 3] }

/-- The trap condition that the operand fields meet (R45, R69 step 5): a symbol beyond its count, then a quad field of
the wrong multiple, then another field of the wrong multiple. (DEDUCED, log entry 39) -/
def boundTrap (s : State) (b : Block) (x : Slot) (ops : List Opnd) : Option TrapInfo :=
  if ops.any (fun o => (opNums x o).any (fun n => !declared s b o.cls n)) then some { cause := 4, sub := 1 }
  else if ops.any (fun o => o.cls == .q && o.f % o.al != 0) then some { cause := 4, sub := 3 }
  else if ops.any (fun o => o.f % o.al != 0) then some { cause := 4, sub := 4 }
  else none

/-- What an empty slot does to a word (R55, R59, R69 step 6). -/
inductive EmptyRes where
  | full | waits
  | traps (t : TrapInfo)
deriving DecidableEq, Repr

def emptyCheck (b : Block) (wid : Nat) (w : Wave) (x : Slot) (mat : Bool) (ops : List Opnd) : EmptyRes :=
  let rd := (ops.filter (·.rd)).any (emptyTo b wid w x mat)
  let wr := (ops.filter (·.wr)).any (emptyTo b wid w x mat)
  if !rd && !wr then .full
  else if !emptyTrap x then .waits
  else if rd then .traps { cause := 5, sub := 0 } else .traps { cause := 5, sub := 1 }

/-- The words of an instruction. -/
def UW.words (u : UW) : Nat := if u.two then 2 else 1

/-- A slot stands at a header: between clauses, or parked by a wait whose word is its clause's last (R327, R330). -/
def standsAtHdr (x : Slot) : Bool :=
  !x.inClause || (match x.park with
    | .barrier .. => true
    | .monitor _ => true
    | .mbrecv _ => true
    | .cpyw _ => true
    | _ => false)

/-- What STEP keeps of a wave that it releases: 1, and 2 and 4 for its slots A and B that stand at a header already. -/
def stepCode (w : Wave) : Nat := 1 + (if standsAtHdr w.a then 2 else 0) + (if standsAtHdr w.b then 4 else 0)
/-- A stepped wave's slot stands where it stood at STEP, at a header that it has still to pass. -/
def stepPasses (n : Nat) (slotB : Bool) : Bool := bit n (if slotB then 2 else 1)

/-- A wave that STEP has released halts as it reaches a header, and a fresh dump is due (R327). -/
def stepHalt (s : State) (wid core : Nat) (slotB : Bool) : State :=
  match tget s.waves wid with
  | none => s
  | some w =>
    if w.stepping != 0 && w.st == .live && standsAtHdr (slotOf w slotB) then
      modCore (setWave s wid { w with halted := true, stepping := 0 }) core (fun c =>
        { c with dbg := { c.dbg with fresh := some w.ctx, dumped := false } })
    else s

/-- The slot leaves its clause with a word of n words. -/
def leavesClause (x : Slot) (n : Nat) : Bool := x.back.isEmpty && decide (x.idx + n ≥ hdrCount x.hdrW)

/-- A word of a slot completes and the slot moves past it: the yield hint at the clause's end, STEP's halt, the sample (R58, R227,
R327, R392). `clear`: the word takes SAMPLE's mark. -/
def completeWord (s : State) (wid : Nat) (slotB : Bool) (w : Wave) (b : Block) (x : Slot) (words : Nat) (clear : Bool) (addr : Nat) : State :=
  let s1 := yieldIf (advance (issued s wid b.core) wid slotB words) b.core wid (leavesClause x words && hdrYield x.hdrW)
  sampleHook (stepHalt s1 wid b.core slotB) wid b.core w b slotB false clear (imgOff b.var (wordAddr x)) addr

/-- The operands that a word which has run reads and writes: with no lane live, or its guard not passing, only a scalar that it writes
even then (R65, R140, R332). -/
def touched (sp : WSpec) (k : IC) (ops : List Opnd) : List Opnd :=
  if sp.lanes && k.live == 0 then ops.filter (fun o => o.cls == .s && o.wr && sp.always.contains o.field)
  else if !sp.lanes && !guardWave k.w k.x.mask k.u.g then [] else ops

/-- Bytes of fills and spills of a word: each vector or scalar symbol that it reads and that is spill-bound is filled, each that
it writes is spilled (R248). -/
def spillBytes (k : IC) (ops : List Opnd) : Nat :=
  ops.foldl (fun n o =>
    if o.cls != .v && o.cls != .s then n
    else n + (o.rd.toNat + o.wr.toNat) *
      ((opNums k.x o).filter (spillBound k.b.var.info k.b.budget (o.cls == .s))).length * symBytes k.w.width (o.cls == .s)) 0

/-- Spill traffic counted: SPILLKIB counts whole KiB (R248, R350). -/
def countSpillBytes (s : State) (ctx n : Nat) : State :=
  if n == 0 then s
  else modCtx s ctx (fun c => { c with spillkib := satAdd c.spillkib ((c.spillRem + n) / 1024), spillRem := (c.spillRem + n) % 1024 })

/-- The slot is parked by a page request: its word has not trapped (R317). -/
def requested (s : State) (wid : Nat) (slotB : Bool) : Bool :=
  (tget s.waves wid).elim false (fun w => match (slotOf w slotB).park with | .pageReq .. => true | _ => false)

/-- The effect of a body on the machine. -/
def settle (sp : WSpec) (k : IC) (ops : List Opnd) (e : Eff) : State :=
  let off := imgOff k.b.var (wordAddr k.x)
  let hint := fun leaves s => yieldIf s k.core k.wid (leaves && hdrYield k.x.hdrW)
  let moved := fun s trapped => if trapped then s else countSpillBytes s k.w.ctx (spillBytes k (touched sp k ops))
  let hook := fun s trapped => sampleHook (stepHalt (moved s trapped) k.wid k.core k.slotB) k.wid k.core k.w k.b k.slotB trapped
    (!sp.tags || trapped || !guardWave k.w k.x.mask sp.u.g) off (sp.addr k)
  match e with
  | .done s => hook (hint (leavesClause k.x sp.u.words) (advance (issued s k.wid k.core) k.wid k.slotB sp.u.words)) false
  | .yields s => hook (yieldIf (advance (issued s k.wid k.core) k.wid k.slotB sp.u.words) k.core k.wid true) false
  | .jump s pc => hook (hint true (goTo (issued s k.wid k.core) k.wid k.slotB pc)) false
  | .set s => hook (hint true (issued s k.wid k.core)) false
  | .trap s t =>
    let s1 := raise (issued s k.wid k.core) k.wid k.slotB (wordSite k.w k.x sp ops k.live t) t
    if requested s1 k.wid k.slotB then s1 else hook s1 true
  | .wait s => modWave s k.wid (fun w => modSlot w k.slotB (fun x => { x with stuck := true }))

/-- The operands whose slots must be full before a word issues: with no lane live a lane-level word reads none, and those that it leaves
full are the vectors of its destination and the fields that it uses even so (R54, R55, R332). -/
def usedOps (sp : WSpec) (k : IC) (ops : List Opnd) : List Opnd :=
  if sp.lanes && k.live == 0 then
    (ops.filter (fun o => sp.always.contains o.field || (o.field == 0 && o.cls == .v && o.wr))).map
      (fun o => if o.field == 0 then { o with rd := false } else o)
  else ops

/-- The checks of R69 before a word's own conditions, in their order, then its body. The symbol bound of R45 is checked
also where a lane-level word has no live lane (DESIGN CHOICE, log entry 53). -/
def checked (sp : WSpec) (k : IC) (ops : List Opnd) (s : State) (body : IC → State → Eff) : Eff :=
  if sp.last && k.x.idx + sp.u.words < hdrCount k.x.hdrW then .trap s { cause := 3, sub := 5 }
  else if !sp.ok k.w.width then .trap s { cause := 2, sub := 0 }
  else if sp.hOnly && !k.b.handler then .trap s { cause := 7, sub := 8 }
  else if !sp.lanes && !guardWave k.w k.x.mask k.u.g then .done s
  else match boundTrap s k.b k.x ops with
    | some t => .trap s t
    | none =>
      let used := usedOps sp k ops
      match emptyCheck k.b k.wid k.w k.x sp.mat used with
        | .waits => .wait s
        | .traps t => .trap s t
        | .full =>
          match poisonRead k.b k.w k.x used with
          | some p => .trap s (poisonTrap p)
          | none => body k s

/-- A deferred trap that parked its wave: after a gang break, or a trap of a class-4 word at the engine, a skip goes on where the slot
stands, and a retry issues that word again (R202, R240). -/
def markDeferred (s : State) (wid : Nat) (d : Deferred) : State :=
  modWave s wid (fun w => { w with trap := w.trap.map (fun t =>
    { t with stay := d.cause == 0x0C || d.again.isSome, again := d.again.map (·.stand) }) })

/-- The trap that a wave owes, taken before a word that a slot is about to issue, whose place is `here`. The trap of a class-4 word at
the engine is recorded at that word (R202, R229, R235, R240). (DEDUCED, log entry 44) -/
def takeDeferred (s : State) (wid : Nat) (slotB : Bool) (w : Wave) (b : Block) (here : Site) (d : Deferred) : State :=
  let t : TrapInfo := { cause := d.cause, sub := d.sub, fmask := d.fmask, elem := d.elem, addr := d.addr, orig := d.orig }
  match d.again with
  | none => markDeferred (raise s wid slotB { here with srcs := [d.src0.toNat, 0, 0] } t) wid d
  | some e =>
    let now := waveClock s w b.core
    let on := if slotRuns (slotOf w e.slotB) then e.slotB else slotB
    markDeferred (deliverTrap (sawTime s wid now) wid on false
      (mkRecord now b { slotOf w on with ctl := e.stand.ctl } e.slotB e.site t)) wid d

/-- A ganged MM, MMG or MMB of a member that is not the leader: its d field is not read (R201). -/
def gangFollower (b : Block) (w : Wave) : Bool :=
  gangN w.gang != 0 && gangMember w.gang 0 != (blockSlot b, w.idx)

/-- The word that the cursor's slot offers is issued. -/
def issueWord (sp : WSpec) (body : IC → State → Eff) (s : State) : Out :=
  match s.cur with
  | none => .next s
  | some c =>
    match tget s.waves c.wid with
    | none => .next s
    | some w =>
      match blockOf s w with
      | none => .next s
      | some b =>
        let x := slotOf w c.slotB
        if !waveRuns s c.wid w b || !slotRuns x || !x.inClause then .next s
        else
          let live := liveLanes sp.lanes w x.mask sp.u.g
          let k : IC := ⟨c.wid, c.slotB, w, x, b, b.core, live, sp.u⟩
          let ops := if sp.gang && gangFollower b w then (sp.ops w.width).filter (fun o => o.field != 0) else sp.ops w.width
          match w.defer with
          | d :: rest =>
            .next (takeDeferred (setWave s c.wid { w with defer := rest }) c.wid c.slotB w b (wordSite w x sp ops live { cause := d.cause, sub := d.sub }) d)
          | [] => .next (settle sp k ops (checked sp k ops s body))

end Sys2Proof.Machine
end

