-- ==== Sys2Proof/Machine/Fetch.lean ====
section
/-! DEFINITION. Instruction fetch through a core's instruction cache, kernel guards, and the scan for the matching word
of a structured word (R104, R106, R164, R229, R230, R299, R315, R399). -/

namespace Sys2Proof.Machine

/-- What a fetch of one word gives. -/
inductive FetchRes where
  | got (s : State) (w : W32)
  | walk
  | bad (cause sub : Nat)
deriving DecidableEq, Repr

/-- The words that an instruction cache holds: 64 KiB (R299). -/
def icacheWords : Nat := 16384

/-- A fetched word enters the core's instruction cache; of a full one another word leaves, which one is not architectural
(R299). (DESIGN CHOICE, log entry 13) -/
def icachePut (s : State) (core pa : Nat) (w : W32) : State :=
  let t := tgetD s.icache core []
  if t.length < icacheWords then { s with icache := tput s.icache core (tput t pa w) }
  else
    let victim := (t.map (·.1)).getD ((Config.freeValue s.fresh).toNat % t.length) 0
    { s with icache := tput s.icache core (tput (tdel t victim) pa w), fresh := s.fresh + 1 }

/-- A word on its way to a core arrives. -/
def fetchTaken (s : State) (core pa : Nat) : State :=
  { s with fetches := tset [] s.fetches core (tdel (tgetD s.fetches core []) pa) }

/-- A fetch of a core reads a word at its home, ahead of its use (R282). (DESIGN CHOICE, log entry 4) -/
def fetchAhead (s : State) (core pa : Nat) : State :=
  if pa % 4 != 0 || !isStorage s pa || unitPois s pa then s
  else { s with
    fetches := tput s.fetches core (tput (tgetD s.fetches core []) pa (w32 (peekNum s pa 4), s.nextId)), nextId := s.nextId + 1 }

/-- An address in the text of an image loaded with pod sharing, in a domain, for whose image no binding set is held yet: the
text is mapped without execute permission (R347). -/
def podBarred (s : State) (ctx va : Nat) : Bool :=
  s.dev.domsize != 0 && (ctxOf s ctx).pods.any (fun p =>
    p.va ≤ va && va < p.va + p.len && !s.dev.bindings.any (fun e => e.1 == sha384 p.image))

/-- The word at a virtual address as the wave's core fetches it: from its instruction cache, else a word that is on its way,
else from memory (R282). -/
def fetchWord (s : State) (core ctx : Nat) (x : Slot) (va : Nat) : FetchRes :=
  match xlatKnown s core ctx x va with
  | none => .walk
  | some none => .bad 6 3
  | some (some l) =>
    if !l.x || podBarred s ctx va then .bad 7 3
    else
      let pa := leafPa s l va
      match tget (tgetD s.icache core []) pa with
      | some w => .got s w
      | none => match tget (tgetD s.fetches core []) pa with
        | some f => .got (icachePut (fetchTaken s core pa) core pa f.1) f.1
        | none =>
          if unitPois s pa then .bad 0x14 1
          else
            let w := w32 (peekNum s pa 4)
            .got (icachePut s core pa w) w

/-- Words fetched one after another; a walk that is needed ends the list. -/
def fetchMany (s : State) (core ctx : Nat) (x : Slot) : Nat → Nat → State × List FetchW × Bool
  | 0, _ => (s, [], true)
  | n + 1, va =>
    match fetchWord s core ctx x va with
    | .walk => (s, [], false)
    | .bad c k =>
      let r := fetchMany s core ctx x n (va + 4)
      (r.1, .bad c k :: r.2.1, r.2.2)
    | .got s1 w =>
      let r := fetchMany s1 core ctx x n (va + 4)
      (r.1, .ok w :: r.2.1, r.2.2)

/-- An address lies in the 64-byte guard of a kernel of the image (R31, R230). -/
def inGuard (v : Variant) (va : Nat) : Bool :=
  v.info.guards.any (fun g => v.text + g ≤ va + v.info.off0 && va + v.info.off0 < v.text + g + 64)

/-- A header carries the mark 0b11 (R58). -/
def marked (h : W32) : Bool := h.extractLsb' 30 2 == 3

/-! The scan of R106. -/

/-- What a scan has found or met. -/
inductive Scan where
  | found (s : State) (els : Option Loc) (fin : Loc)
  | walk (s : State) (va : Nat)
  | bad (s : State) (cause sub addr : Nat)
deriving DecidableEq, Repr

/-- The scan within a clause: the words from index i of a class-0 clause, with the depth and the ELSE found so far. The
answer is the closing word, or the depth and ELSE to go on with. -/
def scanClause (hdr nxt : Nat) (isIf : Bool) : List W32 → Nat → Nat → Option Loc → Sum (Option Loc × Loc) (Nat × Option Loc)
  | [], _, depth, els => .inr (depth, els)
  | [w], i, depth, els => scanOne hdr nxt isIf w i depth els
  | w :: w2 :: rest, i, depth, els =>
    match scanOne hdr nxt isIf w i depth els with
    | .inl r => .inl r
    | .inr (d, e) =>
      if w.getLsbD 25 then scanClause hdr nxt isIf rest (i + 2) d e
      else scanClause hdr nxt isIf (w2 :: rest) (i + 1) d e
where
  /-- One word of the scan: of two ELSE words at depth 0 before the ENDIF the first is the IF's (DESIGN CHOICE, log entry 53). -/
  scanOne (hdr nxt : Nat) (isIf : Bool) (w : W32) (i depth : Nat) (els : Option Loc) :
      Sum (Option Loc × Loc) (Nat × Option Loc) :=
    let op := bits w.toNat 31 25
    if op == 74 || op == 80 || op == 81 then .inr (depth + 1, els)
    else if op == 78 || op == 86 then
      if depth == 0 then .inl (els, ⟨hdr, i, nxt⟩) else .inr (depth - 1, els)
    else if op == 76 && depth == 0 && isIf && els.isNone then .inr (depth, some ⟨hdr, i, nxt⟩)
    else .inr (depth, els)

/-- The scan from a header on, clause by clause. -/
def scanFrom (v : Variant) (core ctx : Nat) (x : Slot) (isIf : Bool) : Nat → State → Nat → Nat → Option Loc → Scan
  | 0, s, _, _, _ => .bad s 0x0D 6 0
  | fuel + 1, s, hdr, depth, els =>
    if inGuard v hdr then .bad s 0x0D 6 0
    else match fetchWord s core ctx x hdr with
      | .walk => .walk s hdr
      | .bad c k => .bad s c k hdr
      | .got s1 h =>
        if !marked h then .bad s1 0x0D 6 0
        else
          let n := hdrCount h
          let r := fetchMany s1 core ctx x n (hdr + 4)
          if !r.2.2 then .walk s1 (hdr + 4 + 4 * r.2.1.length)
          else match r.2.1.zipIdx.findSome? (fun e => match e.1 with | .bad c k => some (c, k, e.2) | .ok _ => none) with
            | some (c, k, i) => .bad r.1 c k (hdr + 4 + 4 * i)
            | none =>
              let ws := if hdrClass h == 0 then r.2.1.map (fun f => match f with | .ok w => w | .bad _ _ => 0) else []
              match scanClause hdr (hdr + 4 * (n + 1)) isIf ws 0 depth els with
              | .inl (e, l) => .found r.1 e l
              | .inr (d, e) => scanFrom v core ctx x isIf fuel r.1 (hdr + 4 * (n + 1)) d e

/-- More clauses than the address space holds: what ends a scan is a header, a guard or a failed fetch (R106). -/
def scanReach : Nat := 2 ^ 62

/-- The matching words of the structured word that the slot stands at. -/
def scan (s : State) (b : Block) (core ctx : Nat) (x : Slot) (isIf : Bool) : Scan :=
  scanFrom b.var core ctx x isIf scanReach s (nextHdr x) 0 none

end Sys2Proof.Machine
end

