-- ==== Sys2Proof/Machine/Operands.lean ====
section
/-! DEFINITION. The operand forms of the cards: which class a field names and whether it is read or written (R44, R66,
R97, R122), and the values they give. -/

namespace Sys2Proof.Machine

/-- A destination and sources in the fields d, a, b and c. -/
def dS (u : UW) : Opnd := { field := 0, cls := .s, f := u.d, wr := true }
def aS (u : UW) : Opnd := { field := 1, cls := .s, f := u.a, rd := true }
def bS (u : UW) : Opnd := { field := 2, cls := .s, f := u.b, rd := true }
def cS (u : UW) : Opnd := { field := 3, cls := .s, f := u.c, rd := true }
/-- n vector symbols from a field that must be a multiple of al. -/
def dV (u : UW) (n : Nat) : Opnd := { field := 0, cls := .v, f := u.d, n := n, wr := true, al := n }
def aV (u : UW) (n : Nat) : Opnd := { field := 1, cls := .v, f := u.a, n := n, rd := true, al := n }
def bV (u : UW) (n : Nat) : Opnd := { field := 2, cls := .v, f := u.b, n := n, rd := true, al := n }
def cV (u : UW) (n : Nat) : Opnd := { field := 3, cls := .v, f := u.c, n := n, rd := true, al := n }
/-- A vector source that stands in the field d (R156). -/
def dVr (u : UW) (n : Nat) : Opnd := { field := 0, cls := .v, f := u.d, n := n, rd := true, al := n }
/-- The destination read and written (SBFI, VBFI). -/
def dSrw (u : UW) : Opnd := { dS u with rd := true }
def dVrw (u : UW) : Opnd := { dV u 1 with rd := true }
/-- Predicate, buffer and barrier fields. -/
def dP (u : UW) : Opnd := { field := 0, cls := .p, f := u.d, wr := true }
def aP (u : UW) : Opnd := { field := 1, cls := .p, f := u.a, rd := true }
def bP (u : UW) : Opnd := { field := 2, cls := .p, f := u.b, rd := true }
def aBar (u : UW) : Opnd := { field := 1, cls := .bar, f := u.a }
def aBuf (u : UW) : Opnd := { field := 1, cls := .buf, f := u.a }
/-- The buffer that STS writes. -/
def aBufW (u : UW) : Opnd := { field := 1, cls := .buf, f := u.a, wr := true }
def bBuf (u : UW) : Opnd := { field := 2, cls := .buf, f := u.b }
def dBuf (u : UW) : Opnd := { field := 0, cls := .buf, f := u.d, wr := true }

/-- Scalar forms: d from a and b; d from a; a and b alone; d alone; a alone (R97, R101). -/
def sDAB (u : UW) : List Opnd := [dS u, aS u, bS u]
def sDA (u : UW) : List Opnd := [dS u, aS u]
def sAB (u : UW) : List Opnd := [aS u, bS u]
def sD (u : UW) : List Opnd := [dS u]
def sA (u : UW) : List Opnd := [aS u]

/-- The scalar symbol that a field names in the slot's window. -/
def sNum (k : IC) (f : Nat) : Nat := 128 * k.x.ctl.winS.toNat + f
/-- The vector symbol that a field names in the slot's window. -/
def vNum (k : IC) (f : Nat) : Nat := 128 * k.x.ctl.winV.toNat + f
/-- The quad symbol that a field names in the slot's window. -/
def qNum (k : IC) (f : Nat) : Nat := 128 * k.x.ctl.winQ.toNat + f
/-- The scalar source of a field. -/
def sVal (k : IC) (f : Nat) : W64 := scGet k.w (sNum k f)

/-- A scalar written whole, its poison gone (R54, R399). -/
def putS (w : Wave) (n : Nat) (v : W64) : Wave := unPoison (scPut w n v) .s n
/-- The scalar destination of the word is written. -/
def setD (k : IC) (s : State) (v : W64) : State := modWave s k.wid (fun w => putS w (sNum k k.u.d) v)

/-- A vector symbol or pair written in the live lanes; written whole, its poison goes. -/
def putV (w : Wave) (wide : Bool) (n : Nat) (live : Lanes) (f : Nat → Nat) : Wave :=
  let w1 := vPut w wide n live f
  if live == allLanes w.width then
    let w2 := unPoison w1 .v n
    if wide then unPoison w2 .v (n + 1) else w2
  else w1
/-- The vector destination of the word is written in its live lanes. -/
def setV (k : IC) (s : State) (wide : Bool) (f : Nat → Nat) : State :=
  modWave s k.wid (fun w => putV w wide (vNum k k.u.d) k.live f)

/-- The slot of the word changed. -/
def setX (k : IC) (s : State) (f : Slot → Slot) : State := modWave s k.wid (fun w => modSlot w k.slotB f)
/-- MODE, windows or codes of the slot changed: in force from its next word (R47, R52, R95). -/
def setCtl (k : IC) (s : State) (f : Ctl → Ctl) : State := setX k s (fun x => { x with ctl := f x.ctl })

/-- The type of a word, with the card's default (R97, R122). -/
def tyOf (u : UW) (dflt : Nat) : Nat := if u.ty == 0 then dflt else u.ty

/-- imm11 or imm25 of a word, sign-extended (R100). -/
def immS (u : UW) : Int := if u.two then sextI u.imm 25 else sextI u.imm 11

end Sys2Proof.Machine
end

