-- ==== Sys2Proof/Machine/Flags.lean ====
section
/-! DEFINITION. The condition codes and the conditions that test them (R95, R96, R101). -/

namespace Sys2Proof.Machine

/-- Z, N, C and V of x - y at w bits (R101). -/
def cmpCodes (w x y : Nat) (c : Ctl) : Ctl :=
  let x := x % 2 ^ w
  let y := y % 2 ^ w
  let r := wrapI w ((x : Int) - (y : Int))
  { c with z := r == 0, n := bit r (w - 1), c := decide (y ≤ x),
           v := sextI r w != sextI x w - sextI y w }

/-- Conditions 0 to 9 on the codes (R96). -/
def condCodes (code : Nat) (c : Ctl) : Bool :=
  match code with
  | 0 => c.z
  | 1 => !c.z
  | 2 => c.n != c.v
  | 3 => c.n == c.v
  | 4 => !c.c
  | 5 => c.c
  | 6 => !c.z && c.n == c.v
  | 7 => c.z || c.n != c.v
  | 8 => c.c && !c.z
  | _ => !c.c || c.z

/-- Conditions 16 to 19 on a predicate within MASK (R96). -/
def condPred (code : Nat) (p mask : Lanes) : Bool :=
  match code with
  | 16 => p &&& mask != 0
  | 17 => p &&& mask == 0
  | 18 => ~~~p &&& mask == 0
  | _ => ~~~p &&& mask != 0

/-- A condition of BR (R96, R103). -/
def condBr (w : Wave) (x : Slot) (code p : Nat) : Bool :=
  if code < 16 then condCodes code x.ctl else condPred code (prGet w p) x.mask

/-- MODE holds no reserved bit and no reserved RND (R52). -/
def modeOk (m : Nat) : Bool := m < 2 ^ 13 && !bit m 7 && m % 8 ≤ 4

end Sys2Proof.Machine
end

