-- ==== Sys2Proof/Machine/Scalar.lean ====
section
/-! DEFINITION. The scalar instructions of class 0 (R97 to R102). -/

namespace Sys2Proof.Machine

/-- A w-bit number read as a type's signedness says (R98). -/
def sval (sg : Bool) (w x : Nat) : Int := if sg then sextI x w else ((x % 2 ^ w : Nat) : Int)

/-- The greatest and least values of a type. -/
def tyMax (sg : Bool) (w : Nat) : Int := if sg then 2 ^ (w - 1) - 1 else 2 ^ w - 1
def tyMin (sg : Bool) (w : Nat) : Int := if sg then -(2 ^ (w - 1)) else 0

/-- A result clamped to a type's range. -/
def clampTy (sg : Bool) (w : Nat) (r : Int) : Int := max (tyMin sg w) (min (tyMax sg w) r)

/-- The functions of the scalar and vector integer moulds, on w-bit sources (R99, R125). -/
inductive AluOp where
  | add | sub | mul | mulhi | div | rem | and | or | xor | shl | shr | sra | min | max | clz | popc | not | abs | neg
deriving DecidableEq, Repr

/-- The exact integer that a function gives (R99). -/
def alu (f : AluOp) (sg : Bool) (w x y : Nat) : Int :=
  let xs := sval sg w x
  let ys := sval sg w y
  let xn := x % 2 ^ w
  let yn := y % 2 ^ w
  match f with
  | .add => xs + ys
  | .sub => xs - ys
  | .mul => xs * ys
  | .mulhi => xs * ys / (2 ^ w : Nat)
  | .div => if yn == 0 then -1 else xs.tdiv ys
  | .rem => if yn == 0 then xs else xs.tmod ys
  | .and => ((xn &&& yn : Nat) : Int)
  | .or => ((xn ||| yn : Nat) : Int)
  | .xor => ((xn ^^^ yn : Nat) : Int)
  | .shl => ((xn <<< (yn % w) : Nat) : Int)
  | .shr => ((xn >>> (yn % w) : Nat) : Int)
  | .sra => sextI xn w / (2 ^ (yn % w) : Nat)
  | .min => if xs ≤ ys then xs else ys
  | .max => if ys ≤ xs then xs else ys
  | .clz => (clz w xn : Int)
  | .popc => (popc w xn : Int)
  | .not => ((2 ^ w - 1 - xn : Nat) : Int)
  | .abs => if xs < 0 then -xs else xs
  | .neg => -xs

/-- The w-bit pattern of a mould's result: clamped under .sat, else modulo 2^w. -/
def aluBits (f : AluOp) (sg sat : Bool) (w x y : Nat) : Nat :=
  let r := alu f sg w x y
  wrapI w (if sat then clampTy sg w r else r)

/-- A w-bit pattern extended to 64 bits as its type is signed (R98). -/
def ext64 (sg : Bool) (w r : Nat) : W64 := if sg then BitVec.ofInt 64 (sextI r w) else w64 r

/-- The scalar mould at a type on the values x and y (R98). -/
def scResult (f : AluOp) (t : Nat) (sat : Bool) (x y : Nat) : W64 :=
  ext64 (isSigned t) (tyWidth t) (aluBits f (isSigned t) sat (tyWidth t) x y)

/-- A register form (R98, R99). -/
def scReg (f : AluOp) (k : IC) (s : State) : Eff :=
  .done (setD k s (scResult f (tyOf k.u 7) (bit k.u.card 0) (sVal k k.u.a).toNat (sVal k k.u.b).toNat))

/-- An immediate form, at .i64 without saturation (R100). -/
def scImm (f : AluOp) (k : IC) (s : State) : Eff :=
  .done (setD k s (scResult f 7 false (sVal k k.u.a).toNat (wrapI 64 (immS k.u))))

/-- SCMP and SCMPI (R101). -/
def scCmp (t y : Nat) (k : IC) (s : State) : Eff :=
  .done (setCtl k s (cmpCodes (tyWidth t) (sVal k k.u.a).toNat y))
def scCmpReg (k : IC) (s : State) : Eff := scCmp (tyOf k.u 7) (sVal k k.u.b).toNat k s
def scCmpImm (k : IC) (s : State) : Eff := scCmp 7 (wrapI 64 (immS k.u)) k s

/-- SSEL (R101): the one-word form tests .eq. -/
def scSel (k : IC) (s : State) : Eff :=
  .done (setD k s (if condCodes (bits k.u.card 4 0) k.x.ctl then sVal k k.u.a else sVal k k.u.b))

/-- SMOV, SMOVI, SLUI (R101). -/
def scMov (k : IC) (s : State) : Eff := .done (setD k s (sVal k k.u.a))
def scMovI (k : IC) (s : State) : Eff := .done (setD k s (BitVec.ofInt 64 (immS k.u)))
def scLui (k : IC) (s : State) : Eff :=
  .done (setD k s (w64 ((sVal k k.u.a).toNat <<< (if k.u.two then 25 else 11) ||| k.u.imm)))

/-- The field of len bits at pos of x, bits above the width w read as 0 (R101). -/
def bfe (sx : Bool) (w x pos len : Nat) : Nat :=
  let fld := ((x % 2 ^ w) >>> pos) % 2 ^ len
  if sx then wrapI w (sextI fld len) else fld

/-- x inserted into d at pos (R101). -/
def bfi (w d x pos len : Nat) : Nat :=
  let m := ((2 ^ len - 1) <<< pos) % 2 ^ w
  (d &&& (2 ^ w - 1 - m)) ||| ((x <<< pos) &&& m)

/-- SBFE and SBFI (R101). -/
def scBfe (k : IC) (s : State) : Eff :=
  let c := (sVal k k.u.b).toNat
  .done (setD k s (w64 (bfe (tyOf k.u 8 == 7) 64 (sVal k k.u.a).toNat (bits c 5 0) (min (bits c 14 8) 64))))
def scBfi (k : IC) (s : State) : Eff :=
  let c := (sVal k k.u.b).toNat
  .done (setD k s (w64 (bfi 64 (sVal k k.u.d).toNat (sVal k k.u.a).toNat (bits c 5 0) (min (bits c 14 8) 64))))

/-- The argument bytes of the wave's launch; a handler has none (R101, R339). (DEDUCED, log entry 36) -/
def argsOf (s : State) (b : Block) : List Byte :=
  if b.handler then [] else (tget s.launches b.lid).elim [] (·.args)

/-- SARG (R101): the size, then misaligned, then beyond the argument block. -/
def scArg (k : IC) (s : State) : Eff :=
  let size := 2 ^ k.u.a
  let off := bits k.u.imm 10 0
  let args := argsOf s k.b
  if 3 < k.u.a then .trap s { cause := 2, sub := 0 }
  else if off % size != 0 then .trap s { cause := 8, sub := 1 }
  else if args.length < off + size then .trap s { cause := 2, sub := 0 }
  else .done (setD k s (ext64 k.u.two (8 * size) (ofBytes ((args.drop off).take size))))

/-- SADD, one word (R97 to R99). -/
def execSadd (w : CW) (s : State) : Out :=
  issueWord { u := ucw w, ok := fun _ => ok1 (ucw w), ops := fun _ => sDAB (ucw w) } (scReg .add) s

/-- SADD_LONG, two words (R97 to R99). -/
def execSaddLong (w : CW) (m : ModW) (s : State) : Out :=
  issueWord { u := umw w m, ok := fun _ => ok1 (umw w m), ops := fun _ => sDAB (umw w m) } (scReg .add) s

/-- SADDI, one word (R100). -/
def execSaddi (w : IW) (s : State) : Out :=
  issueWord { u := uiw w, ok := fun _ => ok2 (uiw w), ops := fun _ => sDA (uiw w) } (scImm .add) s

/-- SADDI_LONG, two words (R100). -/
def execSaddiLong (w : CW) (x : XW) (s : State) : Out :=
  issueWord { u := uiw2 w x, ok := fun _ => ok2 (uiw2 w x), ops := fun _ => sDA (uiw2 w x) } (scImm .add) s

/-- SSUB, one word (R97 to R99). -/
def execSsub (w : CW) (s : State) : Out :=
  issueWord { u := ucw w, ok := fun _ => ok1 (ucw w), ops := fun _ => sDAB (ucw w) } (scReg .sub) s

/-- SSUB_LONG, two words (R97 to R99). -/
def execSsubLong (w : CW) (m : ModW) (s : State) : Out :=
  issueWord { u := umw w m, ok := fun _ => ok1 (umw w m), ops := fun _ => sDAB (umw w m) } (scReg .sub) s

/-- SMUL, one word (R97 to R99). -/
def execSmul (w : CW) (s : State) : Out :=
  issueWord { u := ucw w, ok := fun _ => ok1 (ucw w), ops := fun _ => sDAB (ucw w) } (scReg .mul) s

/-- SMUL_LONG, two words (R97 to R99). -/
def execSmulLong (w : CW) (m : ModW) (s : State) : Out :=
  issueWord { u := umw w m, ok := fun _ => ok1 (umw w m), ops := fun _ => sDAB (umw w m) } (scReg .mul) s

/-- SMULHI, one word (R97 to R99). -/
def execSmulhi (w : CW) (s : State) : Out :=
  issueWord { u := ucw w, ok := fun _ => ok3 (ucw w), ops := fun _ => sDAB (ucw w) } (scReg .mulhi) s

/-- SMULHI_LONG, two words (R97 to R99). -/
def execSmulhiLong (w : CW) (m : ModW) (s : State) : Out :=
  issueWord { u := umw w m, ok := fun _ => ok3 (umw w m), ops := fun _ => sDAB (umw w m) } (scReg .mulhi) s

/-- SDIV, one word (R97 to R99). -/
def execSdiv (w : CW) (s : State) : Out :=
  issueWord { u := ucw w, ok := fun _ => ok3 (ucw w), ops := fun _ => sDAB (ucw w) } (scReg .div) s

/-- SDIV_LONG, two words (R97 to R99). -/
def execSdivLong (w : CW) (m : ModW) (s : State) : Out :=
  issueWord { u := umw w m, ok := fun _ => ok3 (umw w m), ops := fun _ => sDAB (umw w m) } (scReg .div) s

/-- SREM, one word (R97 to R99). -/
def execSrem (w : CW) (s : State) : Out :=
  issueWord { u := ucw w, ok := fun _ => ok3 (ucw w), ops := fun _ => sDAB (ucw w) } (scReg .rem) s

/-- SREM_LONG, two words (R97 to R99). -/
def execSremLong (w : CW) (m : ModW) (s : State) : Out :=
  issueWord { u := umw w m, ok := fun _ => ok3 (umw w m), ops := fun _ => sDAB (umw w m) } (scReg .rem) s

/-- SAND, one word (R97 to R99). -/
def execSand (w : CW) (s : State) : Out :=
  issueWord { u := ucw w, ok := fun _ => ok3 (ucw w), ops := fun _ => sDAB (ucw w) } (scReg .and) s

/-- SAND_LONG, two words (R97 to R99). -/
def execSandLong (w : CW) (m : ModW) (s : State) : Out :=
  issueWord { u := umw w m, ok := fun _ => ok3 (umw w m), ops := fun _ => sDAB (umw w m) } (scReg .and) s

/-- SANDI, one word (R100). -/
def execSandi (w : IW) (s : State) : Out :=
  issueWord { u := uiw w, ok := fun _ => ok2 (uiw w), ops := fun _ => sDA (uiw w) } (scImm .and) s

/-- SANDI_LONG, two words (R100). -/
def execSandiLong (w : CW) (x : XW) (s : State) : Out :=
  issueWord { u := uiw2 w x, ok := fun _ => ok2 (uiw2 w x), ops := fun _ => sDA (uiw2 w x) } (scImm .and) s

/-- SOR, one word (R97 to R99). -/
def execSor (w : CW) (s : State) : Out :=
  issueWord { u := ucw w, ok := fun _ => ok3 (ucw w), ops := fun _ => sDAB (ucw w) } (scReg .or) s

/-- SOR_LONG, two words (R97 to R99). -/
def execSorLong (w : CW) (m : ModW) (s : State) : Out :=
  issueWord { u := umw w m, ok := fun _ => ok3 (umw w m), ops := fun _ => sDAB (umw w m) } (scReg .or) s

/-- SORI, one word (R100). -/
def execSori (w : IW) (s : State) : Out :=
  issueWord { u := uiw w, ok := fun _ => ok2 (uiw w), ops := fun _ => sDA (uiw w) } (scImm .or) s

/-- SORI_LONG, two words (R100). -/
def execSoriLong (w : CW) (x : XW) (s : State) : Out :=
  issueWord { u := uiw2 w x, ok := fun _ => ok2 (uiw2 w x), ops := fun _ => sDA (uiw2 w x) } (scImm .or) s

/-- SXOR, one word (R97 to R99). -/
def execSxor (w : CW) (s : State) : Out :=
  issueWord { u := ucw w, ok := fun _ => ok3 (ucw w), ops := fun _ => sDAB (ucw w) } (scReg .xor) s

/-- SXOR_LONG, two words (R97 to R99). -/
def execSxorLong (w : CW) (m : ModW) (s : State) : Out :=
  issueWord { u := umw w m, ok := fun _ => ok3 (umw w m), ops := fun _ => sDAB (umw w m) } (scReg .xor) s

/-- SXORI, one word (R100). -/
def execSxori (w : IW) (s : State) : Out :=
  issueWord { u := uiw w, ok := fun _ => ok2 (uiw w), ops := fun _ => sDA (uiw w) } (scImm .xor) s

/-- SXORI_LONG, two words (R100). -/
def execSxoriLong (w : CW) (x : XW) (s : State) : Out :=
  issueWord { u := uiw2 w x, ok := fun _ => ok2 (uiw2 w x), ops := fun _ => sDA (uiw2 w x) } (scImm .xor) s

/-- SSHL, one word (R97 to R99). -/
def execSshl (w : CW) (s : State) : Out :=
  issueWord { u := ucw w, ok := fun _ => ok3 (ucw w), ops := fun _ => sDAB (ucw w) } (scReg .shl) s

/-- SSHL_LONG, two words (R97 to R99). -/
def execSshlLong (w : CW) (m : ModW) (s : State) : Out :=
  issueWord { u := umw w m, ok := fun _ => ok3 (umw w m), ops := fun _ => sDAB (umw w m) } (scReg .shl) s

/-- SSHLI, one word (R100). -/
def execSshli (w : IW) (s : State) : Out :=
  issueWord { u := uiw w, ok := fun _ => ok4 (uiw w), ops := fun _ => sDA (uiw w) } (scImm .shl) s

/-- SSHLI_LONG, two words (R100). -/
def execSshliLong (w : CW) (x : XW) (s : State) : Out :=
  issueWord { u := uiw2 w x, ok := fun _ => ok4 (uiw2 w x), ops := fun _ => sDA (uiw2 w x) } (scImm .shl) s

/-- SSHR, one word (R97 to R99). -/
def execSshr (w : CW) (s : State) : Out :=
  issueWord { u := ucw w, ok := fun _ => ok3 (ucw w), ops := fun _ => sDAB (ucw w) } (scReg .shr) s

/-- SSHR_LONG, two words (R97 to R99). -/
def execSshrLong (w : CW) (m : ModW) (s : State) : Out :=
  issueWord { u := umw w m, ok := fun _ => ok3 (umw w m), ops := fun _ => sDAB (umw w m) } (scReg .shr) s

/-- SSHRI, one word (R100). -/
def execSshri (w : IW) (s : State) : Out :=
  issueWord { u := uiw w, ok := fun _ => ok4 (uiw w), ops := fun _ => sDA (uiw w) } (scImm .shr) s

/-- SSHRI_LONG, two words (R100). -/
def execSshriLong (w : CW) (x : XW) (s : State) : Out :=
  issueWord { u := uiw2 w x, ok := fun _ => ok4 (uiw2 w x), ops := fun _ => sDA (uiw2 w x) } (scImm .shr) s

/-- SSRA, one word (R97 to R99). -/
def execSsra (w : CW) (s : State) : Out :=
  issueWord { u := ucw w, ok := fun _ => ok3 (ucw w), ops := fun _ => sDAB (ucw w) } (scReg .sra) s

/-- SSRA_LONG, two words (R97 to R99). -/
def execSsraLong (w : CW) (m : ModW) (s : State) : Out :=
  issueWord { u := umw w m, ok := fun _ => ok3 (umw w m), ops := fun _ => sDAB (umw w m) } (scReg .sra) s

/-- SSRAI, one word (R100). -/
def execSsrai (w : IW) (s : State) : Out :=
  issueWord { u := uiw w, ok := fun _ => ok4 (uiw w), ops := fun _ => sDA (uiw w) } (scImm .sra) s

/-- SSRAI_LONG, two words (R100). -/
def execSsraiLong (w : CW) (x : XW) (s : State) : Out :=
  issueWord { u := uiw2 w x, ok := fun _ => ok4 (uiw2 w x), ops := fun _ => sDA (uiw2 w x) } (scImm .sra) s

/-- SMIN, one word (R97 to R99). -/
def execSmin (w : CW) (s : State) : Out :=
  issueWord { u := ucw w, ok := fun _ => ok3 (ucw w), ops := fun _ => sDAB (ucw w) } (scReg .min) s

/-- SMIN_LONG, two words (R97 to R99). -/
def execSminLong (w : CW) (m : ModW) (s : State) : Out :=
  issueWord { u := umw w m, ok := fun _ => ok3 (umw w m), ops := fun _ => sDAB (umw w m) } (scReg .min) s

/-- SMAX, one word (R97 to R99). -/
def execSmax (w : CW) (s : State) : Out :=
  issueWord { u := ucw w, ok := fun _ => ok3 (ucw w), ops := fun _ => sDAB (ucw w) } (scReg .max) s

/-- SMAX_LONG, two words (R97 to R99). -/
def execSmaxLong (w : CW) (m : ModW) (s : State) : Out :=
  issueWord { u := umw w m, ok := fun _ => ok3 (umw w m), ops := fun _ => sDAB (umw w m) } (scReg .max) s

/-- SCMP, one word (R101). -/
def execScmp (w : CW) (s : State) : Out :=
  issueWord { u := ucw w, ok := fun _ => ok5 (ucw w), ops := fun _ => sAB (ucw w) } scCmpReg s

/-- SCMP_LONG, two words (R101). -/
def execScmpLong (w : CW) (m : ModW) (s : State) : Out :=
  issueWord { u := umw w m, ok := fun _ => ok5 (umw w m), ops := fun _ => sAB (umw w m) } scCmpReg s

/-- SCMPI, one word (R100, R101). -/
def execScmpi (w : IW) (s : State) : Out :=
  issueWord { u := uiw w, ok := fun _ => ok6 (uiw w), ops := fun _ => sA (uiw w) } scCmpImm s

/-- SCMPI_LONG, two words (R100, R101). -/
def execScmpiLong (w : CW) (x : XW) (s : State) : Out :=
  issueWord { u := uiw2 w x, ok := fun _ => ok6 (uiw2 w x), ops := fun _ => sA (uiw2 w x) } scCmpImm s

/-- SSEL, one word (R101). -/
def execSsel (w : CW) (s : State) : Out :=
  issueWord { u := ucw w, ok := fun _ => ok7 (ucw w), ops := fun _ => sDAB (ucw w) } scSel s

/-- SSEL_LONG, two words (R101). -/
def execSselLong (w : CW) (m : ModW) (s : State) : Out :=
  issueWord { u := umw w m, ok := fun _ => ok7 (umw w m), ops := fun _ => sDAB (umw w m) } scSel s

/-- SMOV, one word (R101). -/
def execSmov (w : CW) (s : State) : Out :=
  issueWord { u := ucw w, ok := fun _ => ok8 (ucw w), ops := fun _ => sDA (ucw w) } scMov s

/-- SMOVI, one word (R101). -/
def execSmovi (w : IW) (s : State) : Out :=
  issueWord { u := uiw w, ok := fun _ => ok9 (uiw w), ops := fun _ => sD (uiw w) } scMovI s

/-- SMOVI_LONG, two words (R101). -/
def execSmoviLong (w : CW) (x : XW) (s : State) : Out :=
  issueWord { u := uiw2 w x, ok := fun _ => ok9 (uiw2 w x), ops := fun _ => sD (uiw2 w x) } scMovI s

/-- SLUI_SHORT, one word (R101). -/
def execSluiShort (w : IW) (s : State) : Out :=
  issueWord { u := uiw w, ok := fun _ => ok2 (uiw w), ops := fun _ => sDA (uiw w) } scLui s

/-- SLUI, two words (R101). -/
def execSlui (w : CW) (x : XW) (s : State) : Out :=
  issueWord { u := uiw2 w x, ok := fun _ => ok2 (uiw2 w x), ops := fun _ => sDA (uiw2 w x) } scLui s

/-- SCLZ, one word (R97 to R99). -/
def execSclz (w : CW) (s : State) : Out :=
  issueWord { u := ucw w, ok := fun _ => ok10 (ucw w), ops := fun _ => sDA (ucw w) } (scReg .clz) s

/-- SCLZ_LONG, two words (R97 to R99). -/
def execSclzLong (w : CW) (m : ModW) (s : State) : Out :=
  issueWord { u := umw w m, ok := fun _ => ok10 (umw w m), ops := fun _ => sDA (umw w m) } (scReg .clz) s

/-- SPOPC, one word (R97 to R99). -/
def execSpopc (w : CW) (s : State) : Out :=
  issueWord { u := ucw w, ok := fun _ => ok10 (ucw w), ops := fun _ => sDA (ucw w) } (scReg .popc) s

/-- SPOPC_LONG, two words (R97 to R99). -/
def execSpopcLong (w : CW) (m : ModW) (s : State) : Out :=
  issueWord { u := umw w m, ok := fun _ => ok10 (umw w m), ops := fun _ => sDA (umw w m) } (scReg .popc) s

/-- SBFE, one word (R101). -/
def execSbfe (w : CW) (s : State) : Out :=
  issueWord { u := ucw w, ok := fun _ => ok11 (ucw w), ops := fun _ => sDAB (ucw w) } scBfe s

/-- SBFE_LONG, two words (R101). -/
def execSbfeLong (w : CW) (m : ModW) (s : State) : Out :=
  issueWord { u := umw w m, ok := fun _ => ok11 (umw w m), ops := fun _ => sDAB (umw w m) } scBfe s

/-- SBFI, one word (R101). -/
def execSbfi (w : CW) (s : State) : Out :=
  issueWord { u := ucw w, ok := fun _ => ok11 (ucw w), ops := fun _ => [dSrw (ucw w), aS (ucw w), bS (ucw w)] } scBfi s

/-- SBFI_LONG, two words (R101). -/
def execSbfiLong (w : CW) (m : ModW) (s : State) : Out :=
  issueWord { u := umw w m, ok := fun _ => ok11 (umw w m), ops := fun _ => [dSrw (umw w m), aS (umw w m), bS (umw w m)] } scBfi s

/-- SARG, one word (R101). -/
def execSarg (w : IW) (s : State) : Out :=
  issueWord { u := uiw w, ok := fun _ => ok12 (uiw w), ops := fun _ => sD (uiw w) } scArg s

/-- SARG_SX, two words (R101). -/
def execSargSx (w : CW) (x : XW) (s : State) : Out :=
  issueWord { u := uiw2 w x, ok := fun _ => ok13 (uiw2 w x), ops := fun _ => sD (uiw2 w x) } scArg s

end Sys2Proof.Machine
end

