-- ==== Sys2Proof/Machine/Predicate.lean ====
section
/-! DEFINITION. The predicate words of class 0 (R128). -/

namespace Sys2Proof.Machine

/-- A predicate written within MASK (R128). -/
def setP (k : IC) (s : State) (v : Lanes) : State := modWave s k.wid (fun w => prPut w k.u.d k.x.mask v)

/-- PAND, POR, PXOR, PNOT, PMOV (R128). -/
def prOp2 (f : Lanes → Lanes → Lanes) (k : IC) (s : State) : Eff :=
  .done (setP k s (f (prGet k.w k.u.a) (prGet k.w k.u.b)))

/-- PTOS: every bit of the predicate, bits WIDTH to 63 at 0 (R128). -/
def prToS (k : IC) (s : State) : Eff := .done (setD k s (prGet k.w k.u.a &&& allLanes k.w.width))

/-- PFROMS (R128). -/
def prFromS (k : IC) (s : State) : Eff := .done (setP k s (sVal k k.u.a))

/-- PAND, one word (R128). -/
def execPand (w : CW) (s : State) : Out :=
  issueWord { u := ucw w, ok := fun _ => ok25 (ucw w), ops := fun _ => [dP (ucw w), aP (ucw w), bP (ucw w)] } (prOp2 (· &&& ·)) s

/-- POR, one word (R128). -/
def execPor (w : CW) (s : State) : Out :=
  issueWord { u := ucw w, ok := fun _ => ok25 (ucw w), ops := fun _ => [dP (ucw w), aP (ucw w), bP (ucw w)] } (prOp2 (· ||| ·)) s

/-- PXOR, one word (R128). -/
def execPxor (w : CW) (s : State) : Out :=
  issueWord { u := ucw w, ok := fun _ => ok25 (ucw w), ops := fun _ => [dP (ucw w), aP (ucw w), bP (ucw w)] } (prOp2 (· ^^^ ·)) s

/-- PNOT, one word (R128). -/
def execPnot (w : CW) (s : State) : Out :=
  issueWord { u := ucw w, ok := fun _ => ok26 (ucw w), ops := fun _ => [dP (ucw w), aP (ucw w)] } (prOp2 (fun p _ => ~~~p)) s

/-- PMOV, one word (R128). -/
def execPmov (w : CW) (s : State) : Out :=
  issueWord { u := ucw w, ok := fun _ => ok26 (ucw w), ops := fun _ => [dP (ucw w), aP (ucw w)] } (prOp2 (fun p _ => p)) s

/-- PTOS, one word (R128). -/
def execPtos (w : CW) (s : State) : Out :=
  issueWord { u := ucw w, ok := fun _ => ok27 (ucw w), ops := fun _ => [dS (ucw w), aP (ucw w)] } prToS s

/-- PFROMS, one word (R128). -/
def execPfroms (w : CW) (s : State) : Out :=
  issueWord { u := ucw w, ok := fun _ => ok28 (ucw w), ops := fun _ => [dP (ucw w), aS (ucw w)] } prFromS s

end Sys2Proof.Machine
end

