-- ==== Sys2Proof/Machine/Control.lean ====
section
/-! DEFINITION. Clause headers, branches, structured control and housekeeping of class 0 (R58 to R61, R103 to R117). -/

namespace Sys2Proof.Machine

/-! Clause headers (R58, R60, R104, R230). -/

/-- The site of a trap taken at a header (R231). -/
def hdrSite (x : Slot) (h : W32) : Site := { atHdr := true, clause := x.pc, hdr := h, addr := x.pc }

/-- A two-word instruction is cut off by the count: its first word is the last one counted (R60). Where a word of the
clause cannot be fetched the test ends as not cut off, and the clause runs up to that word (DESIGN CHOICE, log entry 53). -/
def cutOff : List FetchW → Bool
  | [] => false
  | [.ok w] => w.getLsbD 25
  | .ok w :: f :: rest => if w.getLsbD 25 then cutOff rest else cutOff (f :: rest)
  | .bad _ _ :: _ => false

/-- The checks of a header, in order: its address, the kernel's guard, its fetch, mark, class, count, the cut-off word.
The answer is the state with the fetched words, the header and them; or a trap; or a walk to wait for. -/
inductive HdrRes where
  | go (s : State) (h : W32) (ws : List FetchW)
  | trap (s : State) (h : W32) (t : TrapInfo)
  | walk (va : Nat)
deriving DecidableEq, Repr

def checkHeader (s : State) (b : Block) (core ctx : Nat) (x : Slot) : HdrRes :=
  if !canonical x.pc || 2 ^ 64 ≤ x.pc then .trap s 0 { cause := 0x0E, sub := 2, addr := x.pc }
  else if inGuard b.var x.pc then
    match if x.pc % 4 == 0 then fetchWord s core ctx x x.pc else .bad 0 0 with
    | .walk => .walk x.pc
    | .bad _ _ => .trap s 0 { cause := 0x0E, sub := 1, addr := x.pc }
    | .got s1 h => .trap s1 h { cause := 0x0E, sub := 1, addr := x.pc }
  else if x.pc % 4 != 0 then .trap s 0 { cause := 3, sub := 1 }
  else match fetchWord s core ctx x x.pc with
    | .walk => .walk x.pc
    | .bad c k => .trap s 0 { cause := c, sub := k, addr := x.pc, kind := 4 }
    | .got s1 h =>
      if !marked h then .trap s1 h { cause := 3, sub := 1 }
      else if hdrClass h == 7 then .trap s1 h { cause := 3, sub := 2 }
      else if hdrCount h == 0 then .trap s1 h { cause := 3, sub := 3 }
      else
        let r := fetchMany s1 core ctx x (hdrCount h) (x.pc + 4)
        if !r.2.2 then .walk (x.pc + 4 + 4 * r.2.1.length)
        else if cutOff r.2.1 then .trap r.1 h { cause := 3, sub := 4 }
        else .go r.1 h r.2.1

/-- The counters that a wait mask selects are zero (R58). -/
def maskClear (w : Wave) (h : W32) : Bool :=
  (cntList w.cnt).zipIdx.all (fun e => !h.getLsbD (22 + e.2) || e.1 == 0)

/-- A marked block stops at seams (R251, R357). -/
def stopsHere (b : Block) (h : W32) : Bool := (b.mark || b.preMark) && hdrSeam h

/-- A slot of a marked block that has passed a seam's header and issued no word of its clause issues none (R251). (DEDUCED, log entry 22) -/
def seamHeld (b : Block) (x : Slot) : Bool := x.park == .run && x.inClause && x.idx == 0 && x.back.isEmpty && stopsHere b x.hdrW

/-- A wave reaches a clause header, checks it, and waits on its wait mask before the first word (R58, R60). A slot
inside a clause whose words it does not hold fetches them again. -/
def execClauseIssue (s : State) : Out :=
  match s.cur with
  | none => .next s
  | some c =>
    match tget s.waves c.wid with
    | none => .next s
    | some w =>
      match blockOf s w with
      | none => .next s
      | some b =>
        let x := slotOf w c.slotB
        if !waveRuns s c.wid w b || !slotRuns x then .next s
        else if x.inClause then
          if !x.words.isEmpty then .next s
          else match fetchWord s b.core w.ctx x x.hdr with
            | .walk => .next (startWalks s c.wid c.slotB b.core w.ctx x [x.hdr])
            | .bad cs k => .next (raise s c.wid c.slotB { clause := x.hdr, word := x.idx, addr := wordAddr x, live := x.mask }
                { cause := cs, sub := k, addr := x.hdr, kind := 4 })
            | .got s1 h =>
              let r := fetchMany s1 b.core w.ctx x (hdrCount h) (x.hdr + 4)
              if !r.2.2 then .next (startWalks s c.wid c.slotB b.core w.ctx x [x.hdr + 4 + 4 * r.2.1.length])
              else .next (modWave r.1 c.wid (fun w => modSlot w c.slotB (fun x =>
                { x with hdrW := h, words := r.2.1, walked := [] })))
        else match checkHeader s b b.core w.ctx x with
          | .walk va => .next (startWalks s c.wid c.slotB b.core w.ctx x [va])
          | .trap s1 h t => .next (raise s1 c.wid c.slotB { hdrSite x h with live := x.mask } t)
          | .go s1 h ws =>
            if stopsHere b h || !maskClear w h then .next s1
            else if w.stepping != 0 && !stepPasses w.stepping c.slotB then .next (stepHalt s1 c.wid b.core c.slotB)
            else .next (modWave s1 c.wid (fun w => { modSlot w c.slotB (fun x =>
              { x with inClause := true, hdr := x.pc, hdrW := h, idx := 0, words := ws, phase := 0, walked := [] })
              with stepping := if w.stepping == 0 then 0 else w.stepping - (if c.slotB then 4 else 2) }))

/-- A word that could not be fetched traps when the slot reaches it (R104, R229, R399). -/
def badWord (s : State) (wid : Nat) (slotB : Bool) (w : Wave) (at_ cause sub : Nat) : State :=
  let x := slotOf w slotB
  raise s wid slotB { clause := x.hdr, word := x.idx, hdr := x.hdrW, w1 := rawWord x x.idx, addr := wordAddr x, live := x.mask }
    { cause := cause, sub := sub, addr := x.hdr + 4 + 4 * at_, kind := 4 }

/-! Branches (R103, R104). -/

/-- A transfer's target: misaligned, outside the canonical 57-bit space, or taken. (DEDUCED, log entry 40) -/
def jumpTo (s : State) (t : Int) : Eff :=
  if t < 0 || 2 ^ 64 ≤ t || !canonical t.toNat then
    .trap s { cause := 0x0E, sub := 2, addr := wrapI 64 t }
  else .jump s t.toNat

/-- target = addr + 4 × sext(imm) (R103). (DEDUCED, log entry 40) -/
def relTarget (k : IC) : Int := (wordAddr k.x : Int) + 4 * immS k.u

/-- The address of the next header (R104). -/
def linkOf (k : IC) : Nat := wordAddr k.x + 4 * k.u.words

def ctBr (k : IC) (s : State) : Eff :=
  if condBr k.w k.x k.u.d k.u.a then jumpTo s (relTarget k) else .done s
def ctJmp (k : IC) (s : State) : Eff := jumpTo s (relTarget k)
def ctCall (k : IC) (s : State) : Eff :=
  match jumpTo s (relTarget k) with
  | .jump s pc => .jump (setD k s (w64 (linkOf k))) pc
  | e => e
def ctRet (k : IC) (s : State) : Eff :=
  let t := (sVal k k.u.a).toNat
  if t % 4 != 0 then .trap s { cause := 8, sub := 1, addr := t } else jumpTo s t

/-! Structured control (R105 to R114). -/

/-- c: the lanes that the predicate selects (R107). -/
def selLanes (k : IC) : Lanes :=
  if k.u.b == 0 then prGet k.w k.u.a else if k.u.b == 1 then ~~~(prGet k.w k.u.a) else BitVec.allOnes 64

/-- A slot set to execute the word at a place (R111): its clause's header is fetched with its words, and its wait mask is not met, also
where the word is the first of the clause (DESIGN CHOICE, log entry 53). -/
def toWord (x : Slot) (l : Loc) : Slot :=
  { x with inClause := true, hdr := l.hdr, hdrW := 0, idx := l.idx, words := [], park := .run, phase := 0, walked := [] }
/-- A slot set to a header. -/
def toPc (x : Slot) (pc : Nat) : Slot := { toNextHdr x with pc := pc }

/-- The empty-mask rule: the next structured point of the innermost frame (R111). -/
def emptyMask (w : Wave) (slotB : Bool) : Wave :=
  match framesOf w slotB with
  | [] => modSlot w slotB (fun x => { x with park := .ended })
  | .ifF f :: _ => modSlot w slotB (fun x => toWord x (if f.inElse then f.endAt else f.elseAt.getD f.endAt))
  | .loopF f :: _ => modSlot w slotB (fun x => toWord x f.endAt)

/-- The slot continues with a mask, or under the empty-mask rule. -/
def goMask (w : Wave) (slotB : Bool) (m : Lanes) (pc : Nat) : Wave :=
  let w1 := modSlot w slotB (fun x => { x with mask := m })
  if m == 0 then emptyMask w1 slotB else modSlot w1 slotB (fun x => toPc x pc)

/-- The top frame of the slot. -/
def topFrame (w : Wave) (slotB : Bool) : Option Frame := (framesOf w slotB).head?
/-- The top frame replaced, or popped. -/
def setTop (w : Wave) (slotB : Bool) (f : Frame) : Wave := setFrames w slotB (f :: (framesOf w slotB).drop 1)
def popTop (w : Wave) (slotB : Bool) : Wave := setFrames w slotB ((framesOf w slotB).drop 1)
def pushTop (w : Wave) (slotB : Bool) (f : Frame) : Wave := setFrames w slotB (f :: framesOf w slotB)

/-- The word that the slot stands at is the one at a place (R110). -/
def atLoc (x : Slot) (l : Loc) : Bool := x.hdr + 4 * x.idx == l.hdr + 4 * l.idx

/-- A scan that waits for a walk or fails (R106). -/
def scanThen (k : IC) (s : State) (isIf : Bool) (f : State → Option Loc → Loc → Eff) : Eff :=
  match scan s k.b k.core k.w.ctx k.x isIf with
  | .walk s va => .wait (startWalks s k.wid k.slotB k.core k.w.ctx k.x [va])
  | .bad s c sb a => .trap s { cause := c, sub := sb, addr := a, kind := 4 }
  | .found s e l => f s e l

/-- The path of the else-arm as the divergence stack or slot B takes it. -/
def elsePath (k : IC) (pc : Nat) (m : Lanes) : Spill := ⟨k.slotB, pc, m, k.x.ctl, false⟩

/-- IF (R108): at 64 frames it traps before it scans. (DESIGN CHOICE, log entry 53) -/
def ctIf (k : IC) (s : State) : Eff :=
  if frameCount k.w ≥ 64 then .trap s { cause := 0x0D, sub := 1 }
  else scanThen k s true (fun s els fin =>
    let m := k.x.mask
    let t := m &&& selLanes k
    let f := m &&& ~~~(selLanes k)
    let fr : IfFrame := ⟨wordAddr k.x, m, f, false, .plain, els, fin, {}⟩
    let upd := fun g => Eff.set (modWave s k.wid g)
    match els with
    | none =>
      if t == 0 then upd (fun w => modSlot (pushTop w k.slotB (.ifF { fr with inElse := true })) k.slotB
        (fun x => toWord { x with mask := f } fin))
      else upd (fun w => modSlot (pushTop w k.slotB (.ifF fr)) k.slotB (fun x => toPc { x with mask := t } (linkOf k)))
    | some e =>
      if t == 0 then upd (fun w => modSlot (pushTop w k.slotB (.ifF { fr with inElse := true })) k.slotB
        (fun x => toPc { x with mask := f } e.nxt))
      else if f == 0 then upd (fun w => modSlot (pushTop w k.slotB (.ifF fr)) k.slotB
        (fun x => toPc { x with mask := t } (linkOf k)))
      else if !k.w.b.used then upd (fun w =>
        let w1 := modSlot (pushTop w k.slotB (.ifF { fr with div := .split })) k.slotB
          (fun x => toPc { x with mask := t } (linkOf k))
        { w1 with b := { used := true, pc := e.nxt, mask := f, ctl := k.x.ctl } })
      else if k.w.spills.length ≥ 32 then .trap s { cause := 0x0D, sub := 2 }
      else upd (fun w =>
        let w1 := modSlot (pushTop w k.slotB (.ifF { fr with div := .spilled })) k.slotB
          (fun x => toPc { x with mask := t } (linkOf k))
        { w1 with spills := elsePath k e.nxt f :: w1.spills }))

/-- The newest spilled entry of a slot, and the stack without it (R112). -/
def popSpill (slotB : Bool) : List Spill → Option (Spill × List Spill)
  | [] => none
  | e :: r => if e.slotB == slotB then some (e, r) else (popSpill slotB r).map (fun p => (p.1, e :: p.2))

def structTrap (s : State) : Eff := .trap s { cause := 0x0D, sub := 5 }

/-- ELSE (R108, R110): it reads the path that the stack holds, which an error of the spill area may have struck (R229, R249). -/
def ctElse (k : IC) (s : State) : Eff :=
  match topFrame k.w k.slotB with
  | some (.ifF f) =>
    if !(f.elseAt.elim false (atLoc k.x)) then structTrap s
    else if f.div == .spilled then
      match popSpill k.slotB k.w.spills with
      | none => structTrap s
      | some (e, rest) => if e.bad then .trap s { cause := 0x14, sub := 2 } else .set (modWave s k.wid (fun w =>
          let w1 := setTop { w with spills := rest } k.slotB
            (.ifF { f with inElse := true, div := .spilledElse, saved := k.x.ctl })
          modSlot w1 k.slotB (fun x => toPc { x with mask := e.mask, ctl := e.ctl } e.pc)))
    else .set (modWave s k.wid (fun w => modSlot w k.slotB (fun x => toWord { x with mask := 0 } f.endAt)))
  | _ => structTrap s

/-- The wave continues on slot A after a frame of an IF ends. -/
def endIf (w : Wave) (slotB : Bool) (f : IfFrame) (pc : Nat) : Wave :=
  goMask (popTop w slotB) slotB (f.entry &&& ~~~w.exited) pc

/-- ENDIF (R108, R110). -/
def ctEndif (k : IC) (s : State) : Eff :=
  match topFrame k.w k.slotB with
  | some (.ifF f) =>
    if !atLoc k.x f.endAt then structTrap s
    else if f.div == .split then
      if (slotOf k.w (!k.slotB)).park == .joining then
        .set (modWave s k.wid (fun w =>
          let w1 := { w with a := { toNextHdr w.a with park := .run }, b := {} }
          endIf w1 false f (linkOf k)))
      else .set (setX k s (fun x => { x with park := .joining }))
    else
      let w1 := fun (w : Wave) =>
        if f.div == .spilledElse then modSlot w k.slotB (fun x => { x with ctl := f.saved }) else w
      .set (modWave s k.wid (fun w => endIf (w1 w) k.slotB f (linkOf k)))
  | _ => structTrap s

/-- LOOP with a count, none for unbounded (R109): at 64 frames it traps before it scans. (DESIGN CHOICE, log entry 53) -/
def ctLoopN (n : Option Nat) (k : IC) (s : State) : Eff :=
  if n == some 0 then scanThen k s false (fun s _ fin => .jump s fin.nxt)
  else if frameCount k.w ≥ 64 then .trap s { cause := 0x0D, sub := 1 }
  else scanThen k s false (fun s _ fin =>
    .set (modWave s k.wid (fun w =>
      modSlot (pushTop w k.slotB (.loopF ⟨k.x.mask, 0, 0, n, linkOf k, fin⟩)) k.slotB (fun x => toPc x (linkOf k)))))

def ctLoop (k : IC) (s : State) : Eff := ctLoopN (if k.u.b == 1 then some (sVal k k.u.a).toNat else none) k s
def ctLoopImm (k : IC) (s : State) : Eff := ctLoopN (some k.u.imm) k s

/-- remove(L, f): the lanes leave the entry and else sets of the frames above the innermost LOOP, whose break or
continue set takes them (R109). -/
def takeLanes (brk : Bool) (l : Lanes) : List Frame → List Frame
  | [] => []
  | .ifF f :: r => .ifF { f with entry := f.entry &&& ~~~l, els := f.els &&& ~~~l } :: takeLanes brk l r
  | .loopF f :: r => .loopF (if brk then { f with brk := f.brk ||| l } else { f with cnt := f.cnt ||| l }) :: r

/-- BREAK and CONT (R109). -/
def ctLeave (brk : Bool) (k : IC) (s : State) : Eff :=
  let fs := framesOf k.w k.slotB
  if !fs.any (fun f => match f with | .loopF _ => true | .ifF _ => false) then .trap s { cause := 0x0D, sub := 4 }
  else
    let l := k.x.mask &&& selLanes k
    .set (modWave s k.wid (fun w =>
      goMask (setFrames w k.slotB (takeLanes brk l fs)) k.slotB (k.x.mask &&& ~~~l) (linkOf k)))

/-- ENDLOOP (R109, R110). -/
def ctEndloop (k : IC) (s : State) : Eff :=
  match topFrame k.w k.slotB with
  | some (.loopF f) =>
    if !atLoc k.x f.endAt then structTrap s
    else
      let l := k.x.mask ||| f.cnt
      let left := f.left.map (· - 1)
      if l != 0 && left != some 0 then
        .set (modWave s k.wid (fun w =>
          modSlot (setTop w k.slotB (.loopF { f with cnt := 0, left := left })) k.slotB
            (fun x => toPc { x with mask := l } f.head)))
      else .set (modWave s k.wid (fun w =>
        goMask (popTop w k.slotB) k.slotB (f.entry &&& ~~~w.exited) (linkOf k)))
  | _ => structTrap s

/-! Housekeeping (R115 to R117). -/

def ctNop (_ : IC) (s : State) : Eff := .done s
def ctYield (_ : IC) (s : State) : Eff := .yields s

/-- The counters that a WAITCNT selects are at or below its limit (R115). -/
def waitcntMet (w : Wave) (imm : Nat) : Bool :=
  (cntList w.cnt).zipIdx.all (fun e => !bit imm e.2 || e.1 ≤ bits imm 10 6)
/-- WAITCNT (R115). -/
def ctWaitcnt (k : IC) (s : State) : Eff := if waitcntMet k.w k.u.imm then .done s else .wait s

/-- WIN (R47, R115). -/
def setWin (cls v : Nat) (c : Ctl) : Ctl :=
  if cls == 0 then { c with winV := BitVec.ofNat 5 v }
  else if cls == 1 then { c with winS := BitVec.ofNat 5 v } else { c with winQ := BitVec.ofNat 1 v }
def ctWin (k : IC) (s : State) : Eff := .done (setCtl k s (setWin k.u.d k.u.imm))

/-- MODE from a scalar: a bad value traps (R52, R115). -/
def ctMode (k : IC) (s : State) : Eff :=
  let v := (sVal k k.u.a).toNat % 2 ^ 32
  if modeOk v then .done (setCtl k s (fun c => { c with mode := w32 v })) else .trap s { cause := 2, sub := 0 }

/-- The MODE bits that the field mask of R116 selects. -/
def modeMask (sel : Nat) : Nat :=
  (if bit sel 0 then 7 else 0) ||| (if bit sel 1 then 8 else 0) ||| (if bit sel 2 then 16 else 0)
    ||| (if bit sel 3 then 32 else 0) ||| (if bit sel 4 then 64 else 0) ||| (bits sel 9 5 <<< 8)
def ctModeFields (k : IC) (s : State) : Eff :=
  let m := w32 (modeMask (bits k.u.imm 22 13))
  .done (setCtl k s (fun c => { c with mode := (c.mode &&& ~~~m) ||| (w32 (bits k.u.imm 12 0) &&& m) }))

/-- Lanes removed from every set of a frame (R117). -/
def exitFrame (l : Lanes) : Frame → Frame
  | .ifF f => .ifF { f with entry := f.entry &&& ~~~l, els := f.els &&& ~~~l }
  | .loopF f => .loopF { f with entry := f.entry &&& ~~~l, brk := f.brk &&& ~~~l, cnt := f.cnt &&& ~~~l }

/-- END (R117): the lanes leave the wave; with none left the wave drains. -/
def ctEnd (k : IC) (s : State) : Eff :=
  let l := k.x.mask
  .set (modWave s k.wid (fun w =>
    let fr := fun (x : Slot) => { x with frames := x.frames.map (exitFrame l) }
    let w1 := { w with exited := w.exited ||| l, a := fr w.a, b := fr w.b, shared := w.shared.map (exitFrame l) }
    let w2 := modSlot w1 k.slotB (fun x => { toNextHdr x with mask := 0 })
    if w2.exited &&& allLanes w.width == allLanes w.width then { w2 with st := .draining, a := {}, b := {}, spills := [] }
    else emptyMask w2 k.slotB))

/-- UNIMPLEMENTED_OPCODE: an unassigned cell traps precisely; LANEMASK is MASK, the guard not evaluated (R68, R231). -/
def execUnimplementedOpcode (_cls : BitVec 3) (w1 _w2 : W32) (s : State) : Out :=
  issueWord { u := { ucw (cwOf w1) with two := isTwo w1, g := 0 }, ok := fun _ => true }
    (fun _ s => .trap s { cause := 1, sub := 0 }) s

/-- NOP, one word (R115). -/
def execNop (w : CW) (s : State) : Out :=
  issueWord { u := ucw w, ok := fun _ => ok0 (ucw w) } ctNop s

/-- BR, one word (R96, R103, R104). -/
def execBr (w : IW) (s : State) : Out :=
  issueWord { u := uiw w, ok := fun _ => ok14 (uiw w), last := true } ctBr s

/-- BR_LONG, two words (R96, R103, R104). -/
def execBrLong (w : CW) (x : XW) (s : State) : Out :=
  issueWord { u := uiw2 w x, ok := fun _ => ok14 (uiw2 w x), last := true } ctBr s

/-- JMP, one word (R103, R104). -/
def execJmp (w : IW) (s : State) : Out :=
  issueWord { u := uiw w, ok := fun _ => ok15 (uiw w), last := true } ctJmp s

/-- JMP_LONG, two words (R103, R104). -/
def execJmpLong (w : CW) (x : XW) (s : State) : Out :=
  issueWord { u := uiw2 w x, ok := fun _ => ok15 (uiw2 w x), last := true } ctJmp s

/-- CALL, one word (R103, R104). -/
def execCall (w : IW) (s : State) : Out :=
  issueWord { u := uiw w, ok := fun _ => ok9 (uiw w), ops := fun _ => sD (uiw w), last := true } ctCall s

/-- CALL_LONG, two words (R103, R104). -/
def execCallLong (w : CW) (x : XW) (s : State) : Out :=
  issueWord { u := uiw2 w x, ok := fun _ => ok9 (uiw2 w x), ops := fun _ => sD (uiw2 w x), last := true } ctCall s

/-- RET, one word (R103, R104). -/
def execRet (w : CW) (s : State) : Out :=
  issueWord { u := ucw w, ok := fun _ => ok16 (ucw w), ops := fun _ => sA (ucw w), last := true } ctRet s

/-- IF, one word (R107, R108). -/
def execIfW (w : CW) (s : State) : Out :=
  issueWord { u := ucw w, ok := fun _ => ok17 (ucw w), last := true } ctIf s

/-- ELSE, one word (R108, R110). -/
def execElseW (w : CW) (s : State) : Out :=
  issueWord { u := ucw w, ok := fun _ => ok18 (ucw w), last := true } ctElse s

/-- ENDIF, one word (R108, R110). -/
def execEndif (w : CW) (s : State) : Out :=
  issueWord { u := ucw w, ok := fun _ => ok18 (ucw w), last := true } ctEndif s

/-- LOOP, one word (R109). -/
def execLoopW (w : CW) (s : State) : Out :=
  issueWord { u := ucw w, ok := fun _ => ok19 (ucw w), ops := fun _ => (if ((ucw w)).b == 1 then sA (ucw w) else []), last := true } ctLoop s

/-- LOOP_IMM, two words (R109). -/
def execLoopImm (w : CW) (x : XW) (s : State) : Out :=
  issueWord { u := uiw2 w x, ok := fun _ => ok20 (uiw2 w x), last := true } ctLoopImm s

/-- BREAK, one word (R109). -/
def execBreakW (w : CW) (s : State) : Out :=
  issueWord { u := ucw w, ok := fun _ => ok21 (ucw w), last := true } (ctLeave true) s

/-- CONT, one word (R109). -/
def execContW (w : CW) (s : State) : Out :=
  issueWord { u := ucw w, ok := fun _ => ok21 (ucw w), last := true } (ctLeave false) s

/-- ENDLOOP, one word (R109, R110). -/
def execEndloop (w : CW) (s : State) : Out :=
  issueWord { u := ucw w, ok := fun _ => ok18 (ucw w), last := true } ctEndloop s

/-- YIELD, one word (R115). -/
def execYield (w : CW) (s : State) : Out :=
  issueWord { u := ucw w, ok := fun _ => ok0 (ucw w), last := true } ctYield s

/-- WAITCNT, one word (R115). -/
def execWaitcnt (w : IW) (s : State) : Out :=
  issueWord { u := uiw w, ok := fun _ => ok22 (uiw w) } ctWaitcnt s

/-- END, one word (R117). -/
def execEndW (w : CW) (s : State) : Out :=
  issueWord { u := ucw w, ok := fun _ => ok0 (ucw w), last := true } ctEnd s

/-- WIN, one word (R47, R115). -/
def execWin (w : IW) (s : State) : Out :=
  issueWord { u := uiw w, ok := fun _ => ok23 (uiw w) } ctWin s

/-- MODE, one word (R52, R115). -/
def execModeW (w : CW) (s : State) : Out :=
  issueWord { u := ucw w, ok := fun _ => ok16 (ucw w), ops := fun _ => sA (ucw w) } ctMode s

/-- MODE_FIELDS, two words (R52, R116). -/
def execModeFields (w : CW) (x : XW) (s : State) : Out :=
  issueWord { u := uiw2 w x, ok := fun _ => ok24 (uiw2 w x) } ctModeFields s

end Sys2Proof.Machine
end

