-- ==== Sys2Proof/Machine/Order.lean ====
section
/-! DEFINITION. The two sides of a fence at a scope (R155, R162, R226, R267, R331). -/

namespace Sys2Proof.Machine

/-- The lines of a ticket's range: 128-byte lines from its first to its last byte (R170). -/
def tkLines (t : Ticket) : Nat := max 1 (t.size / 128)

/-- A pending ticket of a wave has a line still to read (R170). -/
def unreadTicket (s : State) (wid : Nat) : Bool :=
  s.slices.any (fun g => g.2.tk.any (fun e => e.2.wid == wid && e.2.st == .pending && e.2.lines.length < tkLines e.2))

/-- A memory access of a wave is outstanding: a load, a store, an atomic, an LDT whose lines are unread. At a scope within its
L1's reach a store is performed once its writes are, whatever their T (R162, R267). -/
def accBusy (s : State) (wid : Nat) (narrow : Bool) : Bool :=
  anyOp s wid (fun b => match b with
    | .load .. => true
    | .vals .. => true
    | .store left _ => !narrow || !left.isEmpty
    | .atom .. => true
    | .ldt .. => true
    | _ => false) || unreadTicket s wid
def memBusy (s : State) (wid : Nat) : Bool := accBusy s wid false

/-- A write of the wave, or of its core's caches, is on its way to a home. -/
def hwOwed (s : State) (wid core : Nat) : Bool :=
  s.hw.any (fun e => e.2.wid == wid || (cachesOf s core).contains e.2.cache)

/-- A store or an atomic of the wave has not been performed at its own scope, whatever its L1 has still to write back (R226). -/
def ownOwed (s : State) (wid : Nat) : Bool :=
  s.hw.any (fun e => e.2.wid == wid && e.2.wb.isNone) || decide (s.now < (tget s.waves wid).elim 0 (·.ownT))

/-- The release side has been taken: every earlier access is performed and T has been reached (R162). Within the reach
it only orders. (DEDUCED, log entry 41) -/
def releaseDone (s : State) (wid core scope : Nat) : Bool :=
  let narrow := decide (scope ≤ reachOf s core)
  !accBusy s wid narrow && (narrow || (!hwOwed s wid core && decide ((tget s.waves wid).elim 0 (·.lastT) ≤ s.now)))

/-- The write-backs of a release side are sent, once, when the wave's earlier accesses are performed: the L1 then holds every
store that one of them has read (R162, R277). (DEDUCED, log entry 41) -/
def releaseSend (scope : Nat) (k : IC) (s : State) : State :=
  if k.x.phase == 0 && reachOf s k.core < scope && !memBusy s k.wid then
    setX k (releaseL1 s k.wid k.w.ctx k.core scope) (fun x => { x with phase := 1 })
  else s

/-- A release side at device scope or wider is done: the wave's later fetches are ordered behind it (R164, R282). -/
def releaseEnd (scope : Nat) (k : IC) (s : State) : State := if scope < 5 then s else acquireFetch s k.wid

/-- The release side at a scope: the word waits until it is done, then the rest of the word follows (R162). (DEDUCED, log entry 41) -/
def release (scope : Nat) (k : IC) (s : State) (rest : State → Eff) : Eff :=
  let s1 := releaseSend scope k s
  if releaseDone s1 k.wid k.core scope then rest (releaseEnd scope k s1) else .wait s1

/-- The acquire side at a scope (R162). (DEDUCED, log entry 41) -/
def acquire (scope : Nat) (k : IC) (s : State) : State := acquireBy s k.wid k.core scope

/-- A counter has room for one more operation (R57). -/
def hasRoom (k : IC) (c : CntK) : Bool := cntGet k.w.cnt c < 63

/-- The origin of the word (R231, R306). -/
def originK (k : IC) : Origin := originOf k.b k.w (wordAddr k.x)

/-- A producer issues: its operation is entered and counted, and its destinations are empty until it ends (R54, R56). -/
def produce (k : IC) (s : State) (c : CntK) (cls : SymCls) (nums : List Nat) (body : Body) : Nat × State :=
  let r := addOp s k.wid c (originK k) body
  (r.1, modWave r.2 k.wid (fun w => markEmpty w cls nums r.1))

/-- An operation with no destination issues and is counted. -/
def launchOp (k : IC) (s : State) (c : CntK) (body : Body) : Nat × State := addOp s k.wid c (originK k) body

/-- A value received from outside the block, logged or replayed; a replay that does not match kills the block (R394,
R396). -/
def receiveK (k : IC) (s : State) (kind addr : Nat) (data : List Byte) (rest : State → List Byte → Eff) : Eff :=
  if notTurn s k.wid (originK k) none [!k.slotB] then .wait s
  else match receive s k.wid kind addr (originK k) data with
  | some (s1, d) => rest s1 d
  | none => .set (replayFail s k.wid)

/-- A 64-bit value received. -/
def receiveW (k : IC) (s : State) (kind : Nat) (v : W64) (rest : State → W64 → Eff) : Eff :=
  receiveK k s kind 0 (bytesOf 8 v.toNat) (fun s d => rest s (w64 (ofBytes d)))

end Sys2Proof.Machine
end

