-- ==== Sys2Proof/Machine/Barrier.lean ====
section
/-! DEFINITION. The barrier words of class 0 (R118 to R121, R331). -/

namespace Sys2Proof.Machine

/-- The checks of a barrier word, in order: diverged, left, broken (R119). -/
def barWord (k : IC) (s : State) (f : Barrier → Eff) : Eff :=
  match barOf s k.b k.u.a with
  | none => .trap s { cause := 4, sub := 1 }
  | some x =>
    if k.w.b.used || !k.w.spills.isEmpty then .trap s { cause := 0x0D, sub := 3 }
    else if x.left.contains k.wid then .trap s { cause := 0x0B, sub := 4 }
    else if x.broken then .trap s { cause := 0x0B, sub := 1 }
    else f x

/-- The phase that the wave's flag records. -/
def flagOf (x : Barrier) (wid : Nat) : Option Nat := (x.flags.find? (fun f => f.1 == wid)).map (·.2)

/-- An arrival is a release at the barrier's scope (R120, R331). -/
def barRelease (x : Barrier) (k : IC) (s : State) (rest : State → Eff) : Eff := release (barScope x.rope) k s rest

/-- BAR.ARR (R119). -/
def brArr (k : IC) (s : State) : Eff :=
  barWord k s (fun x =>
    if (flagOf x k.wid).isSome then .trap s { cause := 0x0B, sub := 2 }
    else barRelease x k s (fun s => .done (barArrive s k.w.blk k.wid x)))

/-- A wake is an acquire at the barrier's scope, which orders the wave's fetches too (R120, R164). -/
def barAcquire (x : Barrier) (k : IC) (s : State) : State := acquireFetch (acquire (barScope x.rope) k s) k.wid

/-- The wait for the phase that the flag records: it continues, or parks (R119). In a replay a rope barrier's wait
completes with the wave's next record (R396). -/
def barAwait (x : Barrier) (k : IC) (s : State) : Eff :=
  match flagOf x k.wid with
  | none => .trap s { cause := 0x0B, sub := 3 }
  | some ph =>
    let clear := fun s => setBar s k.w.blk { x with flags := x.flags.filter (fun f => f.1 ≠ k.wid) }
    if x.rope && replayOf s k.w then
      receiveK k s 5 0 (bytesOf 8 ph) (fun s _ => .done (barAcquire x k (clear s)))
    else if ph < x.phase then
      let s1 := clear s
      .done (barAcquire x k (if x.rope then logRec s1 k.wid 5 0 (originK k) (bytesOf 8 ph) else s1))
    else .set (setX k s (fun y => { y with park := .barrier x.rope x.num ph, phase := 0 }))

/-- BAR.WAIT (R119). -/
def brWait (k : IC) (s : State) : Eff := barWord k s (fun x => barAwait x k s)

/-- BAR.SYNC: BAR.ARR, then BAR.WAIT, as one word (R119). -/
def brSync (k : IC) (s : State) : Eff :=
  barWord k s (fun x =>
    if (flagOf x k.wid).isSome then .trap s { cause := 0x0B, sub := 2 }
    else barRelease x k s (fun s =>
      let s1 := barArrive s k.w.blk k.wid x
      match (tget s1.blocks k.w.blk).bind (fun b => barOf s1 b k.u.a) with
      | none => .done s1
      | some y => barAwait y k s1))

/-- BAR.DROP (R119, R121): no release. -/
def brDrop (k : IC) (s : State) : Eff := barWord k s (fun x => .done (barLeave s k.w.blk k.wid x))

/-- The site of a trap taken at the barrier word where a slot stands (R229). -/
def parkSite (w : Wave) (x : Slot) : Site :=
  let w1 := rawWord x x.idx
  { clause := x.hdr, word := x.idx, hdr := x.hdrW, w1 := w1, w2 := if w1.getLsbD 25 then rawWord x (x.idx + 1) else 0,
    addr := wordAddr x, live := liveLanes false w x.mask (bits w1.toNat 3 0)
    dest := some (.bar, bits w1.toNat 17 11, 1) }

/-- A wave parked at a barrier that a kill has broken traps when it is next offered the issue slot (R262). -/
def brokenPark (s : State) (wid : Nat) (slotB : Bool) : Option State :=
  match tget s.waves wid with
  | none => none
  | some w =>
    let x := slotOf w slotB
    match x.park, blockOf s w with
    | .barrier _ num _, some b =>
      match barOf s b num with
      | some y =>
        if y.broken then
          some (raise (markTrapped s wid slotB b.var.image (imgOff b.var (wordAddr x))) wid slotB (parkSite w x) { cause := 0x0B, sub := 1 })
        else none
      | none => none
    | _, _ => none

/-- BAR_ARR, one word (R119, R120, R331). -/
def execBarArr (w : CW) (s : State) : Out :=
  issueWord { u := ucw w, ok := fun _ => ok16 (ucw w), ops := fun _ => [aBar (ucw w)] } brArr s

/-- BAR_WAIT, one word (R119, R120). -/
def execBarWait (w : CW) (s : State) : Out :=
  issueWord { u := ucw w, ok := fun _ => ok16 (ucw w), ops := fun _ => [aBar (ucw w)], last := true } brWait s

/-- BAR_SYNC, one word (R119, R120, R331). -/
def execBarSync (w : CW) (s : State) : Out :=
  issueWord { u := ucw w, ok := fun _ => ok16 (ucw w), ops := fun _ => [aBar (ucw w)], last := true } brSync s

/-- BAR_DROP, one word (R119, R121). -/
def execBarDrop (w : CW) (s : State) : Out :=
  issueWord { u := ucw w, ok := fun _ => ok16 (ucw w), ops := fun _ => [aBar (ucw w)] } brDrop s

end Sys2Proof.Machine
end

