-- ==== Sys2Proof/Machine/RegMap.lean ====
section
/-! DEFINITION. The map of the device-register pages: which register lies at a physical address (R298, R321, R335, R350,
R364, R384, R386, R388, R391, R402, R403, R406, R408, R410, R412). -/

namespace Sys2Proof.Machine

/-- A register of the device-register pages: its block, the unit's number and the word in the block. -/
inductive RegId where
  | device (n : Nat)
  | ctx (c n : Nat)
  | queue (c q n : Nat)
  | samp (c n : Nat)
  | debug (core n : Nat)
  | thermal (rope : Nat)
  | power (rope : Nat)
  | slice (g : Nat)
  | episode (e n : Nat)
deriving DecidableEq, Repr

/-- The words of the device block that hold a register (R403, R406, R408, R410, R412). -/
def devWords : List Nat := [0, 1, 2, 3, 4, 5, 8, 9, 10, 11, 16, 17, 18, 19, 20, 21, 22, 23, 40, 41, 42, 43]

/-- The register that a byte address lies in, none where no register lies (R402). (DEDUCED, log entry 48) -/
def regAt (pa : Nat) : Option RegId :=
  if pa < 0x00F000000000 then none
  else
    let o := pa - 0x00F000000000
    if o < 0x10000 then
      let n := o / 8
      if devWords.contains n || (64 ≤ n && n < 192) then some (.device n) else none
    else if o < 0x810000 then
      let c := (o - 0x10000) / 0x10000
      let p := o % 0x10000
      if p < 0x200 then some (.ctx c (p / 8))
      else if p < 0x400 then some (.queue c ((p - 0x200) / 32) ((p % 32) / 8))
      else if p < 0x440 then some (.samp c ((p - 0x400) / 8))
      else none
    else if 0x1000000 ≤ o && o < 0x1000000 + 0x1000 * 1152 then
      if o % 0x1000 < 40 then some (.debug ((o - 0x1000000) / 0x1000) ((o % 0x1000) / 8)) else none
    else if 0x2000000 ≤ o && o < 0x2000000 + 0x1000 * 288 then
      let r := (o - 0x2000000) / 0x1000
      if o % 0x1000 < 8 then some (.thermal r) else if o % 0x1000 < 16 then some (.power r) else none
    else if 0x3000000 ≤ o && o < 0x3000000 + 0x1000 * 8 then
      if o % 0x1000 < 8 then some (.slice ((o - 0x3000000) / 0x1000)) else none
    else if 0x4000000 ≤ o && o < 0x4000000 + 0x100 * 512 then
      some (.episode ((o - 0x4000000) / 0x100) ((o % 0x100) / 8))
    else none

/-- The register accepts only .b64 accesses; the queue registers alone accept .b32 as well (R335, R402). -/
def regB64Only (pa : Nat) : Bool :=
  match regAt pa with
  | none => false
  | some (.queue ..) => false
  | some _ => true

end Sys2Proof.Machine
end

