-- ==== Sys2Proof/Machine/MemOps.lean ====
section
/-! DEFINITION. What every memory word shares: effective addresses, the checks of R153, range locks, the order among one
wave's accesses, the lanes' bytes (R150 to R155, R159, R207, R310, R316). -/

namespace Sys2Proof.Machine

/-! Fields and addresses (R150, R151). -/

/-- The scope of a memory word; the one-word form's is .device. -/
def scopeK (k : IC) : Nat := if k.u.two then k.u.scope else 5
/-- The access size in bytes. -/
def sizeOf3 (u : UW) : Nat := if u.two then 2 ^ u.size else 4
def sizeK (k : IC) : Nat := sizeOf3 k.u
/-- Symbols of a vector operand of a size (R152). -/
def memSyms (u : UW) : Nat := max 1 (sizeOf3 u / 4)

/-- The index of a lane: a byte offset, signed or unsigned, 0 without an index symbol. -/
def idxOf (uns : Bool) (k : IC) (l : Nat) : Int :=
  if k.u.nx == 1 then 0
  else if uns then ((veGet k.w (vNum k k.u.b) l).toNat : Int) else sextI (veGet k.w (vNum k k.u.b) l).toNat 32

/-- The effective address of a lane. -/
def eaOf (uns : Bool) (k : IC) (l : Nat) : Nat :=
  wrapI 64 (((sVal k k.u.a).toNat : Int) + idxOf uns k l + sextI k.u.disp 12)
/-- The effective address of a wave-level word. -/
def eaS (k : IC) : Nat := wrapI 64 (((sVal k k.u.a).toNat : Int) + sextI k.u.disp 12)
/-- The live lanes with their addresses. -/
def laneEas (uns : Bool) (k : IC) : List (Nat × Nat) := (lanesOf k.live).map (fun l => (l, eaOf uns k l))
/-- The address that a cairn record gives a memory word: the lowest live lane's (R393). -/
def eaLow (uns : Bool) (k : IC) : Nat := if k.live == 0 then 0 else eaOf uns k (lowLane k.live)

/-- The operands of an address: base a, index b unless the word names none. -/
def opsAB (u : UW) : List Opnd := if u.nx == 1 then [aS u] else [aS u, bV u 1]

/-- Bytes a..a+n and b..b+m share a byte. -/
def overlap (a n b m : Nat) : Bool := decide (a < b + m) && decide (b < a + n)

/-! Range locks (R207, R310). -/

/-- The lowest entry of the rope's range-lock table that satisfies p. -/
def lockFind (s : State) (rope : Nat) (p : Lock → Bool) : Option (Nat × Lock) := (ropeOf s rope).locks.find? (fun e => p e.2)

/-- The entry that a memory access of a context hits: any access of a destination, a write of a source. -/
def lockMem (s : State) (rope ctx va n : Nat) (wr : Bool) : Option (Nat × Lock) :=
  lockFind s rope (fun l => l.ctx == ctx &&
    ((wr && !l.sbv && overlap l.slo l.slen va n) || (!l.dbv && overlap l.dlo l.dlen va n)))

/-- The entry that an access of a buffer of a block hits. -/
def lockBuf (s : State) (rope blk buf off n : Nat) (wr : Bool) : Option (Nat × Lock) :=
  lockFind s rope (fun l => l.blk == blk &&
    ((wr && l.sbv && l.sbuf == buf && overlap l.slo l.slen off n) || (l.dbv && l.dbuf == buf && overlap l.dlo l.dlen off n)))

/-! The checks (R153). -/

/-- The outcome of a word's checks. -/
inductive Chk where
  | go (accs : List LaneAcc)
  | wait (s : State)
  | trap (t : TrapInfo)

/-- A condition met by the lanes given: the lowest decides the address; a wave-level word names no lane. -/
def laneTrap (lanes : Bool) (cause sub : Nat) (bad : List (Nat × Nat)) (kind : Nat) : TrapInfo :=
  { cause := cause, sub := sub, fmask := if lanes then laneSet (bad.map (·.1)) else 0,
    addr := (bad.headD (0, 0)).2, kind := kind }

/-- What an access needs: its bytes, reading, writing, what it may do at a device-register page, the KIND of a page
request (R318). -/
structure Need where
  n : Nat
  rd : Bool
  wr : Bool
  regOk : Nat → Bool
  kind : Nat

/-- The permission that a leaf refuses, as a subcode (R153, R159). -/
def permBad (s : State) (q : Need) (l : Leaf) (va : Nat) : Option Nat :=
  if q.rd && !l.rd then some 1
  else if q.wr && !l.w then some 2
  else if regionOf s (leafPa s l va) == .regs && !q.regOk (leafPa s l va) then some 4
  else none

/-- Translation and what follows it, for addresses that are aligned and canonical. -/
def checkXlat (k : IC) (s : State) (lanes : Bool) (q : Need) (accs : List (Nat × Nat)) : Chk :=
  let kn := accs.map (fun a => (a, xlatKnown s k.core k.w.ctx k.x a.2))
  if kn.any (fun e => e.2.isNone) then .wait (startWalks s k.wid k.slotB k.core k.w.ctx k.x (accs.map (·.2)))
  else
    let leaf := fun (e : (Nat × Nat) × Option (Option Leaf)) => e.2.bind (fun l => l)
    let inv := (kn.filter (fun e => (leaf e).isNone)).map (·.1)
    if inv != [] then .trap (laneTrap lanes 6 1 inv q.kind)
    else
      let bad := kn.filterMap (fun e => (leaf e).bind (fun l => (permBad s q l e.1.2).map (fun sub => (e.1, sub))))
      match bad with
      | (_, sub) :: _ => .trap (laneTrap lanes 7 sub (bad.map (·.1)) q.kind)
      | [] =>
        let hits := accs.filterMap (fun a => (lockMem s (ropeOfCore k.core) k.w.ctx a.2 q.n q.wr).map (fun h => (a, h)))
        match hits with
        | (_, h) :: _ => .trap { laneTrap lanes 9 h.1 (hits.map (·.1)) q.kind with extra := w64 h.2.seq }
        | [] => .go (kn.filterMap (fun e => (leaf e).map (fun l => ⟨e.1.1, e.1.2, leafPa s l e.1.2⟩)))

/-- The checks of R153 on the addresses of a word, in their order. -/
def memCheck (k : IC) (s : State) (lanes : Bool) (q : Need) (accs : List (Nat × Nat)) : Chk :=
  let mis := accs.filter (fun a => a.2 % q.n != 0)
  if mis != [] then .trap (laneTrap lanes 8 1 mis q.kind)
  else
    let non := accs.filter (fun a => !canonical a.2)
    if non != [] then .trap (laneTrap lanes 6 2 non q.kind)
    else checkXlat k s lanes q accs

/-- A device-register page accepts a load or store of .b32 or .b64 with order 0 or .rlx; .b32 not at a register that
accepts only .b64 (R159). -/
def regAccepts (n order pa : Nat) : Bool := order ≤ 1 && (n == 8 || (n == 4 && !regB64Only pa))

/-! Order among one wave's accesses (R155, R170, R275). -/

/-- A word waits while an acquire of its slot is not done (R155). -/
def acqHeld (k : IC) (s : State) : Bool := k.x.acq.any (fun id => (tget s.ops id).isSome)

/-- An outstanding operation reads or updates some of the bytes. -/
def opTouches (s : State) (o : Op) (pa n : Nat) : Bool :=
  let c := canonPa s
  match o.body with
  | .load size _ _ _ _ ls => ls.any (fun l => overlap (c l.pa) size (c pa) n)
  | .atom _ size _ _ _ todo _ _ => todo.any (fun l => overlap (c l.pa) size (c pa) n)
  | .ldt _ _ p size _ flt _ => flt.isNone && overlap (c p) size (c pa) n
  | _ => false

/-- A pending ticket of the wave, of an LDT before operation `id`, that has still to read a line of its range. -/
def ticketTouches (s : State) (id wid pa n : Nat) : Bool :=
  s.slices.any (fun g => g.2.tk.any (fun e => decide (e.2.op < id) && e.2.wid == wid && e.2.st == .pending && e.2.lines.length < tkLines e.2
    && overlap (canonPa s e.2.pa) e.2.size (canonPa s pa) n))

/-- A store or RED waits while an earlier access of its wave to the bytes is outstanding. -/
def storeHeld (k : IC) (s : State) (accs : List LaneAcc) (n : Nat) : Bool :=
  accs.any (fun a => s.ops.any (fun e => e.2.wid == k.wid && opTouches s e.2 a.pa n) || ticketTouches s s.nextId k.wid a.pa n)

/-- An ATOM waits while a fetch of its wave has still to read a line of a range that it overlaps (R170). -/
def fetchHeld (k : IC) (s : State) (accs : List LaneAcc) (n : Nat) : Bool :=
  accs.any (fun a => s.ops.any (fun e => e.2.wid == k.wid && (match e.2.body with | .ldt .. => opTouches s e.2 a.pa n | _ => false))
    || ticketTouches s s.nextId k.wid a.pa n)

/-- The caches of the accesses have a write to one of their lines on its way. -/
def linesBusy (s : State) (core : Nat) (pas : List Nat) : Bool :=
  pas.any (fun pa => hwBusy s (cacheOf s core pa) (lineOf pa))

/-- An outstanding operation or fetch entered before `id` by the same wave touches the bytes. -/
def earlierTouches (s : State) (id wid pa n : Nat) : Bool :=
  s.ops.any (fun e => decide (e.1 < id) && e.2.wid == wid && opTouches s e.2 pa n) || ticketTouches s id wid pa n

/-- A word whose guard leaves no lane live counts, performs no access and completes at once (R332). -/
def noLanes (k : IC) (c : CntK) (s : State) : Eff := if hasRoom k c then .done s else .wait s

/-- The slot's later words wait for an operation (R155). -/
def holdSlot (k : IC) (s : State) (id : Nat) : State := setX k s (fun x => { x with acq := id :: x.acq })

/-! Bytes of lanes (R152). -/

/-- The n bytes that a lane stores from the symbols of a field. -/
def laneBytes (k : IC) (f n l : Nat) : List Byte :=
  (upto (max 1 (n / 4))).flatMap (fun j => bytesOf (min n 4) (veGet k.w (vNum k f + j) l).toNat)

/-- The symbols that n loaded bytes give a lane. -/
def loadWords (n : Nat) (sx : Bool) (bs : List Byte) : List Nat :=
  if n ≤ 2 then [if sx then wrapI 32 (sextI (ofBytes bs) (8 * n)) else ofBytes bs]
  else (upto (n / 4)).map (fun j => ofBytes ((bs.drop (4 * j)).take 4))

/-- A symbol filled in the lanes listed. -/
def fillSym (w : Wave) (n : Nat) (vals : List (Nat × W32)) : Wave :=
  putV w false n (laneSet (vals.map (·.1))) (fun l => (tgetD vals l 0).toNat)

/-- Lane values written symbol by symbol: (symbol, lane, value). -/
def fillAll (w : Wave) (vs : List (Nat × Nat × W32)) : Wave :=
  ((vs.map (·.1)).eraseDups).foldl (fun w n =>
    fillSym w n ((vs.filter (fun v => v.1 == n)).map (fun v => v.2))) w

/-- Poison marks put on symbols (R159). (DESIGN CHOICE, log entry 45) -/
def addPois (w : Wave) (pm : List PoisonMark) : Wave :=
  { w with pois := w.pois.filter (fun p => !pm.any (fun q => q.cls == p.cls && q.num == p.num)) ++ pm }

/-! Buffers (R160, R161). -/

/-- A byte of a buffer, at its place in the block's part of the scratchpad, where a buffer that is not live at the same time may
lie too (R42, R247); a byte nothing has written reads 0. -/
def bufGet (b : Block) (buf off : Nat) : Byte := tgetD b.scr (bufAt b.var.info buf + off) 0
def bufBytes (b : Block) (buf off n : Nat) : List Byte := (upto n).map (fun i => bufGet b buf (off + i))
/-- A written range holds the whole 64-byte unit of a buffer that an offset lies in (R399). -/
def coversUnit (lo n off : Nat) : Bool := decide (lo ≤ off / 64 * 64) && decide (off / 64 * 64 + 64 ≤ lo + n)
/-- Bytes written into a buffer; the poison of the units written whole goes (R399). -/
def bufPut (b : Block) (buf off : Nat) (bs : List Byte) : Block :=
  { b with
    scr := bs.zipIdx.foldl (fun t e => tset 0 t (bufAt b.var.info buf + off + e.2) e.1) b.scr
    bufPois := b.bufPois.filter (fun p => !coversUnit (bufAt b.var.info buf + off) bs.length p.off) }
/-- Bytes of several buffers written as one: the poison of the units that they cover together goes (R399). -/
def bufPutAll (b : Block) (bs : List (Nat × Nat × Byte)) : Block :=
  let b1 := bs.foldl (fun b e => bufPut b e.1 e.2.1 [e.2.2]) b
  { b1 with bufPois := b1.bufPois.filter (fun p =>
      !(upto 64).all (fun i => bs.any (fun e => bufAt b.var.info e.1 + e.2.1 == p.off / 64 * 64 + i))) }

/-- The first poisoned byte of a buffer range, none when there is none. (DESIGN CHOICE, log entry 45) -/
def bufPoison (b : Block) (buf off n : Nat) : Option BufMark :=
  let lo := bufAt b.var.info buf + off
  b.bufPois.find? (fun p => decide (lo ≤ p.off) && decide (p.off < lo + n))

/-- The trap of a word that reads a poisoned byte: a value from memory names the word that fetched it, an error in the block's
own scratchpad names none (R229, R231, R232). -/
def bufTrap (m : BufMark) : TrapInfo :=
  { cause := 0x14, sub := m.sub, addr := m.addr, orig := if m.sub == 1 then some m.orig else none }
/-- The declared size of a buffer, 0 when there is none. -/
def bufSize (b : Block) (buf : Nat) : Nat := ((b.var.info.bufs[buf]?).map (·.size)).getD 0

/-- In a replay the bytes that the block stores are kept, and the lines that its waves have taken follow them (R396).
(DEDUCED, log entry 37) -/
def replayStore (s : State) (blk pa : Nat) (bs : List Byte) : State :=
  match tget s.blocks blk with
  | none => s
  | some b =>
    if !((tget s.launches b.lid).bind (·.replay)).isSome then s
    else
      b.waves.foldl (fun s i => modWave s i (fun w => { w with rlines := tmod w.rlines (lineOf pa) (fun data =>
        bs.zipIdx.foldl (fun d e => setAt d (pa % 128 + e.2) e.1) data) }))
        (modBlock s blk (fun b => { b with rbytes := bs.zipIdx.foldl (fun t e => tput t (pa + e.2) e.1) b.rbytes }))

/-! Reads of memory by a wave, logged or replayed (R265, R394 to R396). -/

/-- The name under which a wave counts a word's reads of a line. -/
def readKey (o : Origin) (va : Nat) : Nat := (o.image * 2 ^ 32 + o.off) * 2 ^ 64 + va / 128

/-- A wave's word reads a line once more. -/
def countRead (s : State) (wid key : Nat) : State :=
  modWave s wid (fun w => { w with reads := tput w.reads key (tgetD w.reads key 0 + 1) })

/-- What a replayed wave reads of a line without a record: the line as its log gave it last, with the block's later stores, or the
bytes that the block has stored (R395, R396). -/
def replayHeld (s : State) (w : Wave) (pa n : Nat) : Option (List Byte) :=
  match tget w.rlines (lineOf pa) with
  | some data => some ((upto n).map (fun i => data.getD (pa % 128 + i) 0))
  | none => (tget s.blocks w.blk).bind (fun b => (upto n).mapM (fun i => tget b.rbytes (pa + i)))

/-- A record of a line is of the read that a word makes now: the word had read the line as often when the record was made (R396).
Of a record that this log never made nothing is known: it may be. (DEDUCED, log entry 37; log entry 53) -/
def readsNow (s : State) (w : Wave) (o : Origin) (va : Nat) (l : LogRec) : Bool :=
  match tget (ctxOf s w.ctx).lreads l.unit with
  | some (lo, q, k) =>
    if lo == o && q == w.wseq then k == tgetD w.reads (readKey o va) 0 else (Config.freeValue s.fresh).getLsbD 0
  | none => (Config.freeValue s.fresh).getLsbD 0

/-- A read in a replay: the wave's next record when it is of this word and line and of this read of it, else what the wave has of the
line (R396). (DEDUCED, log entry 37; log entry 53) -/
def replayRead (s : State) (wid : Nat) (w : Wave) (o : Origin) (va pa n : Nat) : Option (List Byte × State) :=
  let s1 := { s with fresh := s.fresh + 1 }
  let held := (replayHeld s w pa n).map (fun d => (d, s1))
  match nextRec s w with
  | some l =>
    if l.kind == 1 && l.image == o.image && l.off == o.off && l.addr == va / 128 * 128
        && (held.isNone || readsNow s w o va l) then
      let data := l.data.take 128
      some ((upto n).map (fun i => data.getD (pa % 128 + i) 0),
        modWave (tookRec s1 wid w l) wid (fun w => { w with rlines := tput w.rlines (lineOf pa) data }))
    else held
  | none => held

/-- The record of a line that a wave reads, and how often its word had read it (R394, R396). -/
def logLine (s : State) (wid : Nat) (w : Wave) (o : Origin) (va : Nat) (line : List Byte) : State :=
  let s1 := logRec s wid 1 (va / 128 * 128) o line
  if (tget s1.waves wid).elim true (fun v => v.wseq == w.wseq) then s1
  else modCtx s1 w.ctx (fun c => { c with
    lreads := tput c.lreads ((c.lring.widx - BitVec.ofNat 32 (logUnits line.length)).toNat) (o, w.wseq, tgetD w.reads (readKey o va) 0) })

/-- The fill of a clean copy, or what names a dirty line; 0 for none (R395). -/
def fillOf (s : State) (cid ln : Nat) : Nat :=
  match getLine s cid ln with | some ⟨.clean .., _, f⟩ => f | some ⟨.dirty .., _, f⟩ => f | _ => 0

/-- A read of n bytes within a line by a wave: its bytes, the state, and whether a unit read is poisoned. None when a
replay finds no record for it. -/
def readFor (s0 : State) (wid core : Nat) (o : Origin) (va pa n : Nat) (atHome : Bool) :
    Option (List Byte × State × Bool) :=
  let s := match tget s0.waves wid with
    | some w => if replayOf s0 w || (ctxOf s0 w.ctx).logen then countRead s0 wid (readKey o va) else s0
    | none => s0
  match tget s.waves wid with
  | none => none
  | some w =>
    if replayOf s w then (replayRead s wid w o va pa n).map (fun r => (r.1, r.2, false))
    else
      let cid := cacheOf s core pa
      let r := cacheRead s cid w.ctx pa n atHome
      let s1 := r.2.1
      let f := fillOf s1 cid (lineOf pa)
      if !(ctxOf s1 w.ctx).logen || (!r.2.2.2 && (f == w.blk || w.logged.contains f)) then some (r.1, s1, r.2.2.1)
      else
        let line := cacheRead s1 cid w.ctx (128 * lineOf pa) 128 false
        let s2 := logLine line.2.1 wid w o va line.1
        some (r.1, modWave s2 wid (fun w => { w with logged := f :: w.logged }), r.2.2.1)

end Sys2Proof.Machine
end

