-- ==== Sys2Proof/Machine/Memory.lean ====
section
/-! DEFINITION. Loads, stores, scratchpad accesses, fences and cache control of class 3, as they issue (R156 to R166). -/

namespace Sys2Proof.Machine

/-! LD and ST (R157, R158). -/

/-- LD issues: its checks, its destinations empty, its counter. -/
def mmLd (k : IC) (s : State) : Eff :=
  if k.live == 0 then noLanes k .load s
  else if acqHeld k s then .wait s
  else match memCheck k s true ⟨sizeK k, true, false, regAccepts (sizeK k) k.u.order, 1⟩ (laneEas (bit k.u.card 1) k) with
    | .trap t => .trap s t
    | .wait s => .wait s
    | .go accs =>
      if !hasRoom k .load then .wait s
      else
        let d := vNum k k.u.d
        let r := produce k s .load .v ((upto (memSyms k.u)).map (fun i => d + i))
          (.load (sizeK k) k.u.order (scopeK k) (bit k.u.card 0) d accs)
        .done (if k.u.order == 2 then holdSlot k r.2 r.1 else r.2)

/-- One lane of a store at a scope: kept in the L1, or sent to its home as part of operation `op` (R154). The answer
lists the writes sent. -/
def storeLane (k : IC) (scope op : Nat) (bs : Nat → List Byte) (p : State × List Nat) (a : LaneAcc) : State × List Nat :=
  let s := reachNow (replayStore p.1 k.w.blk a.pa (bs a.lane)) k.wid (storeLevel p.1 k.core a.pa scope)
  let cid := cacheOf s k.core a.pa
  if regionOf s a.pa == .regs then
    let r := pushHw s ⟨k.wid, k.w.ctx, cid, (bs a.lane).zipIdx.map (fun e => (a.pa + e.2, e.1)), none, some op, 0, none, []⟩
    (r.2, p.2 ++ [r.1])
  else if scope ≤ reachOf s k.core then (narrowStore s cid k.w.ctx a.pa (bs a.lane) scope k.w.blk, p.2)
  else
    let r := wideStore s k.wid k.w.ctx cid a.pa (bs a.lane) op scope
    (r.2, p.2 ++ [r.1])

/-- The 64-byte units that the lanes of a store, n bytes each, cover whole (R399). -/
def coverOf (s : State) (accs : List LaneAcc) (n : Nat) : List Nat :=
  ((accs.map (fun a => unitOf (canonPa s a.pa))).eraseDups).filter (fun u =>
    (upto 64).all (fun i => accs.any (fun a => decide (canonPa s a.pa ≤ 64 * u + i) && decide (64 * u + i < canonPa s a.pa + n))))

/-- The writes of a store know the units that they cover together. -/
def withCover (s : State) (ids us : List Nat) : State :=
  if us.isEmpty then s
  else { s with hw := s.hw.map (fun e => if ids.contains e.1
      then (e.1, { e.2 with cover := us.filter (fun u => e.2.bytes.any (fun b => unitOf (canonPa s b.1) == u)) }) else e) }

/-- The lanes of a store in ascending order; an operation counts while a write of it is on its way (R158). -/
def storeAll (k : IC) (s : State) (scope : Nat) (accs : List LaneAcc) (bs : Nat → List Byte) : State :=
  let r := accs.foldl (storeLane k scope (s.nextId) bs) ({ s with nextId := s.nextId + 1 }, [])
  if r.2.isEmpty then r.1
  else modWave { withCover r.1 r.2 (coverOf s accs (sizeK k)) with ops := tput r.1.ops s.nextId ⟨k.wid, .store, originK k, s.now, .store r.2 0⟩ } k.wid
    (fun w => cntUp w .store)

/-- ST (R158). -/
def mmSt (k : IC) (s : State) : Eff :=
  let n := sizeK k
  if k.live == 0 then noLanes k .store s
  else if acqHeld k s then .wait s
  else match memCheck k s true ⟨n, false, true, regAccepts n k.u.order, 2⟩ (laneEas (bit k.u.card 1) k) with
    | .trap t => .trap s t
    | .wait s => .wait s
    | .go accs =>
      if storeHeld k s accs n || !hasRoom k .store then .wait s
      else
        let perform := fun s => Eff.done (storeAll k s (scopeK k) accs (fun l => laneBytes k k.u.d n l))
        if k.u.order == 3 then release (scopeK k) k s perform else perform s

/-! LDS and STS (R160, R161). -/

/-- The offset of a lane in its buffer. -/
def bufOff (k : IC) (l : Nat) : Int :=
  (if k.u.nx == 1 then 0 else ((veGet k.w (vNum k k.u.b) l).toNat : Int)) + sextI k.u.disp 12
/-- The lanes of a scratchpad word with their offsets. -/
def bufOffs (k : IC) : List (Nat × Int) := (lanesOf k.live).map (fun l => (l, bufOff k l))

/-- The offset that a cairn record gives a scratchpad word: the lowest live lane's (R393). (DESIGN CHOICE, log entry 16) -/
def bufLow (k : IC) : Nat := if k.live == 0 then 0 else wrapI 64 (bufOff k (lowLane k.live))

/-- The checks of R153 that a scratchpad word meets. -/
def bufCheck (k : IC) (s : State) (wr : Bool) : Option TrapInfo :=
  let n := sizeK k
  let los := (bufOffs k).map (fun e => (e.1, wrapI 64 e.2))
  let out := ((bufOffs k).filter (fun e => decide (e.2 < 0) || decide ((bufSize k.b k.u.a : Int) < e.2 + n))).map
    (fun e => (e.1, wrapI 64 e.2))
  if out != [] then some (laneTrap true 4 2 out 1)
  else
    let mis := los.filter (fun e => e.2 % n != 0)
    if mis != [] then some (laneTrap true 8 1 mis 1)
    else
      let hits := los.filterMap (fun e => (lockBuf s (ropeOfCore k.core) k.w.blk k.u.a e.2 n wr).map (fun h => (e, h)))
      match hits with
      | (_, h) :: _ => some { laneTrap true 9 h.1 (hits.map (·.1)) 1 with extra := w64 h.2.seq }
      | [] => none

/-- LDS: the bytes are read as the word issues; its results are written later (R161). An error in the block's own scratchpad
traps here, and poison that was fetched into the buffer travels on (R229, R399). -/
def mmLds (k : IC) (s : State) : Eff :=
  if k.live == 0 then noLanes k .load s
  else if acqHeld k s then .wait s
  else match bufCheck k s false with
    | some t => .trap s t
    | none =>
      let n := sizeK k
      let d := vNum k k.u.d
      let offs := (bufOffs k).map (fun e => (e.1, e.2.toNat))
      let base := bufAt k.b.var.info k.u.a
      let bad := offs.flatMap (fun e => k.b.bufPois.filter (fun p => decide (base + e.2 ≤ p.off) && decide (p.off < base + e.2 + n)))
      match bad.find? (fun p => p.sub == 2) with
      | some p => .trap s (bufTrap p)
      | none =>
        if !hasRoom k .load then .wait s
        else
        let vs := offs.flatMap (fun e =>
          (loadWords n (bit k.u.card 0) (bufBytes k.b k.u.a e.2 n)).zipIdx.map (fun x => (d + x.2, e.1, w32 x.1)))
        let pm := match bad with
          | [] => []
          | p :: _ => (upto (memSyms k.u)).map (fun i => (⟨.v, d + i, p.sub, p.orig, p.addr⟩ : PoisonMark))
        .done (produce k (reachNow s k.wid 1) .load .v ((upto (memSyms k.u)).map (fun i => d + i)) (.vals vs [] [] pm [])).2

/-- The bytes of an STS, lane by lane. -/
def stsBytes (k : IC) : List (Nat × Nat × Byte) :=
  (bufOffs k).flatMap (fun e => (laneBytes k k.u.d (sizeK k) e.1).zipIdx.map (fun x => (k.u.a, e.2.toNat + x.2, x.1)))

/-- STS: performed as the word issues; it counts until then (R56, R161). -/
def mmSts (k : IC) (s : State) : Eff :=
  if k.live == 0 then noLanes k .store s
  else if acqHeld k s then .wait s
  else match bufCheck k s true with
    | some t => .trap s t
    | none =>
      if !hasRoom k .store then .wait s
      else .done (launchOp k (modBlock (reachNow s k.wid 1) k.w.blk (fun b => bufPutAll b (stsBytes k))) .store (.store [] s.now)).2

/-! FENCE, FENCE.I, PREF, CWB (R162 to R166). -/

/-- A read of the wave is outstanding. -/
def readBusy (s : State) (wid : Nat) : Bool :=
  anyOp s wid (fun b => match b with
    | .load .. => true
    | .vals .. => true
    | .atom .. => true
    | .ldt .. => true
    | _ => false) || unreadTicket s wid

/-- FENCE: both sides, or the one that the card keeps; the acquire side waits for the wave's reads (R162, R271). (DEDUCED, log entry 41) -/
def mmFence (k : IC) (s : State) : Eff :=
  let x := scopeK k
  if bit k.u.card 0 then
    if readBusy s k.wid then .wait s else .done (acquire x k s)
  else release x k s (fun s => .done (if bit k.u.card 1 then s else acquire x k s))

/-- FENCE.I: the core holds no fetched word; kept scans hold no state (R164). Of the words on their way to the core, those read
before the wave's last acquire or release at device scope go, since an earlier write may be ordered before the FENCE.I (R282). It waits
for an acquire of its slot. (DEDUCED, log entry 41) -/
def mmFenceI (k : IC) (s : State) : Eff :=
  if acqHeld k s then .wait s
  else .done { s with
    icache := tdel s.icache k.core
    fetches := tset [] s.fetches k.core ((tgetD s.fetches k.core []).filter (fun e => decide (k.w.acqAt ≤ e.2.2))) }

/-- PREF has no effect that a program can see (R165). -/
def mmPref (_ : IC) (s : State) : Eff := .done s

/-- The line of a CWB: its update-only copy combined, its dirty bytes sent to the home, after which it is clean and written at
the word's scope, or gone under .inv (R166, R266). The answer lists the writes sent, and the completion time of the updates
combined. -/
def cwbLine (k : IC) (op : Nat) (p : State × List Nat × Nat) (pa : Nat) : State × List Nat × Nat :=
  let s := p.1
  let cid := cacheOf s k.core pa
  let ln := lineOf pa
  let inv := bit k.u.card 0
  match getLine s cid ln with
  | some ⟨.upd .., _, _⟩ =>
    let r := recallLineT s ln
    (r.1, p.2.1, max p.2.2 r.2)
  | some ⟨.dirty by_ _, _, _⟩ =>
    let r := pushHw (dropLine s cid ln) ⟨k.wid, k.w.ctx, cid, by_, none, some op, 0, if inv then none else some (scopeK k), []⟩
    (r.2, p.2.1 ++ [r.1], p.2.2)
  | some ⟨.clean .., _, _⟩ => (if inv then dropLine s cid ln else s, p.2)
  | none => p

/-- CWB (R166); it counts until every line is performed at its scope. R153 checks a lane of it as an access of one byte (DESIGN CHOICE,
log entry 53). -/
def mmCwb (k : IC) (s : State) : Eff :=
  if k.live == 0 then noLanes k .store s
  else if acqHeld k s then .wait s
  else match memCheck k s true ⟨1, false, true, fun _ => false, 2⟩ (laneEas (bit k.u.card 1) k) with
    | .trap t => .trap s t
    | .wait s => .wait s
    | .go accs =>
      if !hasRoom k .store then .wait s
      else
        let lines := (accs.map (fun a => 128 * lineOf a.pa)).eraseDups
        let r := lines.foldl (cwbLine k s.nextId) ({ s with nextId := s.nextId + 1 }, [], 0)
        .done (modWave { r.1 with ops := tput r.1.ops s.nextId ⟨k.wid, .store, originK k, s.now, .store r.2.1 r.2.2⟩ } k.wid
          (fun w => cntUp w .store))

/-- LD, one word (R150 to R157). -/
def execLd (w : CW) (s : State) : Out :=
  issueWord { u := ucw w, ok := fun _ => ok52 (ucw w), ops := fun _ => dV (ucw w) (memSyms (ucw w)) :: opsAB (ucw w), lanes := true, always := [0], addr := eaLow (bit ((ucw w)).card 1) } mmLd s

/-- LD_LONG, two words (R150 to R157). -/
def execLdLong (w : CW) (m : MemW) (s : State) : Out :=
  issueWord { u := uxw w m, ok := fun _ => ok52 (uxw w m), ops := fun _ => dV (uxw w m) (memSyms (uxw w m)) :: opsAB (uxw w m), lanes := true, always := [0], addr := eaLow (bit ((uxw w m)).card 1) } mmLd s

/-- ST, one word (R150 to R156, R158). -/
def execSt (w : CW) (s : State) : Out :=
  issueWord { u := ucw w, ok := fun _ => ok53 (ucw w), ops := fun _ => dVr (ucw w) (memSyms (ucw w)) :: opsAB (ucw w), lanes := true, addr := eaLow (bit ((ucw w)).card 1) } mmSt s

/-- ST_LONG, two words (R150 to R156, R158). -/
def execStLong (w : CW) (m : MemW) (s : State) : Out :=
  issueWord { u := uxw w m, ok := fun _ => ok53 (uxw w m), ops := fun _ => dVr (uxw w m) (memSyms (uxw w m)) :: opsAB (uxw w m), lanes := true, addr := eaLow (bit ((uxw w m)).card 1) } mmSt s

/-- LDS, one word (R160, R161). -/
def execLds (w : CW) (s : State) : Out :=
  issueWord { u := ucw w, ok := fun _ => ok54 (ucw w), ops := fun _ => dV (ucw w) (memSyms (ucw w)) :: aBuf (ucw w) :: (if ((ucw w)).nx == 1 then [] else [bV (ucw w) 1]), lanes := true, always := [0], addr := bufLow } mmLds s

/-- LDS_LONG, two words (R160, R161). -/
def execLdsLong (w : CW) (m : MemW) (s : State) : Out :=
  issueWord { u := uxw w m, ok := fun _ => ok54 (uxw w m), ops := fun _ => dV (uxw w m) (memSyms (uxw w m)) :: aBuf (uxw w m) :: (if ((uxw w m)).nx == 1 then [] else [bV (uxw w m) 1]), lanes := true, always := [0], addr := bufLow } mmLds s

/-- STS, one word (R160, R161). -/
def execSts (w : CW) (s : State) : Out :=
  issueWord { u := ucw w, ok := fun _ => ok55 (ucw w), ops := fun _ => dVr (ucw w) (memSyms (ucw w)) :: aBufW (ucw w) :: (if ((ucw w)).nx == 1 then [] else [bV (ucw w) 1]), lanes := true, addr := bufLow } mmSts s

/-- STS_LONG, two words (R160, R161). -/
def execStsLong (w : CW) (m : MemW) (s : State) : Out :=
  issueWord { u := uxw w m, ok := fun _ => ok55 (uxw w m), ops := fun _ => dVr (uxw w m) (memSyms (uxw w m)) :: aBufW (uxw w m) :: (if ((uxw w m)).nx == 1 then [] else [bV (uxw w m) 1]), lanes := true, addr := bufLow } mmSts s

/-- FENCE, one word (R162). -/
def execFence (w : CW) (s : State) : Out :=
  issueWord { u := ucw w, ok := fun _ => ok62 (ucw w) } mmFence s

/-- FENCE_LONG, two words (R162). -/
def execFenceLong (w : CW) (m : MemW) (s : State) : Out :=
  issueWord { u := uxw w m, ok := fun _ => ok62 (uxw w m) } mmFence s

/-- FENCE_I, one word (R164). -/
def execFenceI (w : CW) (s : State) : Out :=
  issueWord { u := ucw w, ok := fun _ => ok0 (ucw w) } mmFenceI s

/-- PREF, one word (R165). -/
def execPref (w : CW) (s : State) : Out :=
  issueWord { u := ucw w, ok := fun _ => ok63 (ucw w), ops := fun _ => opsAB (ucw w), lanes := true, addr := eaLow (bit ((ucw w)).card 1) } mmPref s

/-- PREF_LONG, two words (R165). -/
def execPrefLong (w : CW) (m : MemW) (s : State) : Out :=
  issueWord { u := uxw w m, ok := fun _ => ok63 (uxw w m), ops := fun _ => opsAB (uxw w m), lanes := true, addr := eaLow (bit ((uxw w m)).card 1) } mmPref s

/-- CWB, one word (R166). -/
def execCwb (w : CW) (s : State) : Out :=
  issueWord { u := ucw w, ok := fun _ => ok64 (ucw w), ops := fun _ => opsAB (ucw w), lanes := true, addr := eaLow (bit ((ucw w)).card 1) } mmCwb s

/-- CWB_LONG, two words (R166). -/
def execCwbLong (w : CW) (m : MemW) (s : State) : Out :=
  issueWord { u := uxw w m, ok := fun _ => ok64 (uxw w m), ops := fun _ => opsAB (uxw w m), lanes := true, addr := eaLow (bit ((uxw w m)).card 1) } mmCwb s

end Sys2Proof.Machine
end

