-- ==== Sys2Proof/Machine/Ticket.lean ====
section
/-! DEFINITION. Tickets: their layout, their classification, the claims on an entry, and LDT, RDM.V, RDM.S, TKREL and TKQ
as they issue (R167 to R178, R306, R307). -/

namespace Sys2Proof.Machine

/-! The ticket (R167). -/

/-- One byte into CRC-16/CCITT: polynomial 0x1021, not reflected. -/
def crcByte (crc : Nat) (b : Byte) : Nat :=
  (upto 8).foldl (fun c _ => if bit c 15 then ((c <<< 1) ^^^ 0x1021) % 65536 else (c <<< 1) % 65536) (crc ^^^ (b.toNat <<< 8))
/-- The CHECK of bits [63:16] of a ticket: six bytes, the highest first, from 0xFFFF. -/
def ticketCheck (t : Nat) : Nat := ((bytesOf 8 t).reverse.take 6).foldl crcByte 0xFFFF

/-- The ticket of an entry. -/
def mkTicket (device slice index : Nat) (gen : BitVec 16) (ctx : Nat) : W64 :=
  let t := device * 2 ^ 56 + slice * 2 ^ 53 + index * 2 ^ 39 + gen.toNat * 2 ^ 23 + ctx * 2 ^ 16
  w64 (t + ticketCheck t)

def tkDevice (t : W64) : Nat := bits t.toNat 63 56
def tkSlice (t : W64) : Nat := bits t.toNat 55 53
def tkIndex (t : W64) : Nat := bits t.toNat 52 39
def tkGen (t : W64) : Nat := bits t.toNat 38 23
def tkCtx (t : W64) : Nat := bits t.toNat 22 16

/-! Entries (R306, R307). -/

def ticketAt (s : State) (g i : Nat) : Ticket := tgetD (sliceOf s g).tk i {}
def putTicket (s : State) (g i : Nat) (e : Ticket) : State := modSlice s g (fun x => { x with tk := tset {} x.tk i e })

/-- The R168 code of a ticket that a context shows, classified in the order of R307. -/
def classify (s : State) (ctx : Nat) (t : W64) : Nat :=
  let e := ticketAt s (tkSlice t) (tkIndex t)
  let ahead := (e.gen.toNat + 65536 - tkGen t) % 65536
  if ticketCheck (t.toNat / 65536 * 65536) != t.toNat % 65536 || tkDevice t != s.dev.devnum.toNat
      || tkCtx t != ctx || tkCtx t != e.ctx then 5
  else if ahead == 0 then
    match e.st with
    | .pending => 0
    | .ready => 1
    | .faulted => 2
    | .free => 5
  else if ahead == 1 then (if e.expired then 4 else 3)
  else if ahead ≤ 32768 then 4
  else 5

/-- The lease of an entry that nothing has claimed is over (R178). -/
def leaseOver (s : State) (e : Ticket) : Bool := e.claim.isNone && decide (e.leaseEnd ≤ s.now)

/-- The state that a claim finds: a pending ticket that another has claimed is redeemed to it (R175), and one whose lease has
ended is expired (R178). The entry of a claimed pending ticket moves on as its data is delivered (DESIGN CHOICE, log entry 53). -/
def claimState (s : State) (ctx : Nat) (t : W64) : Nat :=
  let st := classify s ctx t
  let e := ticketAt s (tkSlice t) (tkIndex t)
  if st == 0 && e.claim.isSome then 3 else if st ≤ 2 && leaseOver s e then 4 else st

/-- The generation moves on: the entry and its units are free (R168, R306). -/
def moveOn (e : Ticket) (expired : Bool) : Ticket :=
  { gen := e.gen + 1, ctx := e.ctx, expired := expired }

/-- An entry ends at its lease end, teardown or reset; the context counts it (R178). -/
def reclaimTicket (s : State) (g i : Nat) : State :=
  let e := ticketAt s g i
  if e.st == .free then s
  else modCtx (putTicket s g i (moveOn e true)) e.ctx (fun c => { c with reclaim := satInc c.reclaim })

/-- Bytes of a fetch size code. -/
def tkBytes (code : Nat) : Nat := 64 * 2 ^ code
/-- The fetch size code that a word names. -/
def tkCode (u : UW) : Nat := if u.two then u.card % 8 else 1

/-! LDT (R169 to R171). -/

/-- Line-buffer bytes in use in a slice (R306). -/
def lineBytes (s : State) (g : Nat) : Nat :=
  (sliceOf s g).tk.foldl (fun n e => n + if e.2.st == .pending || e.2.st == .ready then e.2.size else 0) 0

/-- The outstanding LDTs for a slice. -/
def dueLdts (s : State) (g : Nat) : Tbl Op := s.ops.filter (fun e => match e.2.body with | .ldt _ _ _ _ _ _ sl => sl == g | _ => false)

/-- The line-buffer bytes that an LDT will take: none for a fetch that gives a faulted ticket (R306). -/
def ldtBytes (o : Op) : Nat := match o.body with | .ldt _ _ _ z _ none _ => z | _ => 0

/-- Live entries of a context in a slice, and the line-buffer bytes they take, outstanding LDTs counted (R171, R306). -/
def tkUse (s : State) (ctx g : Nat) : Nat × Nat :=
  let live := (sliceOf s g).tk.filter (fun e => e.2.ctx == ctx && e.2.st != .free && !leaseOver s e.2)
  let due := (dueLdts s g).filter (fun e => (tget s.waves e.2.wid).elim false (fun w => w.ctx == ctx))
  let a := live.foldl (fun n e => n + if e.2.st == .faulted then 0 else e.2.size) 0
  let b := due.foldl (fun n e => n + ldtBytes e.2) 0
  (live.length + due.length, a + b)

/-- A slice's table has no free entry for a fetch, beside those that earlier LDTs will take (R171, R306). -/
def sliceFull (s : State) (g size : Nat) (flt : Option Nat) : Bool :=
  let due := dueLdts s g
  decide (16384 ≤ ((sliceOf s g).tk.filter (fun e => e.2.st != .free)).length + due.length)
    || (flt.isNone && decide (1048576 < lineBytes s g + due.foldl (fun n e => n + ldtBytes e.2) 0 + size))

/-- A slot waits at issue behind its LDT, which has no entry yet (R171, R258). (DEDUCED, log entry 22) -/
def ldtHeld (s : State) (x : Slot) : Bool := x.ldt.elim false (fun op => (tget s.ops op).isSome)

/-- An LDT that fits the quota issues; where its slice's table has no free entry it waits for one, with s_d empty, and so does its
slot (R169, R171). (DEDUCED, log entry 22) -/
def ldtGo (k : IC) (s : State) (va pa size g : Nat) (flt : Option Nat) : Eff :=
  let u := tkUse s k.w.ctx g
  let c := ctxOf s k.w.ctx
  if !replayOf s k.w && (u.1 ≥ c.tkent || (flt.isNone && u.2 + size > c.tkkib * 1024)) then
    .trap s { cause := 0x0A, sub := 6 }
  else if !hasRoom k .ticket then .wait s
  else
    let d := sNum k k.u.d
    let r := produce k s .ticket .s [d] (.ldt d va pa size (scopeK k) flt g)
    .done (if !replayOf s k.w && sliceFull s g size flt then setX k r.2 (fun x => { x with ldt := some r.1 }) else r.2)

/-- The lines of a range leave the issuing L1: dirty bytes for their home, update-only copies combined (R170, R301). -/
def drainLines (k : IC) (s : State) (pa size : Nat) : State :=
  (upto (max 1 (size / 128))).foldl (fun s i =>
    let a := pa + 128 * i
    let cid := cacheOf s k.core a
    match getLine s cid (lineOf a) with
    | some ⟨.upd .., _, _⟩ => recallLine s (lineOf a)
    | _ => writeBack s k.wid k.w.ctx cid (lineOf a)) s

/-- LDT (R169, R170). (DEDUCED, log entry 46) -/
def tkLdt (k : IC) (s : State) : Eff :=
  let va := eaS k
  let size := tkBytes (tkCode k.u)
  if acqHeld k s then .wait s
  else if va % size != 0 then .trap s { cause := 8, sub := 1, addr := va }
  else if !canonical va then .trap s { cause := 6, sub := 2, addr := va }
  else match xlatKnown s k.core k.w.ctx k.x va with
    | none => .wait (startWalks s k.wid k.slotB k.core k.w.ctx k.x [va])
    | some lf =>
      let onPage := match lf with | some l => regionOf s (leafPa s l va) == .regs | none => false
      if onPage == true then .trap s { cause := 7, sub := 4, addr := va }
      else match lockMem s (ropeOfCore k.core) k.w.ctx va size false with
        | some h => .trap s { cause := 9, sub := h.1, addr := va, extra := w64 h.2.seq }
        | none =>
          match lf with
          | none => ldtGo k s va 0 size (stackOfCore k.core) (some 6)
          | some l =>
            if !l.rd then ldtGo k s va 0 size (stackOfCore k.core) (some 7)
            else
              let pa := leafPa s l va
              let g := if isDevMem s pa then homeSlice s pa else stackOfCore k.core
              let s1 := drainLines k s pa size
              if linesBusy s1 k.core ((upto (max 1 (size / 128))).map (fun i => pa + 128 * i)) then .wait s1
              else ldtGo k s1 va pa size g none

/-! Redeems (R172 to R175). -/

/-- The symbols that a redeemed range gives: (symbol, lane, value); lanes above the data get 0 (R172). -/
def rdmVals (width d : Nat) (data : List Byte) : List (Nat × Nat × W32) :=
  (upto (max 1 (data.length / (4 * width)))).flatMap (fun i => (upto width).map (fun l =>
    (d + i, l, w32 (ofBytes ((data.drop (4 * (i * width + l))).take 4)))))

/-- The poison marks of the symbols that hold poisoned units (R159, R399): the issuing LDT and the unit's address. -/
def rdmPois (width d : Nat) (e : Ticket) : List PoisonMark :=
  e.pois.flatMap (fun u =>
    let lo := 64 * u / (4 * width)
    let hi := (64 * u + 63) / (4 * width)
    ((upto (hi + 1)).filter (fun i => decide (lo ≤ i))).map (fun i => ⟨.v, d + i, 1, e.orig, e.va + 64 * u⟩))

/-- The data of a ready entry, line by line. -/
def tkData (e : Ticket) : List Byte := (e.lines.flatMap (·.2)).take e.size

/-- What a ready entry delivers. -/
def rdmBody (width : Nat) (dst : RdmDest) (e : Ticket) (data : List Byte) : Body :=
  match dst with
  | .vec d => .vals (rdmVals width d data) [] [] (rdmPois width d e) []
  | .buf b off => .vals [] [] (data.zipIdx.map (fun x => (b, off + x.2, x.1))) []
      (e.pois.flatMap (fun u => (upto 64).map (fun i => (b, ⟨off + 64 * u + i, 1, e.orig, e.va + 64 * u⟩))))

/-- The destinations that a redeem marks empty: RDM.S marks none (R173). -/
def rdmNums (width size : Nat) : RdmDest → List Nat
  | .vec d => (upto (max 1 (size / (4 * width)))).map (fun i => d + i)
  | .buf .. => []

/-- The trap of a ticket in a state that is not live (R174). -/
def deadTicket (st : Nat) (t : W64) : TrapInfo := { cause := 0x0A, sub := st - 2, extra := t }

/-- A redeem claims its ticket (R174, R175); in a replay no table is touched and a record will supply the bytes (R396). -/
def redeem (k : IC) (s : State) (dst : RdmDest) : Eff :=
  let t := sVal k k.u.a
  let size := tkBytes (tkCode k.u)
  let nums := rdmNums k.w.width size dst
  if replayOf s k.w then .done (produce k s .load .v nums (.rdm dst t size)).2
  else
    let st := claimState s k.w.ctx t
    let g := tkSlice t
    let i := tkIndex t
    let e := ticketAt s g i
    if st ≥ 3 then .trap s (deadTicket st t)
    else if e.size != size then .trap s { cause := 0x0A, sub := 5, extra := t }
    else match e.st with
      | .faulted =>
        .trap (putTicket s g i (moveOn e false))
          { cause := 0x0A, sub := 4 + 256 * e.cause, addr := e.va, orig := some e.orig, extra := t }
      | .ready =>
        receiveK k (putTicket s g i (moveOn e false)) 3 e.va (tkData e) (fun s data =>
          .done (produce k s .load .v nums (rdmBody k.w.width dst e data)).2)
      | _ =>
        let r := produce k s .load .v nums (.rdm dst t size)
        .done (putTicket r.2 g i { e with claim := some (.wave r.1) })

/-- RDM.V (R172). -/
def tkRdmV (k : IC) (s : State) : Eff :=
  if acqHeld k s || !hasRoom k .load then .wait s else redeem k s (.vec (vNum k k.u.d))

/-- The byte offset of RDM.S, s_b being signed (R173; DESIGN CHOICE, log entry 53). -/
def rdmOff (k : IC) : Int :=
  (if k.u.nx == 1 then 0 else sextI (sVal k k.u.b).toNat 64) + sextI k.u.disp 12

/-- RDM.S: its offset, its range lock, then the claim (R153, R173). -/
def tkRdmS (k : IC) (s : State) : Eff :=
  let off := rdmOff k
  let size := tkBytes (tkCode k.u)
  if acqHeld k s then .wait s
  else if off < 0 || (bufSize k.b k.u.d : Int) < off + size then
    .trap s { cause := 4, sub := 2, addr := wrapI 64 off }
  else if off % 16 != 0 then .trap s { cause := 8, sub := 1, addr := wrapI 64 off }
  else match lockBuf s (ropeOfCore k.core) k.w.blk k.u.d off.toNat size true with
    | some h => .trap s { cause := 9, sub := h.1, addr := off.toNat, extra := w64 h.2.seq }
    | none => if !hasRoom k .load then .wait s else redeem k s (.buf k.u.d off.toNat)

/-- TKREL (R176): a live ticket moves on; a pending fetch is dropped when it arrives. -/
def tkRel (k : IC) (s : State) : Eff :=
  if replayOf s k.w then .done s
  else
    let t := sVal k k.u.a
    let st := claimState s k.w.ctx t
    if st ≥ 3 then .trap s (deadTicket st t)
    else .done (putTicket s (tkSlice t) (tkIndex t) (moveOn (ticketAt s (tkSlice t) (tkIndex t)) false))

/-- TKQ (R177). -/
def tkQuery (k : IC) (s : State) : Eff :=
  if !hasRoom k .ticket then .wait s
  else
    let d := sNum k k.u.d
    .done (produce k s .ticket .s [d] (.tkq d (sVal k k.u.a))).2

/-- The operands of RDM.S: its offset symbol unless nx = 1. (DEDUCED, log entry 39) -/
def rdmSOps (u : UW) : List Opnd := if u.nx == 1 then [dBuf u, aS u] else [dBuf u, aS u, bS u]

/-- Symbols of an RDM.V at a width, named from a field that has no multiple (R172). -/
def dVn (u : UW) (n : Nat) : Opnd := { field := 0, cls := .v, f := u.d, n := n, wr := true }

/-- LDT, one word (R169 to R171). -/
def execLdt (w : CW) (s : State) : Out :=
  issueWord { u := ucw w, ok := fun _ => ok56 (ucw w), ops := fun _ => [dS (ucw w), aS (ucw w)], addr := eaS } tkLdt s

/-- LDT_LONG, two words (R169 to R171). -/
def execLdtLong (w : CW) (m : MemW) (s : State) : Out :=
  issueWord { u := uxw w m, ok := fun _ => ok56 (uxw w m), ops := fun _ => [dS (uxw w m), aS (uxw w m)], addr := eaS } tkLdt s

/-- RDM_V, one word (R172, R174). -/
def execRdmV (w : CW) (s : State) : Out :=
  issueWord { u := ucw w, ok := fun width => ok57 width (ucw w), ops := fun width => [dVn (ucw w) (rdmSyms width (tkCode (ucw w))), aS (ucw w)] } tkRdmV s

/-- RDM_V_LONG, two words (R172, R174). -/
def execRdmVLong (w : CW) (m : MemW) (s : State) : Out :=
  issueWord { u := uxw w m, ok := fun width => ok57 width (uxw w m), ops := fun width => [dVn (uxw w m) (rdmSyms width (tkCode (uxw w m))), aS (uxw w m)] } tkRdmV s

/-- RDM_S, one word (R173, R174). -/
def execRdmS (w : CW) (s : State) : Out :=
  issueWord { u := ucw w, ok := fun _ => ok58 (ucw w), ops := fun _ => rdmSOps (ucw w) } tkRdmS s

/-- RDM_S_LONG, two words (R173, R174). -/
def execRdmSLong (w : CW) (m : MemW) (s : State) : Out :=
  issueWord { u := uxw w m, ok := fun _ => ok58 (uxw w m), ops := fun _ => rdmSOps (uxw w m) } tkRdmS s

/-- TKREL, one word (R176). -/
def execTkrel (w : CW) (s : State) : Out :=
  issueWord { u := ucw w, ok := fun _ => ok16 (ucw w), ops := fun _ => [aS (ucw w)] } tkRel s

/-- TKQ, one word (R177). -/
def execTkq (w : CW) (s : State) : Out :=
  issueWord { u := ucw w, ok := fun _ => ok8 (ucw w), ops := fun _ => [dS (ucw w), aS (ucw w)] } tkQuery s

end Sys2Proof.Machine
end

