-- ==== Sys2Proof/Machine/Atomic.lean ====
section
/-! DEFINITION. ATOM, RED and WAITC as they issue (R179 to R185, R301, R302). -/

namespace Sys2Proof.Machine

/-! ATOM and RED (R179). -/

/-- The access size of an atomic in bytes, and whether its index is unsigned (R150). -/
def atSize (u : UW) : Nat := 2 ^ (u.size % 4)
def atUns (u : UW) : Bool := bit u.size 2
/-- Symbols of an atomic's value, and of its c operand: .cas takes a compare value and a new one. -/
def atSyms (u : UW) : Nat := atSize u / 4
def atSymsC (u : UW) : Nat := if u.card == 9 then 2 * atSyms u else atSyms u
def atOpsATOM (u : UW) : List Opnd := dV u (atSyms u) :: cV u (atSymsC u) :: opsAB u
def atOpsRED (u : UW) : List Opnd := cV u (atSymsC u) :: opsAB u

/-- The number in n symbols of a lane from symbol i on. -/
def symNum (w : Wave) (i n l : Nat) : Nat :=
  ofBytes ((upto n).flatMap (fun j => bytesOf 4 (veGet w (i + j) l).toNat))

/-- A lane of an atomic: for .cas, y is the new value and y2 the compare value. -/
def atLane (k : IC) (a : LaneAcc) : AtomLane :=
  let n := atSyms k.u
  let c := vNum k k.u.c
  if k.u.card == 9 then ⟨a.lane, a.va, a.pa, symNum k.w (c + n) n a.lane, symNum k.w c n a.lane⟩
  else ⟨a.lane, a.va, a.pa, symNum k.w c n a.lane, 0⟩

/-- The checks of ATOM and RED (R180). -/
def atCheck (k : IC) (s : State) : Chk :=
  memCheck k s true ⟨atSize k.u, false, true, fun _ => false, 3⟩ (laneEas (atUns k.u) k)

/-- The issuing L1 gives up its copies of an atomic's lines: dirty bytes for their home, update-only lines combined,
clean copies dropped (R301). -/
def atDrain (k : IC) (s : State) (pas : List Nat) : State :=
  ((pas.map (fun pa => 128 * lineOf pa)).eraseDups).foldl (fun s a => evictLine s (cacheOf s k.core a) (lineOf a)) s

/-- ATOM issues (R180). -/
def atAtom (k : IC) (s : State) : Eff :=
  if k.live == 0 then noLanes k .load s
  else if acqHeld k s then .wait s
  else match atCheck k s with
    | .trap t => .trap s t
    | .wait s => .wait s
    | .go accs =>
      if fetchHeld k s accs (atSize k.u) || !hasRoom k .load then .wait s
      else
        let perform := fun s =>
          let d := vNum k k.u.d
          let r := produce k (atDrain k s (accs.map (·.pa))) .load .v ((upto (atSyms k.u)).map (fun i => d + i))
            (.atom k.u.card (atSize k.u) k.u.order (scopeK k) d (accs.map (atLane k)) [] [])
          Eff.done (if k.u.order == 2 then holdSlot k r.2 r.1 else r.2)
        if k.u.order == 3 then release (scopeK k) k s perform else perform s

/-- A RED within the L1's reach: a read-modify-write of a dirty line (R302). -/
def redNarrow (k : IC) (s : State) (a : AtomLane) : State :=
  let n := atSize k.u
  let cid := cacheOf s k.core a.pa
  let r := cacheRead s cid k.w.ctx a.pa n false
  if r.2.2.1 then r.2.1
  else narrowStore r.2.1 cid k.w.ctx a.pa (bytesOf n (atomVal k.u.card (8 * n) (ofBytes r.1) a.y a.y2)) (scopeK k) k.w.blk

/-- A RED recorded in an update-only line that is open for its operation and size, or that it opens (R302). (DEDUCED, log entry 38) -/
def redGather (k : IC) (s : State) (a : AtomLane) : State :=
  let n := atSize k.u
  let cid := cacheOf s k.core a.pa
  let ln := lineOf a.pa
  match getLine s cid ln with
  | some ⟨.upd code size el, c, f⟩ =>
    if code == k.u.card && size == n then
      let v := match tget el (a.pa % 128) with | some x => atomVal code (8 * n) x a.y 0 | none => a.y
      putLine s cid ln ⟨.upd code size (tput el (a.pa % 128) v), c, f⟩
    else putLine (makeRoom (recallLine s ln) cid ln) cid ln ⟨.upd k.u.card n [(a.pa % 128, a.y)], k.w.ctx, 0⟩
  | _ => putLine (makeRoom s cid ln) cid ln ⟨.upd k.u.card n [(a.pa % 128, a.y)], k.w.ctx, 0⟩

/-- A RED beyond the reach may be gathered: not a float .add, in device memory, and the line is open here or a holder
and the directory have room (R302). -/
def mayGather (k : IC) (s : State) (a : AtomLane) : Bool :=
  let ln := lineOf a.pa
  k.u.card != 10 && isDevMem s a.pa &&
    ((match getLine s (cacheOf s k.core a.pa) ln with | some ⟨.upd .., _, _⟩ => true | _ => false) ||
      (holders s ln < 8 && (holders s ln > 0 || dirLines s (homeSlice s a.pa) < 65536)))

/-- A lane of a RED (R181); one on a host or peer address is applied at its home whatever its scope (R182). The answer lists the
updates sent to their homes. (DEDUCED, log entry 38) -/
def redLane (k : IC) (op : Nat) (p0 : State × List Nat) (a : AtomLane) : State × List Nat :=
  let narrow := scopeK k ≤ reachOf p0.1 k.core && isDevMem p0.1 a.pa
  let p := (reachNow p0.1 k.wid (if narrow || mayGather k p0.1 a then l1Level p0.1 k.core a.pa else homeLevel p0.1 k.core a.pa), p0.2)
  if narrow then (redNarrow k p.1 a, p.2)
  else if mayGather k p.1 a then (redGather k p.1 a, p.2)
  else
    let s := atDrain k p.1 [a.pa]
    let r := pushHw s ⟨k.wid, k.w.ctx, cacheOf s k.core a.pa, [], some (a.pa, k.u.card, atSize k.u, a.y), some op, 0, none, []⟩
    (r.2, p.2 ++ [r.1])

/-- RED (R181): dirty lines are first written back, and a line waits for the writes of this L1 on their way to it. (DEDUCED, log entry 38) -/
def atRed (k : IC) (s : State) : Eff :=
  if k.live == 0 then noLanes k .store s
  else if acqHeld k s then .wait s
  else match atCheck k s with
    | .trap t => .trap s t
    | .wait s => .wait s
    | .go accs =>
      if storeHeld k s accs (atSize k.u) || !hasRoom k .store then .wait s
      else
        let perform := fun s =>
          let s1 := if scopeK k ≤ reachOf s k.core then s
            else ((accs.map (fun a => 128 * lineOf a.pa)).eraseDups).foldl (fun s a =>
              writeBack s k.wid k.w.ctx (cacheOf s k.core a) (lineOf a)) s
          if linesBusy s1 k.core (accs.map (·.pa)) then Eff.wait s1
          else
            let r := (accs.map (atLane k)).foldl (redLane k s1.nextId) ({ s1 with nextId := s1.nextId + 1 }, [])
            Eff.done (if r.2.isEmpty then r.1
              else modWave { r.1 with ops := tput r.1.ops s1.nextId ⟨k.wid, .store, originK k, s1.now, .store r.2 0⟩ }
                k.wid (fun w => cntUp w .store))
        if k.u.order == 3 then release (scopeK k) k s perform else perform s

/-! WAITC (R183 to R185, R308). -/

/-- The monitors of a context in a slice leave room for another, and so does the table (R11, R308). -/
def monRoom (s : State) (ctx g : Nat) : Bool :=
  let ms := (sliceOf s g).mons
  decide (ms.length + (sliceOf s g).farMons.length < 4096) && decide ((ms.filter (fun m => m.ctx == ctx)).length < (ctxOf s ctx).monq)

/-- The slot parks at its WAITC. -/
def parkMon (k : IC) (s : State) (m : MonReq) : State :=
  setX k s (fun x => { x with park := .monitor m, phase := 0 })

/-- The wait of a WAITC whose condition does not hold: armed at the home, polling, or armed at a peer (R184, R185). (DEDUCED, log
entry 21; log entry 33) -/
def waitMon (k : IC) (s : State) (va pa : Nat) : State :=
  let m : MonReq := ⟨pa, va, sizeK k, k.u.card, sVal k k.u.c, sNum k k.u.d, scopeK k, k.u.order, 0, s.now⟩
  match regionOf s pa with
  | .host => parkMon k s { m with mode := 2 }
  | .peer _ => parkMon k (modMons s 8 (fun l => l ++ [⟨k.w.ctx, k.wid, k.slotB, pa, sizeK k⟩])) { m with mode := 3 }
  | _ =>
    let g := homeSlice s pa
    if monRoom s k.w.ctx g then
      parkMon k (modSlice s g (fun t => { t with mons := t.mons ++ [⟨k.w.ctx, k.wid, k.slotB, pa, sizeK k⟩] })) m
    else parkMon k s { m with mode := 1 }

/-- The value met by a WAITC at its first read (R184). -/
def waitMet (k : IC) (s : State) (va : Nat) (v : W64) : Eff :=
  receiveK k s 2 va (bytesOf 8 v.toNat) (fun s d =>
    let s1 := setD k s (w64 (ofBytes d))
    .done (if k.u.order == 2 then acquire (scopeK k) k s1 else s1))

/-- WAITC (R184); in a replay the record supplies the value met (R396). Own bytes still in the L1 leave for their home before the
read, and its clean copy goes (R275, DEDUCED, log entry 21); a departed peer's memory is waited on (R401). (DEDUCED, log entry 46) -/
def atWaitc (k : IC) (s : State) : Eff :=
  let va := eaS k
  let n := sizeK k
  if acqHeld k s then .wait s
  else match memCheck k s false ⟨n, true, false, fun _ => false, 1⟩ [(0, va)] with
    | .trap t => .trap s t
    | .wait s => .wait s
    | .go accs =>
      let pa := (accs.map (·.pa)).headD 0
      let s := reachNow s k.wid (homeLevel s k.core pa)
      if replayOf s k.w then waitMet k s va 0
      else
        let s1 := writeBack s k.wid k.w.ctx (cacheOf s k.core pa) (lineOf pa)
        if linesBusy s1 k.core [pa] || storeHeld k s1 accs n then .wait s1
        else if departed s pa then .set (waitMon k s1 va pa)
        else
          let r := homeRead (dropClean s1 (cacheOf s1 k.core pa) (lineOf pa)) pa n
          if (upto n).any (fun i => unitPois r.2 (pa + i)) then
            .trap r.2 { cause := 0x14, sub := 1, addr := va, orig := some (originK k) }
          else
            let m := ofBytes r.1
            if monCond k.u.card n m (sVal k k.u.c) then waitMet k r.2 va (monExt k.u.card n m)
            else .set (waitMon k r.2 va pa)

/-- ATOM, two words (R179, R180). -/
def execAtom (w : CW) (m : MemW) (s : State) : Out :=
  issueWord { u := uxw w m, ok := fun _ => ok59 (uxw w m), ops := fun _ => atOpsATOM (uxw w m), lanes := true, always := [0], addr := eaLow (atUns (uxw w m)) } atAtom s

/-- RED, two words (R179, R181, R301, R302). -/
def execRed (w : CW) (m : MemW) (s : State) : Out :=
  issueWord { u := uxw w m, ok := fun _ => ok60 (uxw w m), ops := fun _ => atOpsRED (uxw w m), lanes := true, addr := eaLow (atUns (uxw w m)) } atRed s

/-- WAITC, two words (R183 to R185). -/
def execWaitc (w : CW) (m : MemW) (s : State) : Out :=
  issueWord { u := uxw w m, ok := fun _ => ok61 (uxw w m), ops := fun _ => [dS (uxw w m), aS (uxw w m), cS (uxw w m)], last := true, addr := eaS } atWaitc s

end Sys2Proof.Machine
end

