-- ==== Sys2Proof/Machine/Episode.lean ====
section
/-! DEFINITION. Episodes and their step mailboxes: the queues, starts, resets, truncation, the ends that a context's reset
brings (R214 to R219, R364, R365, R369 to R373). -/

namespace Sys2Proof.Machine

/-! The queues (R214, R215, R371). -/

/-- Messages that a queue holds (R217). -/
def mbDepth : Nat := 16

/-- The sends of a mailbox on their way into its action queue, in the order of their sequences. -/
def sendsDue (s : State) (e : Nat) : List Nat :=
  (s.ops.filter (fun o => match o.2.body with | .mbsend m _ _ _ _ _ => m == e | _ => false)).map (·.1)

/-- Action entries in use: messages waiting and those that have taken their sequence. -/
def actsUsed (s : State) (e : Nat) : Nat := (epOf s e).actions.length + (sendsDue s e).length

/-- An observation put at the end of the queue with the next sequence. -/
def putObs (x : Episode) (ver : BitVec 16) (status len : Nat) (payload : List Byte) : Episode :=
  { x with obs := x.obs ++ [⟨w64 x.obsSeq, ver, status, len, payload⟩], obsSeq := x.obsSeq + 1 }

/-- A payload of zeros. -/
def noPayload : List Byte := List.replicate 240 0

/-- The 256 bytes of a message (R214). -/
def msgBytes (m : Msg) : List Byte :=
  bytesOf 8 m.seq.toNat ++ bytesOf 2 m.ver.toNat ++ [BitVec.ofNat 8 m.status, 0] ++ bytesOf 4 m.len ++ m.payload

/-- Both queues emptied and both sequences restarted. -/
def emptyQueues (x : Episode) : Episode :=
  { x with actions := [], obs := [], actSeq := 1, obsSeq := 1, timeoutDue := false }

/-- Sends that have taken a sequence are lost with their queue (R372). -/
def dropSends (s : State) (e : Nat) : State := (sendsDue s e).foldl endOp s

/-! Starts (R365, R367). -/

/-- The mailbox page at its reset column (R367); the run of steps and the timer end (R369, R372). -/
def pageReset (x : Episode) : Episode :=
  { x with svv := false, actbuf := [], obsbuf := [], aver := 0, fault := false, done := false, mbie := false, tkdst := 0,
           busy := false, fcause := 0, tksize := 0, result := 0, timer := none }

/-- A hart at an episode start: ENTRY, S-mode, Bare, a0 and a1 (R365). The hart starts at the 4-byte aligned address at or
below ENTRY (DESIGN CHOICE, log entry 53). -/
def hartStart (e : Nat) (x : Episode) : Hart :=
  { pc := w64 (x.entry.toNat / 4 * 4), x := tset 0 (tset 0 [] 10 (w64 e)) 11 (w64 x.owner), priv := 1 }

/-- An episode start (R365). -/
def startEp (s : State) (e : Nat) : State :=
  modEp (dropSends s e) e (fun x => { pageReset (emptyQueues x) with estate := 1, restart := none, hart := hartStart e x })

/-! Resets (R372). -/

/-- Steps 2 to 5 of an episode reset: the queues, the state, the first observation, the restart. -/
def finishReset (s : State) (e : Nat) (m : Msg) : State :=
  modEp (startEp s e) e (fun x => putObs x m.ver m.status 0 m.payload)

/-- An episode reset with the STATUS and VERSION of its first observation: a redeem that the port has claimed is waited
for first (R372 step 1). (DEDUCED, log entry 28) -/
def resetEp (s : State) (e status : Nat) (ver : BitVec 16) : State :=
  let m : Msg := ⟨1, ver, status, 0, noPayload⟩
  if (epOf s e).redeems.isEmpty then finishReset s e m
  else modEp s e (fun x => { x with estate := 3, timer := none, restart := some m })

/-! Versions (R218, R370). -/

/-- The episodes that a context owns. -/
def ownedEps (s : State) (c : Nat) : List Nat := (s.eps.filter (fun e => e.2.bound && e.2.owner == c)).map (·.1)

/-- The lag test of an episode under a policy version (R370). -/
def lagging (x : Episode) (policy : BitVec 16) : Bool :=
  x.lagen && x.estate == 1 && x.svv && decide ((policy - x.startver).toNat > x.lag)

/-- POLICY takes a version, and every lagging episode of the context is truncated (R218, R370). -/
def setPolicy (s : State) (c : Nat) (v : BitVec 16) : State :=
  let s1 := modCtx s c (fun x => { x with policy := v })
  (ownedEps s1 c).foldl (fun s e =>
    let x := epOf s e
    if lagging x v then resetEp (modEp s e (fun x => { x with truncs := satInc x.truncs })) e 3 x.startver else s) s1

/-! The end of the owner (R360 step 5, R373). -/

/-- A context's reset stops its episodes; a teardown also unbinds them. (DEDUCED, log entry 28) -/
def stopEps (s : State) (c : Nat) (unbind : Bool) : State :=
  (ownedEps s c).foldl (fun s e => modEp (dropSends s e) e (fun x =>
    let y := { emptyQueues x with estate := 0, timer := none, restart := none, redeems := x.redeems.map (fun r => { r with discard := true }) }
    if unbind then { y with bound := false, windows := y.windows.map (fun w => (w.1, { w.2 with v := false })) } else y)) s

end Sys2Proof.Machine
end

