-- ==== Sys2Proof/Machine/Vector.lean ====
section
/-! DEFINITION. The vector integer instructions of class 1 (R122 to R127). -/

namespace Sys2Proof.Machine

/-! Elements of a lane (R122). -/

/-- Element j of a lane's value at w bits. -/
def elem (w j x : Nat) : Nat := (x >>> (w * j)) % 2 ^ w
/-- A lane's value from its elements. -/
def packEl (w : Nat) : List Nat → Nat
  | [] => 0
  | e :: r => e % 2 ^ w + 2 ^ w * packEl w r
/-- A lane's value computed element by element at a type. -/
def mapEl (t : Nat) (f : Nat → Nat) : Nat :=
  packEl (tyWidth t) ((upto (elemsOf t)).map f)

/-- A 64-bit type takes a pair (R122). -/
def isWide (t : Nat) : Bool := tyWidth t == 64
/-- Symbols that a field of a type names. -/
def nOf (t : Nat) : Nat := if isWide t then 2 else 1

/-- The vector source of a field in a lane at a type. -/
def vVal (k : IC) (t f l : Nat) : Nat := vGet k.w (isWide t) (vNum k f) l

/-- Vector forms with a type (R124): d from a and b; d from a. -/
def vDAB (d : Nat) (u : UW) : List Opnd := let n := nOf (tyOf u d); [dV u n, aV u n, bV u n]
def vDA (d : Nat) (u : UW) : List Opnd := let n := nOf (tyOf u d); [dV u n, aV u n]
def vDABC (d : Nat) (u : UW) : List Opnd := let n := nOf (tyOf u d); [dV u n, aV u n, bV u n, cV u n]

/-- The mould of R124 on a lane's values. -/
def vInt (f : AluOp) (t : Nat) (sat : Bool) (x y : Nat) : Nat :=
  let w := tyWidth t
  mapEl t (fun j => aluBits f (isSigned t) sat w (elem w j x) (elem w j y))

/-- A two-source or one-source integer word (R124). -/
def veInt (f : AluOp) (k : IC) (s : State) : Eff :=
  let t := tyOf k.u 5
  .done (setV k s (isWide t) (fun l => vInt f t (bit k.u.card 0) (vVal k t k.u.a l) (vVal k t k.u.b l)))
def veInt1 (f : AluOp) (k : IC) (s : State) : Eff :=
  let t := tyOf k.u 5
  .done (setV k s (isWide t) (fun l => vInt f t (bit k.u.card 0) (vVal k t k.u.a l) 0))

/-- VADDI and VMOVI (R125). -/
def veAddI (k : IC) (s : State) : Eff :=
  .done (setV k s false (fun l => aluBits .add true false 32 (vVal k 5 k.u.a l) (wrapI 32 (immS k.u))))
def veMovI (k : IC) (s : State) : Eff := .done (setV k s false (fun _ => wrapI 32 (immS k.u)))

/-- VMAD (R126); its row states no default type, and type code 0 is .i32 (DESIGN CHOICE, log entry 53). -/
def veMad (k : IC) (s : State) : Eff :=
  let t := tyOf k.u 5
  let w := tyWidth t
  let sg := isSigned t
  .done (setV k s (isWide t) (fun l => mapEl t (fun j =>
    let r := sval sg w (elem w j (vVal k t k.u.a l)) * sval sg w (elem w j (vVal k t k.u.b l))
      + sval sg w (elem w j (vVal k t k.u.c l))
    wrapI w (if bit k.u.card 0 then clampTy sg w r else r))))

/-- VDOT4 (R126): a's type, b's type2, 0 as type. -/
def veDot4 (k : IC) (s : State) : Eff :=
  let sa := k.u.ty == 1
  let sb := if k.u.ty2 == 0 then sa else k.u.ty2 == 1
  .done (setV k s false (fun l =>
    let r := (upto 4).foldl (fun acc j => acc + sval sa 8 (elem 8 j (vVal k 5 k.u.a l)) * sval sb 8 (elem 8 j (vVal k 5 k.u.b l)))
      (sextI (vVal k 5 k.u.c l) 32)
    wrapI 32 (if bit k.u.card 0 then clampTy true 32 r else r)))

/-- VBFE and VBFI (R126). -/
def veBfe (k : IC) (s : State) : Eff :=
  .done (setV k s false (fun l =>
    let c := vVal k 6 k.u.b l
    bfe (tyOf k.u 6 == 5) 32 (vVal k 6 k.u.a l) (bits c 4 0) (min (bits c 13 8) 32)))
def veBfi (k : IC) (s : State) : Eff :=
  .done (setV k s false (fun l =>
    let c := vVal k 6 k.u.b l
    bfi 32 (vVal k 6 k.u.d l) (vVal k 6 k.u.a l) (bits c 4 0) (min (bits c 13 8) 32)))

/-- VSEL (R126): the one-word form tests p0. -/
def veSel (k : IC) (s : State) : Eff :=
  let t := tyOf k.u 6
  let p := prGet k.w (bits k.u.card 4 0)
  .done (setV k s (isWide t) (fun l => if p.getLsbD l then vVal k t k.u.a l else vVal k t k.u.b l))

/-- VMOV, VBCAST, VLANE (R126, R143). -/
def veMov (k : IC) (s : State) : Eff :=
  let t := tyOf k.u 6
  .done (setV k s (isWide t) (fun l => vVal k t k.u.a l))
def veBcast (k : IC) (s : State) : Eff :=
  let t := tyOf k.u 6
  .done (setV k s (isWide t) (fun _ => (sVal k k.u.a).toNat % 2 ^ tyWidth t))
def veLane (k : IC) (s : State) : Eff :=
  let t := tyOf k.u 6
  .done (setD k s (w64 (vVal k t k.u.a ((sVal k k.u.b).toNat % k.w.width))))

/-- Bits of a predicate written in the live lanes (R127, R131). -/
def setPLive (k : IC) (s : State) (d : Nat) (f : Nat → Bool) : State :=
  modWave s k.wid (fun w => prPut w d k.live (laneSet ((lanesOf k.live).filter f)))

/-- The integer comparisons (R127). -/
def cmpInt (code : Nat) (x y : Int) : Bool :=
  match code with
  | 0 => x == y
  | 1 => x != y
  | 2 => x < y
  | 3 => y ≤ x
  | 4 => y < x
  | _ => x ≤ y

/-- VCMP (R127). -/
def veCmp (k : IC) (s : State) : Eff :=
  let t := tyOf k.u 5
  let v := fun f l => sval (isSigned t) (tyWidth t) (vVal k t f l)
  .done (setPLive k s k.u.d (fun l => cmpInt (bits k.u.card 2 0) (v k.u.a l) (v k.u.b l)))

/-- VADD, one word (R124). -/
def execVadd (w : CW) (s : State) : Out :=
  issueWord { u := ucw w, ok := fun _ => ok1 (ucw w), ops := fun _ => vDAB 5 (ucw w), lanes := true } (veInt .add) s

/-- VADD_LONG, two words (R124). -/
def execVaddLong (w : CW) (m : ModW) (s : State) : Out :=
  issueWord { u := umw w m, ok := fun _ => ok1 (umw w m), ops := fun _ => vDAB 5 (umw w m), lanes := true } (veInt .add) s

/-- VADDI, one word (R125). -/
def execVaddi (w : IW) (s : State) : Out :=
  issueWord { u := uiw w, ok := fun _ => ok2 (uiw w), ops := fun _ => [dV (uiw w) 1, aV (uiw w) 1], lanes := true } veAddI s

/-- VADDI_LONG, two words (R125). -/
def execVaddiLong (w : CW) (x : XW) (s : State) : Out :=
  issueWord { u := uiw2 w x, ok := fun _ => ok2 (uiw2 w x), ops := fun _ => [dV (uiw2 w x) 1, aV (uiw2 w x) 1], lanes := true } veAddI s

/-- VSUB, one word (R124). -/
def execVsub (w : CW) (s : State) : Out :=
  issueWord { u := ucw w, ok := fun _ => ok1 (ucw w), ops := fun _ => vDAB 5 (ucw w), lanes := true } (veInt .sub) s

/-- VSUB_LONG, two words (R124). -/
def execVsubLong (w : CW) (m : ModW) (s : State) : Out :=
  issueWord { u := umw w m, ok := fun _ => ok1 (umw w m), ops := fun _ => vDAB 5 (umw w m), lanes := true } (veInt .sub) s

/-- VMUL, one word (R124). -/
def execVmul (w : CW) (s : State) : Out :=
  issueWord { u := ucw w, ok := fun _ => ok1 (ucw w), ops := fun _ => vDAB 5 (ucw w), lanes := true } (veInt .mul) s

/-- VMUL_LONG, two words (R124). -/
def execVmulLong (w : CW) (m : ModW) (s : State) : Out :=
  issueWord { u := umw w m, ok := fun _ => ok1 (umw w m), ops := fun _ => vDAB 5 (umw w m), lanes := true } (veInt .mul) s

/-- VMULHI, one word (R124). -/
def execVmulhi (w : CW) (s : State) : Out :=
  issueWord { u := ucw w, ok := fun _ => ok3 (ucw w), ops := fun _ => vDAB 5 (ucw w), lanes := true } (veInt .mulhi) s

/-- VMULHI_LONG, two words (R124). -/
def execVmulhiLong (w : CW) (m : ModW) (s : State) : Out :=
  issueWord { u := umw w m, ok := fun _ => ok3 (umw w m), ops := fun _ => vDAB 5 (umw w m), lanes := true } (veInt .mulhi) s

/-- VMAD, two words (R126). -/
def execVmad (w : CW) (m : ModW) (s : State) : Out :=
  issueWord { u := umw w m, ok := fun _ => ok29 (umw w m), ops := fun _ => vDABC 5 (umw w m), lanes := true } veMad s

/-- VAND, one word (R124). -/
def execVand (w : CW) (s : State) : Out :=
  issueWord { u := ucw w, ok := fun _ => ok3 (ucw w), ops := fun _ => vDAB 5 (ucw w), lanes := true } (veInt .and) s

/-- VAND_LONG, two words (R124). -/
def execVandLong (w : CW) (m : ModW) (s : State) : Out :=
  issueWord { u := umw w m, ok := fun _ => ok3 (umw w m), ops := fun _ => vDAB 5 (umw w m), lanes := true } (veInt .and) s

/-- VOR, one word (R124). -/
def execVor (w : CW) (s : State) : Out :=
  issueWord { u := ucw w, ok := fun _ => ok3 (ucw w), ops := fun _ => vDAB 5 (ucw w), lanes := true } (veInt .or) s

/-- VOR_LONG, two words (R124). -/
def execVorLong (w : CW) (m : ModW) (s : State) : Out :=
  issueWord { u := umw w m, ok := fun _ => ok3 (umw w m), ops := fun _ => vDAB 5 (umw w m), lanes := true } (veInt .or) s

/-- VXOR, one word (R124). -/
def execVxor (w : CW) (s : State) : Out :=
  issueWord { u := ucw w, ok := fun _ => ok3 (ucw w), ops := fun _ => vDAB 5 (ucw w), lanes := true } (veInt .xor) s

/-- VXOR_LONG, two words (R124). -/
def execVxorLong (w : CW) (m : ModW) (s : State) : Out :=
  issueWord { u := umw w m, ok := fun _ => ok3 (umw w m), ops := fun _ => vDAB 5 (umw w m), lanes := true } (veInt .xor) s

/-- VNOT, one word (R124). -/
def execVnot (w : CW) (s : State) : Out :=
  issueWord { u := ucw w, ok := fun _ => ok10 (ucw w), ops := fun _ => vDA 5 (ucw w), lanes := true } (veInt1 .not) s

/-- VNOT_LONG, two words (R124). -/
def execVnotLong (w : CW) (m : ModW) (s : State) : Out :=
  issueWord { u := umw w m, ok := fun _ => ok10 (umw w m), ops := fun _ => vDA 5 (umw w m), lanes := true } (veInt1 .not) s

/-- VSHL, one word (R124). -/
def execVshl (w : CW) (s : State) : Out :=
  issueWord { u := ucw w, ok := fun _ => ok3 (ucw w), ops := fun _ => vDAB 5 (ucw w), lanes := true } (veInt .shl) s

/-- VSHL_LONG, two words (R124). -/
def execVshlLong (w : CW) (m : ModW) (s : State) : Out :=
  issueWord { u := umw w m, ok := fun _ => ok3 (umw w m), ops := fun _ => vDAB 5 (umw w m), lanes := true } (veInt .shl) s

/-- VSHR, one word (R124). -/
def execVshr (w : CW) (s : State) : Out :=
  issueWord { u := ucw w, ok := fun _ => ok3 (ucw w), ops := fun _ => vDAB 5 (ucw w), lanes := true } (veInt .shr) s

/-- VSHR_LONG, two words (R124). -/
def execVshrLong (w : CW) (m : ModW) (s : State) : Out :=
  issueWord { u := umw w m, ok := fun _ => ok3 (umw w m), ops := fun _ => vDAB 5 (umw w m), lanes := true } (veInt .shr) s

/-- VSRA, one word (R124). -/
def execVsra (w : CW) (s : State) : Out :=
  issueWord { u := ucw w, ok := fun _ => ok3 (ucw w), ops := fun _ => vDAB 5 (ucw w), lanes := true } (veInt .sra) s

/-- VSRA_LONG, two words (R124). -/
def execVsraLong (w : CW) (m : ModW) (s : State) : Out :=
  issueWord { u := umw w m, ok := fun _ => ok3 (umw w m), ops := fun _ => vDAB 5 (umw w m), lanes := true } (veInt .sra) s

/-- VMIN, one word (R124). -/
def execVmin (w : CW) (s : State) : Out :=
  issueWord { u := ucw w, ok := fun _ => ok3 (ucw w), ops := fun _ => vDAB 5 (ucw w), lanes := true } (veInt .min) s

/-- VMIN_LONG, two words (R124). -/
def execVminLong (w : CW) (m : ModW) (s : State) : Out :=
  issueWord { u := umw w m, ok := fun _ => ok3 (umw w m), ops := fun _ => vDAB 5 (umw w m), lanes := true } (veInt .min) s

/-- VMAX, one word (R124). -/
def execVmax (w : CW) (s : State) : Out :=
  issueWord { u := ucw w, ok := fun _ => ok3 (ucw w), ops := fun _ => vDAB 5 (ucw w), lanes := true } (veInt .max) s

/-- VMAX_LONG, two words (R124). -/
def execVmaxLong (w : CW) (m : ModW) (s : State) : Out :=
  issueWord { u := umw w m, ok := fun _ => ok3 (umw w m), ops := fun _ => vDAB 5 (umw w m), lanes := true } (veInt .max) s

/-- VABS, one word (R124). -/
def execVabs (w : CW) (s : State) : Out :=
  issueWord { u := ucw w, ok := fun _ => ok30 (ucw w), ops := fun _ => vDA 5 (ucw w), lanes := true } (veInt1 .abs) s

/-- VABS_LONG, two words (R124). -/
def execVabsLong (w : CW) (m : ModW) (s : State) : Out :=
  issueWord { u := umw w m, ok := fun _ => ok30 (umw w m), ops := fun _ => vDA 5 (umw w m), lanes := true } (veInt1 .abs) s

/-- VNEG, one word (R124). -/
def execVneg (w : CW) (s : State) : Out :=
  issueWord { u := ucw w, ok := fun _ => ok30 (ucw w), ops := fun _ => vDA 5 (ucw w), lanes := true } (veInt1 .neg) s

/-- VNEG_LONG, two words (R124). -/
def execVnegLong (w : CW) (m : ModW) (s : State) : Out :=
  issueWord { u := umw w m, ok := fun _ => ok30 (umw w m), ops := fun _ => vDA 5 (umw w m), lanes := true } (veInt1 .neg) s

/-- VCLZ, one word (R124). -/
def execVclz (w : CW) (s : State) : Out :=
  issueWord { u := ucw w, ok := fun _ => ok10 (ucw w), ops := fun _ => vDA 5 (ucw w), lanes := true } (veInt1 .clz) s

/-- VCLZ_LONG, two words (R124). -/
def execVclzLong (w : CW) (m : ModW) (s : State) : Out :=
  issueWord { u := umw w m, ok := fun _ => ok10 (umw w m), ops := fun _ => vDA 5 (umw w m), lanes := true } (veInt1 .clz) s

/-- VPOPC, one word (R124). -/
def execVpopc (w : CW) (s : State) : Out :=
  issueWord { u := ucw w, ok := fun _ => ok10 (ucw w), ops := fun _ => vDA 5 (ucw w), lanes := true } (veInt1 .popc) s

/-- VPOPC_LONG, two words (R124). -/
def execVpopcLong (w : CW) (m : ModW) (s : State) : Out :=
  issueWord { u := umw w m, ok := fun _ => ok10 (umw w m), ops := fun _ => vDA 5 (umw w m), lanes := true } (veInt1 .popc) s

/-- VBFE, one word (R126). -/
def execVbfe (w : CW) (s : State) : Out :=
  issueWord { u := ucw w, ok := fun _ => ok31 (ucw w), ops := fun _ => [dV (ucw w) 1, aV (ucw w) 1, bV (ucw w) 1], lanes := true } veBfe s

/-- VBFE_LONG, two words (R126). -/
def execVbfeLong (w : CW) (m : ModW) (s : State) : Out :=
  issueWord { u := umw w m, ok := fun _ => ok31 (umw w m), ops := fun _ => [dV (umw w m) 1, aV (umw w m) 1, bV (umw w m) 1], lanes := true } veBfe s

/-- VBFI, one word (R126). -/
def execVbfi (w : CW) (s : State) : Out :=
  issueWord { u := ucw w, ok := fun _ => ok32 (ucw w), ops := fun _ => [dVrw (ucw w), aV (ucw w) 1, bV (ucw w) 1], lanes := true } veBfi s

/-- VBFI_LONG, two words (R126). -/
def execVbfiLong (w : CW) (m : ModW) (s : State) : Out :=
  issueWord { u := umw w m, ok := fun _ => ok32 (umw w m), ops := fun _ => [dVrw (umw w m), aV (umw w m) 1, bV (umw w m) 1], lanes := true } veBfi s

/-- VSEL, one word (R126). -/
def execVsel (w : CW) (s : State) : Out :=
  issueWord { u := ucw w, ok := fun _ => ok33 (ucw w), ops := fun _ => vDAB 6 (ucw w), lanes := true } veSel s

/-- VSEL_LONG, two words (R126). -/
def execVselLong (w : CW) (m : ModW) (s : State) : Out :=
  issueWord { u := umw w m, ok := fun _ => ok33 (umw w m), ops := fun _ => vDAB 6 (umw w m), lanes := true } veSel s

/-- VMOV, one word (R126). -/
def execVmov (w : CW) (s : State) : Out :=
  issueWord { u := ucw w, ok := fun _ => ok34 (ucw w), ops := fun _ => vDA 6 (ucw w), lanes := true } veMov s

/-- VMOV_LONG, two words (R126). -/
def execVmovLong (w : CW) (m : ModW) (s : State) : Out :=
  issueWord { u := umw w m, ok := fun _ => ok34 (umw w m), ops := fun _ => vDA 6 (umw w m), lanes := true } veMov s

/-- VMOVI, one word (R125). -/
def execVmovi (w : IW) (s : State) : Out :=
  issueWord { u := uiw w, ok := fun _ => ok9 (uiw w), ops := fun _ => [dV (uiw w) 1], lanes := true } veMovI s

/-- VMOVI_LONG, two words (R125). -/
def execVmoviLong (w : CW) (x : XW) (s : State) : Out :=
  issueWord { u := uiw2 w x, ok := fun _ => ok9 (uiw2 w x), ops := fun _ => [dV (uiw2 w x) 1], lanes := true } veMovI s

/-- VBCAST, one word (R126). -/
def execVbcast (w : CW) (s : State) : Out :=
  issueWord { u := ucw w, ok := fun _ => ok34 (ucw w), ops := fun _ => [dV (ucw w) (nOf (tyOf (ucw w) 6)), aS (ucw w)], lanes := true } veBcast s

/-- VBCAST_LONG, two words (R126). -/
def execVbcastLong (w : CW) (m : ModW) (s : State) : Out :=
  issueWord { u := umw w m, ok := fun _ => ok34 (umw w m), ops := fun _ => [dV (umw w m) (nOf (tyOf (umw w m) 6)), aS (umw w m)], lanes := true } veBcast s

/-- VLANE, one word (R126, R143). -/
def execVlane (w : CW) (s : State) : Out :=
  issueWord { u := ucw w, ok := fun _ => ok35 (ucw w), ops := fun _ => [dS (ucw w), aV (ucw w) (nOf (tyOf (ucw w) 6)), bS (ucw w)] } veLane s

/-- VLANE_LONG, two words (R126, R143). -/
def execVlaneLong (w : CW) (m : ModW) (s : State) : Out :=
  issueWord { u := umw w m, ok := fun _ => ok35 (umw w m), ops := fun _ => [dS (umw w m), aV (umw w m) (nOf (tyOf (umw w m) 6)), bS (umw w m)] } veLane s

/-- VDOT4, two words (R126). -/
def execVdot4 (w : CW) (m : ModW) (s : State) : Out :=
  issueWord { u := umw w m, ok := fun _ => ok36 (umw w m), ops := fun _ => [dV (umw w m) 1, aV (umw w m) 1, bV (umw w m) 1, cV (umw w m) 1], lanes := true } veDot4 s

/-- VCMP, one word (R127). -/
def execVcmp (w : CW) (s : State) : Out :=
  issueWord { u := ucw w, ok := fun _ => ok37 (ucw w), ops := fun _ => [dP (ucw w), aV (ucw w) (nOf (tyOf (ucw w) 5)), bV (ucw w) (nOf (tyOf (ucw w) 5))], lanes := true } veCmp s

/-- VCMP_LONG, two words (R127). -/
def execVcmpLong (w : CW) (m : ModW) (s : State) : Out :=
  issueWord { u := umw w m, ok := fun _ => ok37 (umw w m), ops := fun _ => [dP (umw w m), aV (umw w m) (nOf (tyOf (umw w m) 5)), bV (umw w m) (nOf (tyOf (umw w m) 5))], lanes := true } veCmp s

end Sys2Proof.Machine
end

