-- ==== Sys2Proof/Machine/VecFloat.lean ====
section
/-! DEFINITION. The vector floating-point instructions of class 1 (R129 to R133). -/

namespace Sys2Proof.Machine

/-- MODE of the slot as a number. -/
def modeOf (k : IC) : Nat := k.x.ctl.mode.toNat
/-- The rounding of the word (R64, R80). -/
def rmK (k : IC) : Nat := rmOf k.u.rnd (modeOf k)
def dazOn (k : IC) : Bool := bit (modeOf k) 4
def ftzOn (k : IC) : Bool := bit (modeOf k) 3

/-- A lane's result with the exceptions of its elements together (R53, R85). Where two elements would generate NaNs of
different causes, CC is the first element's (DESIGN CHOICE, log entry 53). -/
def laneEl (t : Nat) (f : Nat → Nat × Exc) : Nat × Exc :=
  let rs := (upto (elemsOf t)).map f
  (packEl (tyWidth t) (rs.map (·.1)), rs.foldl (fun e r => e.join r.2) {})

/-- The trap of the lanes whose enabled exceptions are raised, described by the first of them (R53, R85). -/
def fpTrap (k : IC) (f : Nat → Exc) : Option TrapInfo :=
  let bad := (lanesOf k.live).filter (fun l => (f l).traps (modeOf k))
  match bad with
  | [] => none
  | l :: _ => some { cause := 0x10, sub := (f l).sub, fmask := laneSet bad }

/-- A floating-point word writes its vector destination, or traps and writes nothing (R53). -/
def fpWord (k : IC) (s : State) (wide : Bool) (f : Nat → Nat × Exc) : Eff :=
  match fpTrap k (fun l => (f l).2) with
  | some t => .trap s t
  | none => .done (setV k s wide (fun l => (f l).1))

/-- An element of a source with DAZ applied (R83, R129). -/
def fIn (k : IC) (t f l j : Nat) : Nat := daz (dazOn k) (fmtOf t) (elem (tyWidth t) j (vVal k t f l))

/-- VFADD, VFSUB, VFMUL (R129). -/
def vfBin (g : Fmt → Nat → Bool → Nat → Nat → Nat × Exc) (k : IC) (s : State) : Eff :=
  let t := tyOf k.u 10
  fpWord k s (isWide t) (fun l => laneEl t (fun j =>
    g (fmtOf t) (rmK k) (ftzOn k) (fIn k t k.u.a l j) (fIn k t k.u.b l j)))

/-- VFMA (R129). -/
def vfFma (k : IC) (s : State) : Eff :=
  let t := tyOf k.u 10
  fpWord k s (isWide t) (fun l => laneEl t (fun j =>
    fFma (fmtOf t) (rmK k) (ftzOn k) (fIn k t k.u.a l j) (fIn k t k.u.b l j) (fIn k t k.u.c l j)))

/-- VFMIN and VFMAX (R86, R129). -/
def vfMinMax (mx : Bool) (k : IC) (s : State) : Eff :=
  let t := tyOf k.u 10
  fpWord k s (isWide t) (fun l => laneEl t (fun j =>
    fMinMax (fmtOf t) mx (bit (modeOf k) 5) (fIn k t k.u.a l j) (fIn k t k.u.b l j)))

/-- VFABS and VFNEG: bit operations (R77, R129). -/
def vfSign (neg : Bool) (k : IC) (s : State) : Eff :=
  let t := tyOf k.u 10
  let w := tyWidth t
  .done (setV k s (isWide t) (fun l => mapEl t (fun j =>
    let x := elem w j (vVal k t k.u.a l)
    if neg then x ^^^ 2 ^ (w - 1) else x % 2 ^ (w - 1))))

/-- VFRND (R129). -/
def vfRnd (k : IC) (s : State) : Eff :=
  let t := tyOf k.u 10
  fpWord k s (isWide t) (fun l => laneEl t (fun j =>
    fRnd (fmtOf t) (rmK k) (bit k.u.card 0) (fIn k t k.u.a l j)))

/-- VFDOT2 (R130). -/
def vfDot2 (k : IC) (s : State) : Eff :=
  let t := k.u.ty
  fpWord k s false (fun l =>
    fDot2 (fmtOf t) (rmK k) (ftzOn k) (fIn k t k.u.a l 0) (fIn k t k.u.b l 0) (fIn k t k.u.a l 1) (fIn k t k.u.b l 1)
      (daz (dazOn k) f32 (vVal k 10 k.u.c l)))

/-- A floating comparison and its exceptions (R131). -/
def cmpFp (f : Fmt) (code x y : Nat) : Bool × Exc :=
  let a := unpack f x
  let b := unpack f y
  let un := isNan a || isNan b
  let sig := isSNan a || isSNan b
  let quiet := code ≤ 1 || code ≥ 6
  let o := cmpFV a b
  let r := match code with
    | 0 => !un && o == .eq
    | 1 => un || o != .eq
    | 2 => !un && o == .lt
    | 3 => !un && o != .lt
    | 4 => !un && o == .gt
    | 5 => !un && o != .gt
    | 6 => un
    | _ => !un
  (r, { nv := if quiet then sig else un })

/-- VFCMP (R131). -/
def vfCmp (k : IC) (s : State) : Eff :=
  let t := tyOf k.u 10
  let r := fun l => cmpFp (fmtOf t) (bits k.u.card 2 0) (fIn k t k.u.a l 0) (fIn k t k.u.b l 0)
  match fpTrap k (fun l => (r l).2) with
  | some t => .trap s t
  | none => .done (setPLive k s k.u.d (fun l => (r l).1))

/-- The class mask of a value (R132). -/
def classBit (f : Fmt) (x : Nat) : Nat :=
  match unpack f x with
  | .nan _ _ sig => if sig then 1 else 2
  | .inf neg => if neg then 4 else 512
  | .fin neg m _ =>
    if m == 0 then (if neg then 32 else 64)
    else if bits x (f.w - 2) f.fb == 0 then (if neg then 16 else 128) else (if neg then 8 else 256)

/-- VFCLASS (R132). -/
def vfClass (k : IC) (s : State) : Eff :=
  let t := tyOf k.u 10
  let w := tyWidth t
  .done (setV k s false (fun l =>
    let c := fun j => classBit (fmtOf t) (elem w j (vVal k t k.u.a l))
    if elemsOf t == 2 then c 0 + 2 ^ 16 * c 1 else c 0))

/-! VCVT (R81, R133). -/

/-- The wave whose SEED a wave reads and advances: a handler uses its parked wave's (R233). -/
def seedOwner (k : IC) : Nat := k.w.parent.getD k.wid
/-- SEED of a lane. -/
def seedGet (k : IC) (s : State) (l : Nat) : W32 := ((tget s.waves (seedOwner k)).elim [] (·.seed)).getD l 0
/-- SEED of the live lanes replaced; 0 is stored as 1 (R50). -/
def seedPut (k : IC) (s : State) (f : Nat → W32) : State :=
  modWave s (seedOwner k) (fun w => { w with seed := (upto w.width).map (fun l =>
    if k.live.getLsbD l then (if f l == 0 then 1 else f l) else w.seed.getD l 0) })

/-- One element converted: type, type2, saturation, rounding, the random bits of RS (R133). -/
def cvtEl (t t2 : Nat) (sat : Bool) (rm : Nat) (ftz lcvt : Bool) (rnd x : Nat) : Nat × Exc :=
  let w := tyWidth t
  if isIntTy t2 then
    let v := sval (isSigned t2) (tyWidth t2) x
    if isIntTy t then (wrapI w (if sat then clampTy (isSigned t) w v else v), {})
    else fOfInt (fmtOf t) rm ftz rnd v
  else if isIntTy t then fToInt (unpack (fmtOf t2) x) rm w (isSigned t) lcvt
  else fConv (fmtOf t2) (fmtOf t) rm ftz sat rnd x

/-- VCVT (R133). -/
def vfCvt (k : IC) (s : State) : Eff :=
  let t := k.u.ty
  let t2 := k.u.ty2
  let ds := bits k.u.card 3 1
  let ss := bits k.u.card 6 4
  let rs := rmK k == 4 && isFltTy t
  let next := fun l => xorshift (seedGet k s l)
  let x := fun l =>
    let e := elem (tyWidth t2) ss (vVal k t2 k.u.a l)
    if isFltTy t2 then daz (dazOn k) (fmtOf t2) e else e
  let r := fun l => cvtEl t t2 (bit k.u.card 0) (rmK k) (ftzOn k) (bit (modeOf k) 6) (bits (next l).toNat 31 16) (x l)
  match fpTrap k (fun l => (r l).2) with
  | some tr => .trap s tr
  | none =>
    let s1 := if rs then seedPut k s next else s
    let w := tyWidth t
    .done (setV k s1 (isWide t) (fun l =>
      if w == 64 then (r l).1 else setBits (vVal k t k.u.d l) (w * ds + w - 1) (w * ds) (r l).1))

/-- VFADD, one word (R129). -/
def execVfadd (w : CW) (s : State) : Out :=
  issueWord { u := ucw w, ok := fun _ => ok38 (ucw w), ops := fun _ => vDAB 10 (ucw w), lanes := true } (vfBin fAdd) s

/-- VFADD_LONG, two words (R129). -/
def execVfaddLong (w : CW) (m : ModW) (s : State) : Out :=
  issueWord { u := umw w m, ok := fun _ => ok38 (umw w m), ops := fun _ => vDAB 10 (umw w m), lanes := true } (vfBin fAdd) s

/-- VFSUB, one word (R129). -/
def execVfsub (w : CW) (s : State) : Out :=
  issueWord { u := ucw w, ok := fun _ => ok38 (ucw w), ops := fun _ => vDAB 10 (ucw w), lanes := true } (vfBin fSub) s

/-- VFSUB_LONG, two words (R129). -/
def execVfsubLong (w : CW) (m : ModW) (s : State) : Out :=
  issueWord { u := umw w m, ok := fun _ => ok38 (umw w m), ops := fun _ => vDAB 10 (umw w m), lanes := true } (vfBin fSub) s

/-- VFMUL, one word (R129). -/
def execVfmul (w : CW) (s : State) : Out :=
  issueWord { u := ucw w, ok := fun _ => ok38 (ucw w), ops := fun _ => vDAB 10 (ucw w), lanes := true } (vfBin fMul) s

/-- VFMUL_LONG, two words (R129). -/
def execVfmulLong (w : CW) (m : ModW) (s : State) : Out :=
  issueWord { u := umw w m, ok := fun _ => ok38 (umw w m), ops := fun _ => vDAB 10 (umw w m), lanes := true } (vfBin fMul) s

/-- VFMA, two words (R129). -/
def execVfma (w : CW) (m : ModW) (s : State) : Out :=
  issueWord { u := umw w m, ok := fun _ => ok39 (umw w m), ops := fun _ => vDABC 10 (umw w m), lanes := true } vfFma s

/-- VFMIN, one word (R86, R129). -/
def execVfmin (w : CW) (s : State) : Out :=
  issueWord { u := ucw w, ok := fun _ => ok38 (ucw w), ops := fun _ => vDAB 10 (ucw w), lanes := true } (vfMinMax false) s

/-- VFMIN_LONG, two words (R86, R129). -/
def execVfminLong (w : CW) (m : ModW) (s : State) : Out :=
  issueWord { u := umw w m, ok := fun _ => ok38 (umw w m), ops := fun _ => vDAB 10 (umw w m), lanes := true } (vfMinMax false) s

/-- VFMAX, one word (R86, R129). -/
def execVfmax (w : CW) (s : State) : Out :=
  issueWord { u := ucw w, ok := fun _ => ok38 (ucw w), ops := fun _ => vDAB 10 (ucw w), lanes := true } (vfMinMax true) s

/-- VFMAX_LONG, two words (R86, R129). -/
def execVfmaxLong (w : CW) (m : ModW) (s : State) : Out :=
  issueWord { u := umw w m, ok := fun _ => ok38 (umw w m), ops := fun _ => vDAB 10 (umw w m), lanes := true } (vfMinMax true) s

/-- VFABS, one word (R77, R129). -/
def execVfabs (w : CW) (s : State) : Out :=
  issueWord { u := ucw w, ok := fun _ => ok40 (ucw w), ops := fun _ => vDA 10 (ucw w), lanes := true } (vfSign false) s

/-- VFABS_LONG, two words (R77, R129). -/
def execVfabsLong (w : CW) (m : ModW) (s : State) : Out :=
  issueWord { u := umw w m, ok := fun _ => ok40 (umw w m), ops := fun _ => vDA 10 (umw w m), lanes := true } (vfSign false) s

/-- VFNEG, one word (R77, R129). -/
def execVfneg (w : CW) (s : State) : Out :=
  issueWord { u := ucw w, ok := fun _ => ok40 (ucw w), ops := fun _ => vDA 10 (ucw w), lanes := true } (vfSign true) s

/-- VFNEG_LONG, two words (R77, R129). -/
def execVfnegLong (w : CW) (m : ModW) (s : State) : Out :=
  issueWord { u := umw w m, ok := fun _ => ok40 (umw w m), ops := fun _ => vDA 10 (umw w m), lanes := true } (vfSign true) s

/-- VFCMP, one word (R131). -/
def execVfcmp (w : CW) (s : State) : Out :=
  issueWord { u := ucw w, ok := fun _ => ok41 (ucw w), ops := fun _ => [dP (ucw w), aV (ucw w) (nOf (tyOf (ucw w) 10)), bV (ucw w) (nOf (tyOf (ucw w) 10))], lanes := true } vfCmp s

/-- VFCMP_LONG, two words (R131). -/
def execVfcmpLong (w : CW) (m : ModW) (s : State) : Out :=
  issueWord { u := umw w m, ok := fun _ => ok41 (umw w m), ops := fun _ => [dP (umw w m), aV (umw w m) (nOf (tyOf (umw w m) 10)), bV (umw w m) (nOf (tyOf (umw w m) 10))], lanes := true } vfCmp s

/-- VFCLASS, one word (R132). -/
def execVfclass (w : CW) (s : State) : Out :=
  issueWord { u := ucw w, ok := fun _ => ok40 (ucw w), ops := fun _ => [dV (ucw w) 1, aV (ucw w) (nOf (tyOf (ucw w) 10))], lanes := true } vfClass s

/-- VFCLASS_LONG, two words (R132). -/
def execVfclassLong (w : CW) (m : ModW) (s : State) : Out :=
  issueWord { u := umw w m, ok := fun _ => ok40 (umw w m), ops := fun _ => [dV (umw w m) 1, aV (umw w m) (nOf (tyOf (umw w m) 10))], lanes := true } vfClass s

/-- VCVT, two words (R81, R133). -/
def execVcvt (w : CW) (m : ModW) (s : State) : Out :=
  issueWord { u := umw w m, ok := fun _ => ok42 (umw w m), ops := fun _ => [{ dV (umw w m) (nOf ((umw w m)).ty) with rd := true }, aV (umw w m) (nOf ((umw w m)).ty2)], lanes := true } vfCvt s

/-- VFRND, one word (R129). -/
def execVfrnd (w : CW) (s : State) : Out :=
  issueWord { u := ucw w, ok := fun _ => ok43 (ucw w), ops := fun _ => vDA 10 (ucw w), lanes := true } vfRnd s

/-- VFRND_LONG, two words (R129). -/
def execVfrndLong (w : CW) (m : ModW) (s : State) : Out :=
  issueWord { u := umw w m, ok := fun _ => ok43 (umw w m), ops := fun _ => vDA 10 (umw w m), lanes := true } vfRnd s

/-- VFDOT2, two words (R130). -/
def execVfdot2 (w : CW) (m : ModW) (s : State) : Out :=
  issueWord { u := umw w m, ok := fun _ => ok44 (umw w m), ops := fun _ => [dV (umw w m) 1, aV (umw w m) 1, bV (umw w m) 1, cV (umw w m) 1], lanes := true } vfDot2 s

end Sys2Proof.Machine
end

