-- ==== Sys2Proof/Machine/Matrix.lean ====
section
/-! DEFINITION. The matrix engine: the class-4 words as they issue, gangs and the belay latch, the reservation table and
its grants, first use of an accumulator, the passes (R186 to R203, R240, R359). -/

namespace Sys2Proof.Machine

/-! Fields (R187 to R189). -/

/-- The shape of a word: 0 .q4, 1 .q1. -/
def shapeOf (u : UW) : Nat := bits u.card 1 0
/-- Quads and rows of a shape. -/
def shapeQuads (sh : Nat) : Nat := if sh == 1 then 1 else 4
def shapeRows (sh : Nat) : Nat := if sh == 1 then 32 else 64
/-- The types of A and B. -/
def typeA (u : UW) : Nat := if u.two then u.ty else 13
def typeB (u : UW) : Nat := if u.two && u.ty2 != 0 then u.ty2 else typeA u
/-- The bytes of n elements of a type, E2M1 packed. -/
def elBytes (t n : Nat) : Nat := n * tyWidth t / 8
/-- RB: bytes of a row of 128 elements (R189). -/
def rowBytes (t : Nat) : Nat := elBytes t 128

/-- Quad operands of a field. -/
def dQ (u : UW) (n : Nat) : Opnd := { field := 0, cls := .q, f := u.d, n := n, wr := true, al := n }
def aQ (u : UW) (n : Nat) : Opnd := { field := 1, cls := .q, f := u.a, n := n, rd := true, al := n }
/-- The scalar of offsets of a two-word form. -/
def cOff (u : UW) : List Opnd := if u.two then [cS u] else []
def opsMM (u : UW) : List Opnd := [{ dQ u (shapeQuads (shapeOf u)) with rd := true }, aBuf u, bBuf u] ++ cOff u
def opsMMB (u : UW) : List Opnd := [{ dQ u 4 with rd := true }, aBuf u, bBuf u] ++ cOff u
def opsMMG (width : Nat) (u : UW) : List Opnd :=
  [{ dQ u (shapeQuads (shapeOf u)) with rd := true }, aBuf u, bBuf u] ++
    (if u.two then [{ field := 3, cls := .v, f := u.c, n := mmgSyms width (shapeOf u), rd := true }] else [])
def opsTile (u : UW) : List Opnd := [{ field := 0, cls := .s, f := u.d, rd := true }, aBuf u, bBuf u]
def opsAmov (width : Nat) (u : UW) : List Opnd :=
  match bits u.card 3 2 with
  | 1 => [dVn' u, aQ u 1]
  | 2 => [dQ u 1, { field := 1, cls := .v, f := u.a, n := 1024 / width, rd := true }]
  | _ => [dQ u 1, aQ u 1]
where
  /-- The vector symbols of AMOV.tov. -/
  dVn' (u : UW) : Opnd := { field := 0, cls := .v, f := u.d, n := 1024 / width, wr := true }

/-! Quads (R187, R199). -/

/-- The physical quad of a quad symbol, none when the symbol lies in the spill area. -/
def quadPhys (b : Block) (num : Nat) : Option Nat := tget b.qbind num
/-- The 1,024 elements of a quad symbol. -/
def quadData (s : State) (b : Block) (num : Nat) : Tbl W32 :=
  match quadPhys b num with
  | some p => (tgetD (ropeOf s (ropeOfCore b.core)).quads p {}).data
  | none => tgetD b.qspill num []
def quadGet (t : Tbl W32) (i : Nat) : W32 := tgetD t i 0
/-- All elements of a quad symbol written. -/
def quadPut (s : State) (blk num : Nat) (f : Nat → W32) : State :=
  match tget s.blocks blk with
  | none => s
  | some b =>
    let t : Tbl W32 := (upto 1024).filterMap (fun i => if f i == 0 then none else some (i, f i))
    let s1 := modBlock s blk (fun b => { b with qpois := b.qpois.filter (· ≠ num) })
    match quadPhys b num with
    | some p => modRope s1 (ropeOfCore b.core) (fun r =>
        { r with quads := tset {} r.quads p { tgetD r.quads p {} with data := t } })
    | none => modBlock s1 blk (fun b => { b with qspill := tput b.qspill num t })

/-- Element (i, j) of a result: its quad from the first and its place in it (R187). -/
def elemAt (i j : Nat) : Nat × Nat := (2 * (i / 32) + j / 32, 32 * (i % 32) + j % 32)
/-- Row and column of place x of quad n of a result. -/
def elemOf (n x : Nat) : Nat × Nat := (32 * (n / 2) + x / 32, 32 * (n % 2) + x % 32)

/-! Operands in buffers (R189, R192, R193). -/

/-- n elements of a type from a byte offset of a buffer. -/
def readEls (b : Block) (buf off t n : Nat) : List Nat :=
  let w := tyWidth t
  let x := ofBytes (bufBytes b buf off (elBytes t n))
  (upto n).map (fun i => (x >>> (w * i)) % 2 ^ w)

/-- A chunk's elements padded with zeros to 128 positions (R193). -/
def pad128 (l : List Nat) : List Nat := l ++ List.replicate (128 - l.length) 0

/-- One chunk added to an accumulator element (R191). -/
def matChunk (m : MatReq) (sc : Scale) (i j : Nat) (a b : List Nat) (acc : Nat) : Nat :=
  if isIntTy m.ty then intChunk m.ty m.ty2 a b acc
  else if m.ty == 11 || m.ty == 12 then
    (upto 8).foldl (fun acc g => halfGroup (fmtOf m.ty) ((a.drop (16 * g)).take 16) ((b.drop (16 * g)).take 16) acc) acc
  else
    let sa := if m.ns then 0x3F800000 else ((sc.sa.getD i 0).toNat)
    let sb := if m.ns then 0x3F800000 else sc.sb.toNat
    scaledChunk m.ty m.ty2 a b ((upto 4).map (fun g => ((sc.ma.getD (4 * i + g) 127).toNat)))
      ((upto 4).map (fun g => ((sc.mb.getD (64 * g + j) 127).toNat))) sa sb acc

/-- The row of A behind result row i of MM or MMG. -/
def rowA (m : MatReq) (b : Block) (i : Nat) : List Nat :=
  let rb := rowBytes m.ty
  if m.kind == 1 then readEls b m.a ((m.idxs.getD i i) * rb) m.ty 128
  else readEls b m.a (m.offA + i * rb) m.ty 128
def colB (m : MatReq) (b : Block) (j : Nat) : List Nat := readEls b m.b (m.offB + j * rowBytes m.ty2) m.ty2 128

/-- The new value of element (i, j) of a leader's result after one member's chunk (R191 to R193). -/
def memberChunk (m : MatReq) (b : Block) (sc : Scale) (i j acc : Nat) : Nat :=
  if m.kind == 2 then
    let t := 4 * (2 * (i / 32) + j / 32) + 2 * (i % 32 / 16) + j % 32 / 16
    let row := fun buf off ty r => readEls b buf (off + elBytes ty ((16 * t + r) * 32)) ty 32
    matChunk { m with ns := true } sc i j (pad128 (row m.a m.offA m.ty (i % 16))) (pad128 (row m.b m.offB m.ty2 (j % 16))) acc
  else matChunk m sc i j (rowA m b i) (colB m b j) acc

/-! The reservation table (R198). -/

/-- The request of an operation, if it is a class-4 word. -/
def matOf (s : State) (id : Nat) : Option (Op × MatReq) :=
  match tget s.ops id with
  | some o => (match o.body with | .mat m => some (o, m) | _ => none)
  | none => none

/-- An operation holds an entry: it is not held in a latch, and it is the one that stands for its gang. -/
def holdsEntry (id : Nat) (m : MatReq) : Bool := !m.latched && m.members.headD id == id

/-- The rope that a wave's block is on. -/
def ropeOfWave (s : State) (wid : Nat) : Nat := (tget s.waves wid).elim 0 (fun w => ropeOfCore (coreOfWave s w))

/-- The entries held in a rope's reservation table. -/
def reserved (s : State) (rope : Nat) : List (Nat × Op) :=
  s.ops.filter (fun e => match e.2.body with
    | .mat m => holdsEntry e.1 m && ropeOfWave s e.2.wid == rope
    | _ => false)

def resFull (s : State) (rope : Nat) : Bool := (reserved s rope).length ≥ 32

/-! Issue (R196, R197). -/

/-- Quads marked empty by an operation (R54, R196). -/
def markQuads (s : State) (blk wid op : Nat) (nums : List Nat) : State :=
  modBlock s blk (fun b => { b with qempty := b.qempty ++ nums.map (fun n => ⟨n, op, wid⟩) })

/-- The operands of a class-4 word of a kind. -/
def opsMat (width kind : Nat) (u : UW) : List Opnd :=
  match kind with
  | 0 => opsMM u
  | 1 => opsMMG width u
  | 2 => opsMMB u
  | 3 => opsTile u
  | 4 => [aBuf u]
  | 5 => [dQ u (shapeQuads (shapeOf u))]
  | 9 => [dQ u (shapeQuads (shapeOf u))]
  | 10 => [dQ u (shapeQuads (shapeOf u)), aBuf u]
  | 11 => [dBuf u, aQ u (shapeQuads (shapeOf u))]
  | _ => opsAmov width u

/-- A request keeps the word as it issues, for a trap at the engine (R229, R240). -/
def wordAt (k : IC) (m : MatReq) : MatReq :=
  { m with word := some ⟨k.slotB, wordSite k.w k.x { u := k.u, ok := fun _ => true } (opsMat k.w.width m.kind k.u) k.live
      { cause := 0x14, sub := 0 }, standOf k.x⟩ }

/-- A class-4 word takes its reservation entry and issues. -/
def matIssue (k : IC) (s : State) (m : MatReq) (quads vecs : List Nat) : Eff :=
  if !hasRoom k .matrix || resFull s (ropeOfCore k.core) then .wait s
  else
    let r := produce k s .matrix .v vecs (.mat (wordAt k m))
    .done (markQuads r.2 k.w.blk k.wid r.1 quads)

/-- The buffer ranges of a word: buffer, offset, bytes, whether written. -/
abbrev BufRange := Nat × Nat × Nat × Bool

/-- The conditions on a class-4 word's buffer ranges: alignment of the offsets, bounds, range locks, poison read (R189,
R197, R399). (DEDUCED, log entry 44) -/
def rangeTrap (k : IC) (s : State) (offs : List Nat) (rs : List BufRange) : Option TrapInfo :=
  match offs.find? (fun o => o % 16 != 0) with
  | some o => some { cause := 8, sub := 1, addr := o }
  | none => match rs.find? (fun r => r.2.1 + r.2.2.1 > bufSize k.b r.1) with
    | some r => some { cause := 4, sub := 2, addr := r.2.1 }
    | none => match rs.findSome? (fun r => (lockBuf s (ropeOfCore k.core) k.w.blk r.1 r.2.1 r.2.2.1 r.2.2.2).map (fun h => (r, h))) with
      | some (r, h) => some { cause := 9, sub := h.1, addr := r.2.1, extra := w64 h.2.seq }
      | none => (rs.findSome? (fun r => if r.2.2.2 then none else bufPoison k.b r.1 r.2.1 r.2.2.1)).map bufTrap

/-! Gangs (R200 to R202). -/

/-- The checks of GANG (R200). -/
def gangOk (s : State) (b : Block) (w : Wave) (g : W64) : Bool :=
  let x := g.toNat
  let n := gangN g
  let ms := gangMembers g
  let waves := b.var.info.waves
  n != 1 && n != 7 && bits x 63 56 == 0 && bits x 7 3 == 0
    && (upto 6).all (fun j => bits x (8 * j + 15) (8 * j + 14) == 0)
    && decide (ms.eraseDups.length = ms.length)
    && ms.all (fun m => decide (m.1 < b.var.info.perRope) && decide (m.2 < waves) && (memberWave s b.grp m).isSome)
    && (n == 0 || ms.contains (blockSlot b, w.idx))

/-- GANG (R200). -/
def mxGang (k : IC) (s : State) : Eff :=
  let g := sVal k k.u.a
  if !gangOk s k.b k.w g then .trap s { cause := 2, sub := 0 }
  else .done (modWave s k.wid (fun w => { w with gang := g, gangBad := false, gangK := 0 }))

/-- A listed member that is over before its word `n` (R202). -/
def memberGone (s : State) (k : IC) (n : Nat) : Bool :=
  (gangMembers k.w.gang).any (fun m => match (memberWave s k.b.grp m).bind (tget s.waves) with
    | some w => waveOver w && decide (w.gangK < n)
    | none => true)

/-- The lowest free entry of a latch. -/
def freeLatch (r : Rope) : Nat := ((upto 8).find? (fun i => (tget r.latch i).isNone)).getD 0

/-- Two ganged words agree in mnemonic, shape, types and .ns (R202). -/
def sameGanged (a b : MatReq) : Bool :=
  a.kind == b.kind && a.shape == b.shape && a.ty == b.ty && a.ty2 == b.ty2 && a.ns == b.ns

/-- The latch entry completes: its operations become one request in list order (R201). -/
def latchComplete (s : State) (rope key : Nat) : State :=
  match tget (ropeOf s rope).latch key with
  | none => s
  | some e =>
    let ops := (gangMembers e.gang).filterMap (fun m => (memberWave s e.grp m).bind (fun i => tget e.issued i))
    ops.foldl (fun s id => match matOf s id with
      | some (_, m) => setBody s id (.mat { m with latched := false, members := ops })
      | none => s) (modRope s rope (fun r => { r with latch := tdel r.latch key }))

/-- The open entries that list the wave and have stood for 1,048,576 rns: they break before another word joins (R202). -/
def gangLate (k : IC) (s : State) : List Nat :=
  (latchOf s (ropeOfCore k.core) k.b.grp (blockSlot k.b) k.w.idx).filter (fun i =>
    (tget (ropeOf s (ropeOfCore k.core)).latch i).elim false (fun e => decide (e.opened + 1048576 ≤ s.now)))
/-- The entry of its gang and index that a word joins (R201). -/
def gangEntry (k : IC) (s : State) : Option (Nat × Latch) :=
  (ropeOf s (ropeOfCore k.core)).latch.find? (fun e =>
    e.2.gang == k.w.gang && e.2.k == k.w.gangK + 1 && e.2.grp == k.b.grp)
/-- With no entry of its own value, an entry that waits for the wave's word of this index under another gang register
value: the word differs from its first member's (R202). (DEDUCED, log entry 44) -/
def gangOther (k : IC) (s : State) : Option (Nat × Latch) :=
  (ropeOf s (ropeOfCore k.core)).latch.find? (fun e =>
    e.2.gang != k.w.gang && e.2.k == k.w.gangK + 1 && e.2.grp == k.b.grp
      && (gangMembers e.2.gang).contains (blockSlot k.b, k.w.idx) && !e.2.issued.any (fun p => p.1 == k.wid))

/-- A ganged word issues into the latch (R201, R202). -/
def gangIssue (k : IC) (s : State) (m : MatReq) (quads : List Nat) : Eff :=
  let rope := ropeOfCore k.core
  let n := k.w.gangK + 1
  if !(gangLate k s).isEmpty then .wait ((gangLate k s).foldl (fun s i => latchBreak s rope i 1) s)
  else if k.w.gangBad then .trap s { cause := 0x0C, sub := 3 }
  else if memberGone s k n then .trap s { cause := 0x0C, sub := 4 }
  else if !hasRoom k .matrix then .wait s
  else
    let add := fun (s : State) =>
      let r := launchOp k s .matrix (.mat { wordAt k m with latched := true })
      let s1 := modWave r.2 k.wid (fun w => { w with gangK := n })
      (r.1, if gangFollower k.b k.w then s1 else markQuads s1 k.w.blk k.wid r.1 quads)
    let joined := fun (r : Nat × State) (key : Nat) (e : Latch) =>
      modRope r.2 rope (fun x => { x with latch := tput x.latch key { e with issued := e.issued ++ [(k.wid, r.1)] } })
    match gangEntry k s with
    | none => match gangOther k s with
      | some (key, e) => .done (latchBreak (joined (add s) key e) rope key 2)
      | none =>
      if (ropeOf s rope).latch.length ≥ 8 then .wait s
      else
        let r := add s
        .done (modRope r.2 rope (fun x => { x with
          latch := tput x.latch (freeLatch x) ⟨k.w.gang, n, s.now, k.b.grp, [(k.wid, r.1)]⟩ }))
    | some (key, e) =>
      let full := decide (e.issued.length + 1 = gangN k.w.gang)
      if full && resFull s rope then .wait s
      else
        let s1 := joined (add s) key e
        let first := (e.issued.head?).bind (fun p => (matOf s p.2).map (·.2))
        if !(first.elim true (sameGanged m)) then .done (latchBreak s1 rope key 2)
        else .done (if full then latchComplete s1 rope key else s1)

/-- MM, MMG and MMB after their checks: ganged, or alone. (DEDUCED, log entry 44) -/
def mmIssue (k : IC) (s : State) (m : MatReq) (quads : List Nat) : Eff :=
  if gangN k.w.gang != 0 then gangIssue k s m quads else matIssue k s m quads []

/-- Quad symbols from a field. -/
def quadNums (k : IC) (f n : Nat) : List Nat := (upto n).map (fun i => qNum k f + i)

/-- offA and offB of a two-word MM or MMB (R189). -/
def offsK (k : IC) : Nat × Nat :=
  if k.u.two then (bits (sVal k k.u.c).toNat 31 0, bits (sVal k k.u.c).toNat 63 32) else (0, 0)

/-- MM (R191). -/
def mxMM (k : IC) (s : State) : Eff :=
  let sh := shapeOf k.u
  let o := offsK k
  let ta := typeA k.u
  let tb := typeB k.u
  let m : MatReq := { kind := 0, shape := sh, ty := ta, ty2 := tb, ns := bit k.u.card 2, d := qNum k k.u.d, a := k.u.a,
                      b := k.u.b, offA := o.1, offB := o.2 }
  match rangeTrap k s [o.1, o.2] [(k.u.a, o.1, shapeRows sh * rowBytes ta, false), (k.u.b, o.2, shapeRows sh * rowBytes tb, false)] with
  | some t => .trap s t
  | none => mmIssue k s m (quadNums k k.u.d (shapeQuads sh))

/-- MMG (R192). -/
def mxMMG (k : IC) (s : State) : Eff :=
  let sh := shapeOf k.u
  let ta := typeA k.u
  let tb := typeB k.u
  let idxs := (upto (shapeRows sh)).map (fun i =>
    if k.u.two then (veGet k.w (vNum k k.u.c + i / k.w.width) (i % k.w.width)).toNat % 65536 else i)
  let m : MatReq := { kind := 1, shape := sh, ty := ta, ty2 := tb, ns := bit k.u.card 2, d := qNum k k.u.d, a := k.u.a,
                      b := k.u.b, idxs := idxs }
  match rangeTrap k s [] (idxs.map (fun i => (k.u.a, i * rowBytes ta, rowBytes ta, false)) ++
      [(k.u.b, 0, shapeRows sh * rowBytes tb, false)]) with
  | some t => .trap s t
  | none => mmIssue k s m (quadNums k k.u.d (shapeQuads sh))

/-- MMB (R193). -/
def mxMMB (k : IC) (s : State) : Eff :=
  let o := offsK k
  let ta := typeA k.u
  let tb := typeB k.u
  let m : MatReq := { kind := 2, ty := ta, ty2 := tb, ns := true, d := qNum k k.u.d, a := k.u.a, b := k.u.b,
                      offA := o.1, offB := o.2 }
  match rangeTrap k s [o.1, o.2] [(k.u.a, o.1, elBytes ta 8192, false), (k.u.b, o.2, elBytes tb 8192, false)] with
  | some t => .trap s t
  | none => mmIssue k s m (quadNums k k.u.d 4)

/-- Bytes of a result element of MTILE: FP32 or .i32, or BF16. -/
def tileElem (obf : Bool) : Nat := if obf then 2 else 4

/-- The sizes of an MTILE descriptor are out of range (R194). -/
def tileBad (dsc : Nat) : Bool :=
  let kc := bits dsc 47 32
  let np := bits dsc 15 8
  let mp := bits dsc 7 0
  kc == 0 || kc > 512 || np == 0 || np > 4 || mp == 0 || mp > 4

/-- The working quads and the result buffer that an MTILE descriptor names (R194). -/
def tileOps (dsc : Nat) : List Opnd :=
  [{ field := 0, cls := .q, f := bits dsc 63 57, n := 4, wr := true, al := 4 }, { field := 0, cls := .buf, f := bits dsc 55 48, wr := true }]

/-- MTILE (R194): its descriptor, whose reserved bits are ignored (R6), its working quads, its buffers; poison is met pitch by pitch
(R240). -/
def mxTile (k : IC) (s : State) : Eff :=
  let dsc := (sVal k k.u.d).toNat
  let qb := bits dsc 63 57
  let ob := bits dsc 55 48
  let kc := bits dsc 47 32
  let np := bits dsc 15 8
  let mp := bits dsc 7 0
  let ta := typeA k.u
  let tb := typeB k.u
  let obf := bit k.u.card 3
  let quads := quadNums k qb 4
  let opq := tileOps dsc
  if tileBad dsc then
    .trap s { cause := 2, sub := 0 }
  else match boundTrap s k.b k.x opq with
    | some t => .trap s t
    | none => match emptyCheck k.b k.wid k.w k.x true opq with
      | .waits => .wait s
      | .traps t => .trap s t
      | .full =>
        let ra : BufRange := (k.u.a, 0, elBytes ta (64 * mp * 128 * kc), false)
        let rb : BufRange := (k.u.b, 0, elBytes tb (64 * np * 128 * kc), false)
        let ro : BufRange := (ob, 0, 64 * mp * 64 * np * tileElem obf, true)
        match rangeTrap { k with b := { k.b with bufPois := [] } } s [] [ra, rb, ro] with
        | some t => .trap s t
        | none =>
          matIssue k s { kind := 3, ty := ta, ty2 := tb, ns := true, d := qNum k qb, a := k.u.a, b := k.u.b, offA := ob,
                         offB := kc, val := w64 (np * 256 + mp), rm := if obf then 1 else 0 } quads []

/-- The offset of MSCL, ALD and AST. -/
def offC (k : IC) : Nat := if k.u.two then bits (sVal k k.u.c).toNat 31 0 else 0

/-- MSCL (R190). -/
def mxScl (k : IC) (s : State) : Eff :=
  match rangeTrap k s [offC k] [(k.u.a, offC k, 1024, false)] with
  | some t => .trap s t
  | none => matIssue k s { kind := 4, a := k.u.a, offA := offC k } [] []

/-- ACLR, AFILL (R195). -/
def mxClr (k : IC) (s : State) : Eff :=
  let n := shapeQuads (shapeOf k.u)
  matIssue k s { kind := 5, shape := shapeOf k.u, d := qNum k k.u.d } (quadNums k k.u.d n) []
def mxFill (k : IC) (s : State) : Eff :=
  let n := shapeQuads (shapeOf k.u)
  matIssue k s { kind := 9, shape := shapeOf k.u, d := qNum k k.u.d, val := sVal k k.u.a } (quadNums k k.u.d n) []

/-- AMOV in its three forms (R195). -/
def mxMov (k : IC) (s : State) : Eff :=
  let n := 1024 / k.w.width
  match bits k.u.card 3 2 with
  | 1 => matIssue k s { kind := 7, shape := 1, d := vNum k k.u.d, a := qNum k k.u.a } []
      ((upto n).map (fun i => vNum k k.u.d + i))
  | 2 => matIssue k s { kind := 8, shape := 1, d := qNum k k.u.d,
                        vecs := (upto 1024).map (fun i => veGet k.w (vNum k k.u.a + i / k.w.width) (i % k.w.width)) }
      [qNum k k.u.d] []
  | _ => matIssue k s { kind := 6, shape := 1, d := qNum k k.u.d, a := qNum k k.u.a } [qNum k k.u.d] []

/-- The type of ALD and AST: .f32 by default (R195). -/
def resTy (u : UW) : Nat := if u.ty == 12 then 12 else 10
/-- Bytes of a row-major result. -/
def resBytes (sh t : Nat) : Nat := shapeRows sh * shapeRows sh * (if t == 12 then 2 else 4)

/-- ALD and AST (R195). -/
def mxAld (k : IC) (s : State) : Eff :=
  let sh := shapeOf k.u
  match rangeTrap k s [offC k] [(k.u.a, offC k, resBytes sh (resTy k.u), false)] with
  | some t => .trap s t
  | none => matIssue k s { kind := 10, shape := sh, ty := resTy k.u, d := qNum k k.u.d, a := k.u.a, offA := offC k }
      (quadNums k k.u.d (shapeQuads sh)) []
def mxAst (k : IC) (s : State) : Eff :=
  let sh := shapeOf k.u
  match rangeTrap k s [offC k] [(k.u.d, offC k, resBytes sh (resTy k.u), true)] with
  | some t => .trap s t
  | none => matIssue k s { kind := 11, shape := sh, ty := resTy k.u, d := k.u.d, a := qNum k k.u.a, offA := offC k,
                           rm := if rmK k == 4 then 0 else rmK k } [] []

/-! Grants (R198, R199, R325). -/

/-- The quad symbols that a request touches. -/
def matQuads (m : MatReq) : List Nat :=
  let n := fun f => (upto (shapeQuads m.shape)).map (fun i => f + i)
  match m.kind with
  | 4 => []
  | 6 => [m.d, m.a]
  | 7 => [m.a]
  | 11 => n m.a
  | _ => n m.d

/-- The block that an operation's wave belongs to. -/
def opBlock (s : State) (o : Op) : Option Block := (tget s.waves o.wid).bind (blockOf s)

/-- The physical quads that a request touches. -/
def matPhys (s : State) (o : Op) (m : MatReq) : List Nat :=
  match opBlock s o with
  | none => []
  | some b => (matQuads m).filterMap (quadPhys b)

/-- The operations of a request: the members of a gang, or itself. -/
def matGroup (id : Nat) (m : MatReq) : List Nat := if m.members.isEmpty then [id] else m.members

/-- A context owns a physical quad. -/
def ownsQuad (s : State) (rope ctx p : Nat) : Bool := (tgetD (ropeOf s rope).quads p {}).owner == some ctx

/-- An MTILE of another context that has run a pitch has passes to come on one of the request's quads: the request's
first-use trap would have to wait for them (R376). -/
def tileOn (s : State) (rope id : Nat) (o : Op) (m : MatReq) : Bool :=
  s.ops.any (fun e => e.1 != id && ropeOfWave s e.2.wid == rope && match e.2.body with
    | .mat n => n.pitch != 0 && (matPhys s e.2 n).any (fun p => (matPhys s o m).contains p
        && !ownsQuad s rope ((tget s.waves o.wid).elim 0 (·.ctx)) p)
    | _ => false)

/-- The context of a request owns every quad that it touches (R199). -/
def matOwned (s : State) (rope : Nat) (o : Op) (m : MatReq) : Bool :=
  (matPhys s o m).all (ownsQuad s rope ((tget s.waves o.wid).elim 0 (·.ctx)))

/-- An entry may be granted: its waves' earlier class-4 words are done, no MTILE has passes to come on a quad that it would
take, no wave of it is halted, and the power allowance does not withhold it. -/
def matReady (s : State) (rope id : Nat) (o : Op) (m : MatReq) : Bool :=
  holdsEntry id m && !m.granted
    && (matGroup id m).all (fun g => (tget s.ops g).elim true (fun x =>
      !s.ops.any (fun e => decide (e.1 < g) && e.2.wid == x.wid && (match e.2.body with | .mat _ => true | _ => false))
      && !((tget s.waves x.wid).elim false (·.halted))))
    && !tileOn s rope id o m
    && powerOk (ropeOf s rope) ((opBlock s o).elim 0 (fun b => (tget s.launches b.lid).elim 0 (·.prio)))

/-- The order of grants: launch priority number, then issue (R198). -/
def grantKey (s : State) (o : Op) : Nat := (opBlock s o).elim 0 (fun b => (tget s.launches b.lid).elim 0 (·.prio))

/-- The passes of a word, or of a pitch of MTILE, for n members of a gang (R188, R194). -/
def matPasses (m : MatReq) (n : Nat) : Nat :=
  let per := if m.ty == 11 || m.ty == 12 then 8 else if m.ty == 15 then 2 else 4
  match m.kind with
  | 0 | 1 => n * per
  | 2 => n * (per / 4)
  | 3 => m.offB * per
  | _ => 0

/-- The granted entry: it runs its passes back to back, an MTILE those of a pitch, which starts from zeroed quads. -/
def granted (s : State) (op rope : Nat) (o : Op) (m : MatReq) : State :=
  let s1 := spendN (setBody s op (.mat { m with granted := true })) rope 1 (matPasses m (matGroup op m).length)
  match m.kind, tget s.waves o.wid with
  | 3, some w => modBlock s1 w.blk (fun b => { b with qpois := b.qpois.filter (fun q => !(matQuads m).contains q) })
  | _, _ => s1

/-- MATRIX_GRANT (R198): the engine is free and the entry is first among the ready. -/
def execMatrixGrant (op : Nat) (s : State) : Out :=
  match matOf s op with
  | none => .next s
  | some (o, m) =>
    let rope := ropeOfWave s o.wid
    let es := reserved s rope
    let busy := es.any (fun e => match e.2.body with | .mat x => x.granted | _ => false)
    let first := es.all (fun e => match e.2.body with
      | .mat x => !matReady s rope e.1 e.2 x || decide (grantKey s o < grantKey s e.2) ||
          (grantKey s o == grantKey s e.2 && decide (op ≤ e.1))
      | _ => true)
    if busy || !matReady s rope op o m || !first then .next s
    else .next (granted s op rope o m)

/-- The slot of the save area of a physical quad (R359). -/
def saveSlot (rope p : Nat) : Nat := 32 * rope + p
def saveAddr (c : Ctx) (rope p : Nat) : Nat := c.savebase.toNat + saveSlot rope p * 4096

/-- The first-use trap on a physical quad by a context (R199, R359). -/
def firstUse (s : State) (rope ctx p : Nat) : State :=
  let q := tgetD (ropeOf s rope).quads p {}
  let s1 := match q.owner with
    | none => s
    | some c =>
      let bs := (upto 1024).flatMap (fun i => bytesOf 4 (quadGet q.data i).toNat)
      modCtx (engineWrite s (saveAddr (ctxOf s c) rope p) bs).1 c (fun x =>
        { x with saveValid := saveSlot rope p :: x.saveValid.filter (· ≠ saveSlot rope p) })
  let c := ctxOf s1 ctx
  let t : Tbl W32 := if c.saveValid.contains (saveSlot rope p) then
      (upto 1024).filterMap (fun i =>
        let v := w32 (peekNum s1 (saveAddr c rope p + 4 * i) 4)
        if v == 0 then none else some (i, v))
    else []
  modCtx (modRope s1 rope (fun r => { r with quads := tset {} r.quads p ⟨some ctx, t⟩ })) ctx (fun c => { c with
    saveValid := saveSlot rope p :: c.saveValid.filter (· ≠ saveSlot rope p), firstuse := satInc c.firstuse })

/-- ACC_FIRST_USE_TRAP (R199, R376): a granted entry, before its first pass on a quad that its context does not own. -/
def execAccFirstUseTrap (op quad : Nat) (s : State) : Out :=
  match matOf s op with
  | none => .next s
  | some (o, m) =>
    let rope := ropeOfWave s o.wid
    let ctx := (tget s.waves o.wid).elim 0 (·.ctx)
    if m.granted && (matPhys s o m).contains quad && !ownsQuad s rope ctx quad then
      .next (firstUse s rope ctx quad)
    else .next s

/-! Passes (R191 to R195). -/

/-- The members of a request in list order: request, block, scale set. -/
def matMembers (s : State) (id : Nat) (m : MatReq) : List (MatReq × Block × Scale) :=
  (matGroup id m).filterMap (fun g => (matOf s g).bind (fun x => (tget s.waves x.1.wid).bind (fun w =>
    (blockOf s w).map (fun b => (x.2, b, w.scale)))))

/-- The passes of MM, MMG or MMB: the leader's quads take every member's chunk in list order. -/
def runMM (s : State) (id blk : Nat) (b : Block) (m : MatReq) : State :=
  let ps := matMembers s id m
  (upto (shapeQuads m.shape)).foldl (fun s n =>
    let old := quadData s b (m.d + n)
    quadPut s blk (m.d + n) (fun x =>
      let ij := elemOf n x
      w32 (ps.foldl (fun acc p => memberChunk p.1 p.2.1 p.2.2 ij.1 ij.2 acc) (quadGet old x).toNat))) s

/-- The scale set of a record (R190). -/
def scaleFrom (b : Block) (buf off : Nat) : Scale :=
  { sa := (upto 64).map (fun i => w32 (ofBytes (bufBytes b buf (off + 4 * i) 4))),
    sb := w32 (ofBytes (bufBytes b buf (off + 256) 4)),
    ma := bufBytes b buf (off + 512) 256,
    mb := bufBytes b buf (off + 768) 256 }

/-- The effect of a granted word other than MTILE (R190, R191, R195). (DEDUCED, log entry 44) -/
def matEffect (s : State) (id : Nat) (o : Op) (m : MatReq) : State :=
  match tget s.waves o.wid with
  | none => s
  | some w =>
    match blockOf s w with
    | none => s
    | some b =>
      let n := shapeQuads m.shape
      let side := shapeRows m.shape
      let bf := m.ty == 12
      let each := fun (s : State) (f : Nat → Nat → W32) =>
        (upto n).foldl (fun s i => quadPut s w.blk (m.d + i) (f i)) s
      match m.kind with
      | 4 => modWave s o.wid (fun w => { w with scale := scaleFrom b m.a m.offA })
      | 5 => each s (fun _ _ => 0)
      | 6 => let t := quadData s b m.a; quadPut s w.blk m.d (quadGet t)
      | 7 =>
        let t := quadData s b m.a
        modWave s o.wid (fun w => (upto (1024 / w.width)).foldl (fun w i =>
          fillSym w (m.d + i) ((upto w.width).map (fun l => (l, quadGet t (i * w.width + l))))) w)
      | 8 => quadPut s w.blk m.d (fun i => m.vecs.getD i 0)
      | 9 => each s (fun _ _ => w32 m.val.toNat)
      | 10 => each s (fun i x =>
          let ij := elemOf i x
          let p := ij.1 * side + ij.2
          if bf then w32 (fConv bf16 f32 0 false false 0 (ofBytes (bufBytes b m.a (m.offA + 2 * p) 2))).1
          else w32 (ofBytes (bufBytes b m.a (m.offA + 4 * p) 4)))
      | 11 =>
        let ts := (upto n).map (fun i => quadData s b (m.a + i))
        let bs := (upto (side * side)).flatMap (fun p =>
          let q := elemAt (p / side) (p % side)
          let v := (quadGet (ts.getD q.1 []) q.2).toNat
          if bf then bytesOf 2 (fConv f32 bf16 m.rm false false 0 v).1 else bytesOf 4 v)
        modBlock s w.blk (fun b => bufPut b m.d m.offA bs)
      | _ => runMM s id w.blk b m

/-- The fills and spills of a word's spill-bound quads are counted, 4 KiB each (R248, R350). (DESIGN CHOICE, log entry 19) -/
def countSpill (s : State) (o : Op) (m : MatReq) : State :=
  match opBlock s o with
  | none => s
  | some b =>
    let n := ((matQuads m).filter (fun q => (quadPhys b q).isNone)).length
    countSpillBytes s b.ctx (8192 * n)

/-! Errors at the engine (R229, R240). -/

/-- The ranges of its buffers that a request other than MTILE reads: buffer, offset, bytes (R189 to R195). -/
def matReads (m : MatReq) : List (Nat × Nat × Nat) :=
  match m.kind with
  | 0 => [(m.a, m.offA, shapeRows m.shape * rowBytes m.ty), (m.b, m.offB, shapeRows m.shape * rowBytes m.ty2)]
  | 1 => m.idxs.map (fun i => (m.a, i * rowBytes m.ty, rowBytes m.ty)) ++ [(m.b, 0, shapeRows m.shape * rowBytes m.ty2)]
  | 2 => [(m.a, m.offA, elBytes m.ty 8192), (m.b, m.offB, elBytes m.ty2 8192)]
  | 4 => [(m.a, m.offA, 1024)]
  | 10 => [(m.a, m.offA, resBytes m.shape m.ty)]
  | _ => []

/-- The quads that a request reads. -/
def matSrcQuads (m : MatReq) : List Nat :=
  match m.kind with
  | 6 => [m.a]
  | 5 | 8 | 9 | 10 => []
  | _ => matQuads m

/-- The error that one member of a request meets at the engine: a poisoned byte of its buffers, or a quad, which the leader alone reads. -/
def memberErr (b : Block) (m : MatReq) (leads : Bool) : Option BufMark :=
  match (matReads m).findSome? (fun r => bufPoison b r.1 r.2.1 r.2.2) with
  | some e => some e
  | none => if leads && (matSrcQuads m).any (fun q => b.qpois.contains q) then some ⟨0, 2, {}, 0⟩ else none

/-- The first member of a request, in list order, that meets an error at the engine. -/
def matErr (s : State) (op : Nat) (m : MatReq) : Option (Nat × BufMark) :=
  (matGroup op m).findSome? (fun g => (matOf s g).bind (fun x => (opBlock s x.1).bind (fun b =>
    (memberErr b x.2 (g == op)).map (fun e => (g, e)))))

/-- A class-4 word meets an error at the engine: it ends without a further effect, its quads full and its count fallen, and its wave owes
a trap at that word, which names the load behind a poison (R229, R240). (DEDUCED, log entry 44) -/
def engineTrap (s : State) (wid : Nat) (m : MatReq) (ids : List Nat) (e : BufMark) (elem : Nat) : State :=
  modWave (ids.foldl endOp s) wid (fun w => { w with defer := w.defer ++
    [{ cause := 0x14, sub := e.sub, orig := if e.sub == 1 then some e.orig else none, elem := elem, addr := e.addr, again := m.word }] })

/-- MATRIX_WORD_COMPLETE (R191 to R196, R201, R229): the word's last pass or transfer; every member's count falls. A word that reads
poisoned bytes, or meets an error in its quads, has no effect, and the member that read them traps. (DEDUCED, log entry 44) -/
def execMatrixWordComplete (op : Nat) (s : State) : Out :=
  match matOf s op with
  | none => .next s
  | some (o, m) =>
    if !m.granted || m.kind == 3 || !matOwned s (ropeOfWave s o.wid) o m then .next s
    else match (matErr s op m).bind (fun e => (matOf s e.1).map (fun x => (x, e.2))) with
    | some ((og, mg), e) => .next (engineTrap s og.wid mg (matGroup op m) e 0)
    | none => .next (countSpill ((matGroup op m).foldl endOp (matEffect s op o m)) o m)

/-- KC, NP and MP of an MTILE request. -/
def tileKC (m : MatReq) : Nat := m.offB
def tileNP (m : MatReq) : Nat := bits m.val.toNat 15 8
def tileMP (m : MatReq) : Nat := bits m.val.toNat 7 0

/-- The bytes of A or B that a pitch reads: whole rows (R194). -/
def tileRange (t kc first : Nat) : Nat × Nat := (elBytes t (64 * first * 128 * kc), elBytes t (64 * 128 * kc))

/-- Element (i, j) of pitch (pi, pj): every chunk in ascending K from +0 (R194). -/
def tileElemVal (b : Block) (m : MatReq) (pi pj i j : Nat) : Nat :=
  let kc := tileKC m
  (upto kc).foldl (fun acc c =>
    let a := readEls b m.a (elBytes m.ty ((64 * pi + i) * 128 * kc + 128 * c)) m.ty 128
    let x := readEls b m.b (elBytes m.ty2 ((64 * pj + j) * 128 * kc + 128 * c)) m.ty2 128
    matChunk m {} i j a x acc) 0

/-- A pitch computed into the working quads and written, converted, to OBUF (R194). -/
def tilePitch (s : State) (blk : Nat) (b : Block) (m : MatReq) (pi pj : Nat) : State :=
  let vals := (upto 4096).map (fun p => tileElemVal b m pi pj (p / 64) (p % 64))
  let s1 := (upto 4).foldl (fun s n => quadPut s blk (m.d + n) (fun x =>
    let ij := elemOf n x
    w32 (vals.getD (64 * ij.1 + ij.2) 0))) s
  let stride := 64 * tileNP m
  modBlock s1 blk (fun b => vals.zipIdx.foldl (fun b e =>
    let at_ := (64 * pi + e.2 / 64) * stride + 64 * pj + e.2 % 64
    if m.rm == 1 then bufPut b m.offA (2 * at_) (bytesOf 2 (fConv f32 bf16 0 false false 0 e.1).1)
    else bufPut b m.offA (4 * at_) (bytesOf 4 e.1)) b)

/-- An error that arose in the working quads while the pitch ran (R240). -/
def tileErr (b : Block) (m : MatReq) : Option BufMark :=
  if (matQuads m).any (fun q => b.qpois.contains q) then some ⟨0, 2, {}, 0⟩ else none

/-- MTILE_PITCH_COMPLETE (R194, R240, R325): one pitch; the word competes again, runs on when its wave is stopped, or ends with its
last. A pitch that reads poisoned bytes, or meets an error in its quads, ends the word with a trap at the MTILE. (DEDUCED, log entry
44) -/
def execMtilePitchComplete (op : Nat) (s : State) : Out :=
  match matOf s op with
  | none => .next s
  | some (o, m) =>
    match tget s.waves o.wid with
    | none => .next s
    | some w =>
      match blockOf s w with
      | none => .next s
      | some b =>
        if !m.granted || m.kind != 3 || !matOwned s (ropeOfWave s o.wid) o m then .next s
        else
          let pi := m.pitch / tileNP m
          let pj := m.pitch % tileNP m
          let ra := tileRange m.ty (tileKC m) pi
          let rb := tileRange m.ty2 (tileKC m) pj
          let bad := (bufPoison b m.a ra.1 ra.2).orElse (fun _ => (bufPoison b m.b rb.1 rb.2).orElse (fun _ => tileErr b m))
          match bad with
          | some e =>
            .next (engineTrap s o.wid m [op] e m.pitch)
          | none =>
            let s1 := tilePitch s w.blk b m pi pj
            if m.pitch + 1 ≥ tileNP m * tileMP m then .next (countSpill (endOp s1 op) o m)
            else if w.halted then
              .next (granted s1 op (ropeOfWave s o.wid) o { m with pitch := m.pitch + 1 })
            else .next (setBody s1 op (.mat { m with pitch := m.pitch + 1, granted := false }))

/-- GANG_LATCH_TIMEOUT (R202, R203): 1,048,576 rns after the entry opened. -/
def execGangLatchTimeout (rope entry : Nat) (s : State) : Out :=
  match tget (ropeOf s rope).latch entry with
  | none => .next s
  | some e => if s.now < e.opened + 1048576 then .next s else .next (latchBreak s rope entry 1)

/-- GANG, one word (R200). -/
def execGang (w : CW) (s : State) : Out :=
  issueWord { u := ucw w, ok := fun _ => ok68 (ucw w), ops := fun _ => [aS (ucw w)], mat := true } mxGang s

/-- GANG_LONG, two words (R200). -/
def execGangLong (w : CW) (m : ModW) (s : State) : Out :=
  issueWord { u := umw w m, ok := fun _ => ok68 (umw w m), ops := fun _ => [aS (umw w m)], mat := true } mxGang s

/-- MM, one word (R187 to R191, R201). -/
def execMm (w : CW) (s : State) : Out :=
  issueWord { u := ucw w, ok := fun _ => ok69 (ucw w), ops := fun _ => opsMM (ucw w), mat := true, gang := true } mxMM s

/-- MM_LONG, two words (R187 to R191, R201). -/
def execMmLong (w : CW) (m : ModW) (s : State) : Out :=
  issueWord { u := umw w m, ok := fun _ => ok69 (umw w m), ops := fun _ => opsMM (umw w m), mat := true, gang := true } mxMM s

/-- MMG, one word (R192, R201). -/
def execMmg (w : CW) (s : State) : Out :=
  issueWord { u := ucw w, ok := fun width => ok70 width (ucw w), ops := fun width => opsMMG width (ucw w), mat := true, gang := true } mxMMG s

/-- MMG_LONG, two words (R192, R201). -/
def execMmgLong (w : CW) (m : ModW) (s : State) : Out :=
  issueWord { u := umw w m, ok := fun width => ok70 width (umw w m), ops := fun width => opsMMG width (umw w m), mat := true, gang := true } mxMMG s

/-- MMB, one word (R193, R201). -/
def execMmb (w : CW) (s : State) : Out :=
  issueWord { u := ucw w, ok := fun _ => ok71 (ucw w), ops := fun _ => opsMMB (ucw w), mat := true, gang := true } mxMMB s

/-- MMB_LONG, two words (R193, R201). -/
def execMmbLong (w : CW) (m : ModW) (s : State) : Out :=
  issueWord { u := umw w m, ok := fun _ => ok71 (umw w m), ops := fun _ => opsMMB (umw w m), mat := true, gang := true } mxMMB s

/-- MTILE, one word (R194). -/
def execMtile (w : CW) (s : State) : Out :=
  issueWord { u := ucw w, ok := fun _ => ok72 (ucw w), ops := fun _ => opsTile (ucw w), mat := true } mxTile s

/-- MTILE_LONG, two words (R194). -/
def execMtileLong (w : CW) (m : ModW) (s : State) : Out :=
  issueWord { u := umw w m, ok := fun _ => ok72 (umw w m), ops := fun _ => opsTile (umw w m), mat := true } mxTile s

/-- MSCL, one word (R190). -/
def execMscl (w : CW) (s : State) : Out :=
  issueWord { u := ucw w, ok := fun _ => ok73 (ucw w), ops := fun _ => aBuf (ucw w) :: cOff (ucw w), mat := true } mxScl s

/-- MSCL_LONG, two words (R190). -/
def execMsclLong (w : CW) (m : ModW) (s : State) : Out :=
  issueWord { u := umw w m, ok := fun _ => ok73 (umw w m), ops := fun _ => aBuf (umw w m) :: cOff (umw w m), mat := true } mxScl s

/-- ACLR, one word (R195). -/
def execAclr (w : CW) (s : State) : Out :=
  issueWord { u := ucw w, ok := fun _ => ok74 (ucw w), ops := fun _ => [dQ (ucw w) (shapeQuads (shapeOf (ucw w)))], mat := true } mxClr s

/-- ACLR_LONG, two words (R195). -/
def execAclrLong (w : CW) (m : ModW) (s : State) : Out :=
  issueWord { u := umw w m, ok := fun _ => ok74 (umw w m), ops := fun _ => [dQ (umw w m) (shapeQuads (shapeOf (umw w m)))], mat := true } mxClr s

/-- AMOV, one word (R195). -/
def execAmov (w : CW) (s : State) : Out :=
  issueWord { u := ucw w, ok := fun width => ok75 width (ucw w), ops := fun width => opsAmov width (ucw w), mat := true } mxMov s

/-- AMOV_LONG, two words (R195). -/
def execAmovLong (w : CW) (m : ModW) (s : State) : Out :=
  issueWord { u := umw w m, ok := fun width => ok75 width (umw w m), ops := fun width => opsAmov width (umw w m), mat := true } mxMov s

/-- AFILL, one word (R195). -/
def execAfill (w : CW) (s : State) : Out :=
  issueWord { u := ucw w, ok := fun _ => ok76 (ucw w), ops := fun _ => [dQ (ucw w) (shapeQuads (shapeOf (ucw w))), aS (ucw w)], mat := true } mxFill s

/-- AFILL_LONG, two words (R195). -/
def execAfillLong (w : CW) (m : ModW) (s : State) : Out :=
  issueWord { u := umw w m, ok := fun _ => ok76 (umw w m), ops := fun _ => [dQ (umw w m) (shapeQuads (shapeOf (umw w m))), aS (umw w m)], mat := true } mxFill s

/-- ALD, one word (R195). -/
def execAld (w : CW) (s : State) : Out :=
  issueWord { u := ucw w, ok := fun _ => ok77 (ucw w), ops := fun _ => [dQ (ucw w) (shapeQuads (shapeOf (ucw w))), aBuf (ucw w)] ++ cOff (ucw w), mat := true } mxAld s

/-- ALD_LONG, two words (R195). -/
def execAldLong (w : CW) (m : ModW) (s : State) : Out :=
  issueWord { u := umw w m, ok := fun _ => ok77 (umw w m), ops := fun _ => [dQ (umw w m) (shapeQuads (shapeOf (umw w m))), aBuf (umw w m)] ++ cOff (umw w m), mat := true } mxAld s

/-- AST, one word (R195). -/
def execAst (w : CW) (s : State) : Out :=
  issueWord { u := ucw w, ok := fun _ => ok78 (ucw w), ops := fun _ => [dBuf (ucw w), aQ (ucw w) (shapeQuads (shapeOf (ucw w)))] ++ cOff (ucw w), mat := true } mxAst s

/-- AST_LONG, two words (R195). -/
def execAstLong (w : CW) (m : ModW) (s : State) : Out :=
  issueWord { u := umw w m, ok := fun _ => ok78 (umw w m), ops := fun _ => [dBuf (umw w m), aQ (umw w m) (shapeQuads (shapeOf (umw w m)))] ++ cOff (umw w m), mat := true } mxAst s

end Sys2Proof.Machine
end

