-- ==== Sys2Proof/Machine/Mailbox.lean ====
section
/-! DEFINITION. The mailbox words as they issue, and the movements of their messages (R213 to R219). -/

namespace Sys2Proof.Machine

/-! Checks (R213, R215). -/

/-- The mailbox of a word, and whether reserved bits of s_a are set. -/
def mbNum (k : IC) : Nat := bits (sVal k k.u.a).toNat 8 0
def mbReserved (k : IC) : Bool := bits (sVal k k.u.a).toNat 63 9 != 0

/-- The mailbox conditions of a context (R213, R373): a mailbox with no bound episode traps with subcode 2 whoever asks.
A replay touches no mailbox (R396). -/
def mbOwn (s : State) (k : IC) : Option TrapInfo :=
  let x := epOf s (mbNum k)
  let t : TrapInfo := { cause := 0x0F, sub := 0, extra := w64 (mbNum k) }
  if replayOf s k.w then none
  else if !x.bound then some { t with sub := 2 }
  else if x.owner ≠ k.w.ctx then some { t with sub := 1 }
  else none

/-- The offset of MBSEND and MBRECV. -/
def mbOff (k : IC) : Nat := if k.u.two then (sVal k k.u.c).toNat else 0
/-- LEN of the message in the buffer (R214). -/
def mbLen (k : IC) : Nat := ofBytes (bufBytes k.b k.u.b (mbOff k + 12) 4)

/-- The checks of MBSEND and MBRECV in their order (R215); a sent message must hold no poison and at most 240 bytes. -/
def mbTrap (k : IC) (s : State) (send : Bool) : Option TrapInfo :=
  if mbReserved k then some { cause := 2, sub := 0 }
  else if k.b.var.info.bufs.length ≤ k.u.b then some { cause := 4, sub := 1 }
  else match mbOwn s k with
    | some t => some t
    | none =>
      if mbOff k % 16 != 0 then some { cause := 8, sub := 1, addr := mbOff k }
      else if bufSize k.b k.u.b < mbOff k + 256 then some { cause := 4, sub := 2, addr := mbOff k }
      else if !send then none
      else match bufPoison k.b k.u.b (mbOff k) 256 with
        | some p => some (bufTrap p)
        | none => if mbLen k > 240 then some { cause := 0x0F, sub := 3, extra := w64 (mbNum k) } else none

/-! MBSEND (R215). -/

/-- .nb of a word. -/
def mbNb (k : IC) : Bool := bit k.u.card 0

/-- MBSEND: the release side, the next sequence, the message on its way; it waits while the queue is full. -/
def mbSend (k : IC) (s : State) : Eff :=
  let e := mbNum k
  if acqHeld k s then .wait s
  else match mbTrap k s true with
    | some t => .trap s t
    | none =>
      if !hasRoom k .copy then .wait s
      else release 5 k s (fun s =>
        if replayOf s k.w then receiveW k s 4 0 (fun s v => .done (setD k s v))
        else if actsUsed s e ≥ mbDepth then
          (if mbNb k then receiveW k s 4 0 (fun s v => .done (setD k s v)) else .wait s)
        else
          let seq := w64 (epOf s e).actSeq
          receiveW k s 4 seq (fun s v =>
            let s1 := modEp (setD k s v) e (fun x => { x with actSeq := x.actSeq + 1 })
            .done (launchOp k s1 .copy (.mbsend e k.u.b (mbOff k) (mbLen k) (ctxOf s k.w.ctx).policy seq)).2))

/-- MBSEND_ENQUEUE (R215): a message enters the queue in SEQ order, with the buffer's bytes at this instant. -/
def execMbsendEnqueue (op : Nat) (s : State) : Out :=
  match tget s.ops op with
  | none => .next s
  | some o =>
    match o.body with
    | .mbsend e buf off len ver seq =>
      match (tget s.waves o.wid).bind (blockOf s) with
      | none => .next s
      | some b =>
        if (sendsDue s e).head? ≠ some op then .next s
        else .next (endOp (modEp s e (fun x => { x with
          actions := x.actions ++ [⟨seq, ver, 0, len, bufBytes b buf (off + 16) 240⟩] })) op)
    | _ => .next s

/-! MBRECV (R216). -/

/-- A message written to a buffer, then its SEQ to s_d. -/
def recvInto (s : State) (wid blk buf off d : Nat) (m : List Byte) : State :=
  modWave (modBlock s blk (fun b => bufPut b buf off m)) wid (fun w => putS w d (w64 (ofBytes (m.take 8))))

/-- An MBRECV in a replay takes its records: an observation and its sequence, or the 0 of .nb (R394, R396). -/
def replayRecv (k : IC) (s : State) : Eff :=
  let empty := match nextRec s k.w with | some l => l.kind == 4 | none => false
  if mbNb k && empty then receiveW k s 4 0 (fun s v => .done (setD k s v))
  else receiveK k s 3 0 (List.replicate 256 0) (fun s m =>
    receiveW k s 4 0 (fun s _ =>
      .done (acquire 5 k (recvInto s k.wid k.w.blk k.u.b (mbOff k) (sNum k k.u.d) m))))

/-- MBRECV: it takes a waiting observation at once when no earlier MBRECV waits; otherwise .nb writes 0, and the wave
parks. (DEDUCED, log entry 46) -/
def mbRecv (k : IC) (s : State) : Eff :=
  let e := mbNum k
  let d := sNum k k.u.d
  if acqHeld k s then .wait s
  else match mbTrap k s false with
    | some t => .trap s t
    | none =>
      if !hasRoom k .copy then .wait s
      else if replayOf s k.w then replayRecv k s
      else
        let x := epOf s e
        let waits := x.waiters.any (fun i => match tget s.ops i with
          | some ⟨_, _, _, _, .mbrecv _ _ _ _ none⟩ => true
          | _ => false)
        match (if waits then none else x.obs.head?) with
        | some m =>
          let r := produce k s .copy .s [d] (.mbrecv e k.u.b (mbOff k) d (some m))
          .done (holdSlot k (modEp r.2 e (fun x => { x with obs := x.obs.drop 1, waiters := x.waiters ++ [r.1] })) r.1)
        | none =>
          if mbNb k then receiveW k s 4 0 (fun s v => .done (setD k s v))
          else
            let r := produce k s .copy .s [d] (.mbrecv e k.u.b (mbOff k) d none)
            .set (setX k (modEp r.2 e (fun x => { x with waiters := x.waiters ++ [r.1] })) (fun x =>
              { x with park := .mbrecv r.1, phase := 0 }))

/-- A slot parked at an MBRECV goes on at the next header. -/
def wakeRecv (s : State) (wid op : Nat) : State :=
  modWave s wid (fun w =>
    let go := fun (x : Slot) => if x.park == .mbrecv op then toNextHdr x else x
    if w.a.park == .mbrecv op || w.b.park == .mbrecv op then { w with a := go w.a, b := go w.b } else w)

/-- A message delivered to an MBRECV: the bytes, s_d, the log, the acquire side, the count (R216, R394). -/
def deliverObs (s : State) (op : Nat) (o : Op) (b : Block) (blk buf off d : Nat) (m : Msg) : State :=
  let bs := msgBytes m
  let s1 := recvInto s o.wid blk buf off d bs
  let s2 := logRec (logRec s1 o.wid 3 0 o.orig bs) o.wid 4 0 o.orig (bytesOf 8 m.seq.toNat)
  acquireBy (wakeRecv (endOp s2 op) o.wid op) o.wid b.core 5

/-- OBSERVATION_DELIVERY (R216, R256): the first MBRECV applied at the mailbox gets the observation it took, or the head
of the queue; a block that is away gets it once it is back. -/
def execObservationDelivery (mbox : Nat) (s : State) : Out :=
  let x := epOf s mbox
  match x.waiters with
  | [] => .next s
  | op :: rest =>
    match tget s.ops op with
    | none => .next (modEp s mbox (fun x => { x with waiters := rest }))
    | some o =>
      match o.body, (tget s.waves o.wid).bind (fun w => (blockOf s w).map (fun b => (w.blk, b))) with
      | .mbrecv _ buf off d got, some (blk, b) =>
        if b.res != .resident then .next s
        else match got, x.obs with
          | some m, _ => .next (deliverObs (modEp s mbox (fun x => { x with waiters := rest })) op o b blk buf off d m)
          | none, m :: ms =>
            .next (deliverObs (modEp s mbox (fun x => { x with waiters := rest, obs := ms })) op o b blk buf off d m)
          | none, [] => .next s
      | _, _ => .next s

/-! MBPOLL and MBVER (R217, R218). -/

/-- The state word of a mailbox (R217). -/
def pollWord (s : State) (e : Nat) : W64 :=
  let x := epOf s e
  w64 (x.estate * 2 ^ 32 + (x.obs.head?).elim 0 (fun m => m.ver.toNat * 2 ^ 16) + (mbDepth - actsUsed s e) * 2 ^ 8 + x.obs.length)

/-- MBPOLL: s_d is empty until the state word comes (R54, R56). -/
def mbPoll (k : IC) (s : State) : Eff :=
  if mbReserved k then .trap s { cause := 2, sub := 0 }
  else match mbOwn s k with
    | some t => .trap s t
    | none =>
      if !hasRoom k .copy then .wait s
      else
        let d := sNum k k.u.d
        .done (produce k s .copy .s [d] (.mbpoll (mbNum k) d)).2

/-- The version that MBVER gives, or its trap (R213, R218). -/
def verNew (k : IC) (s : State) : Except TrapInfo (BitVec 16) :=
  let old := (ctxOf s k.w.ctx).policy
  if bit k.u.card 0 then
    let v := (sVal k k.u.a).toNat
    let n := BitVec.ofNat 16 v
    if bits v 63 16 != 0 then .error { cause := 2, sub := 0 }
    else if replayOf s k.w || (decide (1 ≤ (n - old).toNat) && decide ((n - old).toNat ≤ 32767)) then .ok n
    else .error { cause := 0x0F, sub := 4 }
  else .ok (old + 1)

/-- MBVER: the release side, the new POLICY, the lag check. A replay takes its result from the log and leaves POLICY. -/
def mbVer (k : IC) (s : State) : Eff :=
  if acqHeld k s then .wait s
  else match verNew k s with
    | .error t => .trap s t
    | .ok _ => release 5 k s (fun s =>
        match verNew k s with
        | .error t => .trap s t
        | .ok n =>
          let s1 := if replayOf s k.w then s else setPolicy s k.w.ctx n
          receiveW k s1 4 (w64 n.toNat) (fun s v => .done (setD k s v)))

/-- The operands of the mailbox words: the buffer is checked with the card's own conditions. -/
def mbOps (u : UW) : List Opnd := [dS u, aS u] ++ cOff u

/-- MBSEND, one word (R213 to R215). -/
def execMbsend (w : CW) (s : State) : Out :=
  issueWord { u := ucw w, ok := fun _ => ok81 (ucw w), ops := fun _ => mbOps (ucw w) } mbSend s

/-- MBSEND_LONG, two words (R213 to R215). -/
def execMbsendLong (w : CW) (m : ModW) (s : State) : Out :=
  issueWord { u := umw w m, ok := fun _ => ok81 (umw w m), ops := fun _ => mbOps (umw w m) } mbSend s

/-- MBRECV, one word (R213, R214, R216). -/
def execMbrecv (w : CW) (s : State) : Out :=
  issueWord { u := ucw w, ok := fun _ => ok81 (ucw w), ops := fun _ => mbOps (ucw w), last := true } mbRecv s

/-- MBRECV_LONG, two words (R213, R214, R216). -/
def execMbrecvLong (w : CW) (m : ModW) (s : State) : Out :=
  issueWord { u := umw w m, ok := fun _ => ok81 (umw w m), ops := fun _ => mbOps (umw w m), last := true } mbRecv s

/-- MBPOLL, one word (R213, R217). -/
def execMbpoll (w : CW) (s : State) : Out :=
  issueWord { u := ucw w, ok := fun _ => ok82 (ucw w), ops := fun _ => [dS (ucw w), aS (ucw w)] } mbPoll s

/-- MBPOLL_LONG, two words (R213, R217). -/
def execMbpollLong (w : CW) (m : ModW) (s : State) : Out :=
  issueWord { u := umw w m, ok := fun _ => ok82 (umw w m), ops := fun _ => [dS (umw w m), aS (umw w m)] } mbPoll s

/-- MBVER, one word (R218). -/
def execMbver (w : CW) (s : State) : Out :=
  issueWord { u := ucw w, ok := fun _ => ok83 (ucw w), ops := fun _ => [dS (ucw w)] } mbVer s

/-- MBVER_SET, two words (R213, R218). -/
def execMbverSet (w : CW) (m : ModW) (s : State) : Out :=
  issueWord { u := umw w m, ok := fun _ => ok84 (umw w m), ops := fun _ => if bit ((umw w m)).card 0 then [dS (umw w m), aS (umw w m)] else [dS (umw w m)] } mbVer s

end Sys2Proof.Machine
end

