-- ==== Sys2Proof/Machine/Copy.lean ====
section
/-! DEFINITION. Copies: CPY, CPYM and CPYW as they issue, the start and completion of a copy on the rope's copy engine
(R204 to R212, R309, R312, R313). -/

namespace Sys2Proof.Machine

/-! Issue (R204 to R206). -/

/-- .fromb and .tom of a word; a one-word form is .m2b. -/
def cpFromB (card : Nat) : Bool := bit card 0
def cpToM (card : Nat) : Bool := bit card 1

/-- The slice that a copy word describes (R205). -/
def sliceOfWord (k : IC) (kind : Nat) (op : Option Nat) : CopySlice :=
  let sc := fun i => scGet k.w (sNum k k.u.a + i)
  let x := (sc 2).toNat
  { wid := k.wid, wave := k.w.idx, op := op, kind := kind, card := k.u.card, scope := scopeK k,
    src := (sc 0).toNat, dst := (sc 1).toNat, len := bits x 31 0, sbuf := bits x 46 40, dbuf := bits x 54 48,
    rbase := if kind == 1 then bits (sc 3).toNat 63 32 else 0,
    rmask := if kind == 1 then w32 (bits (sc 3).toNat 31 0) else 0,
    recVa := (sVal k k.u.b).toNat, orig := originK k }

/-- Reserved bits of a descriptor's third word, or a length above the limit. -/
def sliceReserved (k : IC) (sl : CopySlice) : Bool :=
  let x := (scGet k.w (sNum k k.u.a + 2)).toNat
  bits x 63 55 != 0 || bit x 47 || bits x 39 32 != 0 || sl.len > 16777216

/-- A buffer of a slice is undeclared (1) or its range passes the end (2). -/
def sliceBuf (b : Block) (buf off len : Nat) : Option Nat :=
  if b.var.info.bufs.length ≤ buf then some 1 else if bufSize b buf < off + len then some 2 else none

/-- Translation and permission of the record address, none while a walk is needed (R206). -/
def recordTrap (k : IC) (s : State) (va : Nat) : Option (Option TrapInfo) :=
  if !canonical va then some (some { cause := 6, sub := 2, addr := va })
  else match xlatKnown s k.core k.w.ctx k.x va with
    | none => none
    | some none => some (some { cause := 6, sub := 1, addr := va, kind := 2 })
    | some (some l) => some ((permBad s ⟨16, false, true, fun _ => false, 2⟩ l va).map (fun sub => { cause := 7, sub := sub, addr := va }))

/-- A wave of the block was killed before it issued copy n: the copy is cancelled (R210). -/
def neverComes (s : State) (b : Block) (n : Nat) : Bool :=
  b.waves.any (fun i => match tget s.waves i with | some w => w.st == .killed && decide (w.copyK < n) | none => false)

/-- A slice joins its copy. -/
def joinCopy (s : State) (blk n : Nat) (cancelled : Bool) (sl : CopySlice) : State :=
  modBlock s blk (fun b =>
    let c := tgetD b.copies n { st := if cancelled then 3 else 0 }
    { b with copies := tput b.copies n { c with slices := sortBy (fun x y => decide (x.wave ≤ y.wave)) (sl :: c.slices) } })

/-- The copy that a word joins, and whether it is the word's own, which a trap of the parked word left running (R204, R239). -/
def nextCopy (k : IC) (o : Origin) : Nat × Bool :=
  match (tget k.b.copies (k.w.copyK + 1)).bind (fun c => c.slices.find? (fun x => x.wid == k.wid)) with
  | some x => if x.orig == o then (k.w.copyK + 1, true) else (k.w.copyK + 2, false)
  | none => (k.w.copyK + 1, false)

/-- What s_d holds before a word writes it. -/
def sdOld (k : IC) : Nat × W64 × List PoisonMark :=
  (sNum k k.u.d, scGet k.w (sNum k k.u.d), k.w.pois.filter (fun p => p.cls == .s && p.num == sNum k k.u.d))

/-- The checks of R206, in order; then the slice joins copy k of the block and s_d takes k (R204). -/
def cpIssue (kind : Nat) (k : IC) (s : State) : Eff :=
  let sl := sliceOfWord k kind none
  let sb := if cpFromB sl.card then sliceBuf k.b sl.sbuf sl.src sl.len else none
  let db := if cpToM sl.card then none else sliceBuf k.b sl.dbuf sl.dst sl.len
  let mis := [sl.src, sl.dst, sl.len, sl.recVa].find? (fun x => x % 16 != 0)
  if acqHeld k s then .wait s
  else match sb, db, mis with
    | some 1, _, _ => .trap s { cause := 4, sub := 1 }
    | _, some 1, _ => .trap s { cause := 4, sub := 1 }
    | some n, _, _ => .trap s { cause := 4, sub := n, addr := sl.src }
    | _, some n, _ => .trap s { cause := 4, sub := n, addr := sl.dst }
    | _, _, some x => .trap s { cause := 8, sub := 1, addr := x }
    | _, _, _ => match recordTrap k s sl.recVa with
      | none => .wait (startWalks s k.wid k.slotB k.core k.w.ctx k.x [sl.recVa])
      | some (some t) => .trap s t
      | some none =>
        let n := (nextCopy k sl.orig).1
        if sliceReserved k sl then .trap s { cause := 2, sub := 0 }
        else if kind != 2 && !hasRoom k .copy then .wait s
        else
          let s1 := modWave (setD k s (w64 n)) k.wid (fun w => { w with copyK := n })
          let gone := (tget k.b.copies n).elim false (fun c => c.st == 2)
          let r : Option Nat × State := if kind == 2 || gone then (none, s1)
            else let p := launchOp k s1 .copy (.cpy n); (some p.1, p.2)
          let s2 := if gone || (nextCopy k sl.orig).2 then r.2 else joinCopy r.2 k.w.blk n (neverComes s k.b n)
            { sl with op := r.1, undo := if kind == 2 then some (sdOld k) else none }
          if kind == 2 && !gone then .set (setX k s2 (fun x => { x with park := .cpyw n })) else .done s2

/-! The range-lock table (R207, R309). -/

/-- The lowest byte of a copy's source or destination over the slices with bytes, and the length to the highest. -/
def spanOf (f : CopySlice → Nat) (sls : List CopySlice) : Nat × Nat :=
  let xs := sls.filter (fun x => x.len > 0)
  match xs with
  | [] => (0, 0)
  | x :: _ =>
    let lo := xs.foldl (fun m y => min m (f y)) (f x)
    (lo, xs.foldl (fun m y => max m (f y + y.len)) 0 - lo)

/-- The first slice of a copy: its card bits, buffers and record stand for all when they agree. -/
def headSlice (c : Copy) : CopySlice :=
  c.slices.headD ⟨0, 0, none, 0, 0, 0, 0, 0, 0, 0, 0, 0, 0, 0, {}, none⟩

/-- The range-lock entry of a copy: a CPYM locks its source only (R207, R309). -/
def lockOf (b : Block) (blk k : Nat) (c : Copy) : Lock :=
  let h := headSlice c
  let s := spanOf (·.src) c.slices
  let d := spanOf (·.dst) c.slices
  { slo := s.1, dlo := if h.kind == 1 then 0 else d.1, slen := s.2, dlen := if h.kind == 1 then 0 else d.2, seq := k, done := 0,
    sbv := cpFromB h.card, dbv := !cpToM h.card, mcv := false, blk := blk, sbuf := h.sbuf, dbuf := h.dbuf, ctx := b.ctx,
    owner := (blk, k) }

/-- A range of one entry (memory or a buffer of a block) meets a range of another. -/
def rangesMeet (b1 : Bool) (l1 : Lock) (buf1 lo1 n1 : Nat) (b2 : Bool) (l2 : Lock) (buf2 lo2 n2 : Nat) : Bool :=
  b1 == b2 && overlap lo1 n1 lo2 n2 && (if b1 then l1.blk == l2.blk && buf1 == buf2 else l1.ctx == l2.ctx)

/-- A copy waits for another entry: its source meets that destination, or its destination meets that source or
destination (R207). -/
def lockWaits (a o : Lock) : Bool :=
  rangesMeet a.sbv a a.sbuf a.slo a.slen o.dbv o o.dbuf o.dlo o.dlen ||
    rangesMeet a.dbv a a.dbuf a.dlo a.dlen o.sbv o o.sbuf o.slo o.slen ||
    rangesMeet a.dbv a a.dbuf a.dlo a.dlen o.dbv o o.dbuf o.dlo o.dlen

/-- The slices disagree (R210). -/
def slicesDisagree (c : Copy) : Bool :=
  let h := headSlice c
  c.slices.any (fun x => (x.kind == 1) != (h.kind == 1) || x.card != h.card || x.scope != h.scope || x.recVa != h.recVa ||
    x.rbase != h.rbase || x.rmask != h.rmask || (cpFromB h.card && x.sbuf != h.sbuf) ||
    (!cpToM h.card && x.dbuf != h.dbuf))

/-! The record (R208 to R210). -/

/-- A copy's range-lock entries are freed. -/
def freeLocks (s : State) (blk k : Nat) : State :=
  { s with ropes := s.ropes.map (fun e => (e.1, { e.2 with locks := e.2.locks.filter (fun l => l.2.owner ≠ (blk, k)) })) }

/-- A wave parked at CPYW k continues at its next header (R212). -/
def wakeCpyw (s : State) (wid k : Nat) : State :=
  modWave s wid (fun w =>
    let go := fun (x : Slot) => if x.park == .cpyw k then toNextHdr x else x
    if w.a.park == .cpyw k || w.b.park == .cpyw k then { w with a := go w.a, b := go w.b } else w)

/-- The two words of a completion record (R209). (DEDUCED, log entry 43) -/
def recordWords (k : Nat) (c : Copy) : List W64 :=
  let fail := c.cause != 0
  let low := if (headSlice c).kind == 1 then c.refused.toNat else if fail then c.bytes else 0
  [w64 ((if fail then 2 ^ 63 else 0) + k % 2 ^ 63), w64 (c.cause * 2 ^ 56 + c.slice * 2 ^ 48 + low)]

/-- The record is written at its home, the status word and then the stamp; the entries free, the counters drop, the
parked waves go on (R208). -/
def finishCopy (s : State) (blk k : Nat) (c : Copy) : State :=
  match tget s.blocks blk with
  | none => s
  | some b =>
    let va := (headSlice c).recVa
    let ws := recordWords k c
    let put := fun (s : State) (a : Nat) (w : W64) => match devWrite s b.ctx a [w] with
      | some (s1, t) => modLaunch s1 b.lid (fun l => { l with doneT := max l.doneT t })
      | none => s
    let s1 := put (put s (va + 8) (ws.getD 1 0)) va (ws.getD 0 0)
    let s2 := c.slices.foldl (fun s x => wakeCpyw (match x.op with | some o => endOp s o | none => s) x.wid k) (freeLocks s1 blk k)
    modBlock s2 blk (fun b => { b with copies := tput b.copies k { c with st := 2, slices := [], entry := none, recv := [] } })

def putCopy (s : State) (blk k : Nat) (c : Copy) : State := modBlock s blk (fun b => { b with copies := tput b.copies k c })

/-! The start (R207, R211, R313). -/

/-- The resident block of a launch with a number. -/
def receiverBlock (s : State) (lid n : Nat) : Option Nat :=
  (s.blocks.find? (fun e => e.2.lid == lid && !e.2.handler && e.2.idx == n && e.2.res == .resident)).map (·.1)

/-- A receiver decides, against the tables as they stand: its entry, or a refusal (R313). -/
def decideRecv (b : Block) (blk k : Nat) (c : Copy) (p : State × Copy) (i : Nat) : State × Copy :=
  let h := headSlice c
  let d := spanOf (·.dst) c.slices
  let no := { p.2 with refused := p.2.refused ||| w32 (2 ^ i) }
  match receiverBlock p.1 b.lid (h.rbase + i) with
  | none => (p.1, no)
  | some rb =>
    match tget p.1.blocks rb with
    | none => (p.1, no)
    | some r =>
      let rope := ropeOfCore r.core
      let t := (ropeOf p.1 rope).locks
      let l : Lock := { slo := 0, dlo := d.1, slen := 0, dlen := d.2, seq := k, done := 0, sbv := false, dbv := true,
                        mcv := true, blk := rb, sbuf := 0, dbuf := h.dbuf, ctx := b.ctx, owner := (blk, k) }
      let meets := t.any (fun e => rangesMeet true l h.dbuf d.1 d.2 e.2.sbv e.2 e.2.sbuf e.2.slo e.2.slen ||
        rangesMeet true l h.dbuf d.1 d.2 e.2.dbv e.2 e.2.dbuf e.2.dlo e.2.dlen)
      match (upto 16).find? (fun n => (tget t n).isNone) with
      | some n =>
        if meets then (p.1, no)
        else (modRope p.1 rope (fun x => { x with locks := tput x.locks n l }), { p.2 with recv := p.2.recv ++ [(i, rb, n)] })
      | none => (p.1, no)

/-- Every wave of the block that has not ended has issued its word of copy k (R207). -/
def allIssued (s : State) (b : Block) (k : Nat) : Bool :=
  b.waves.all (fun i => match tget s.waves i with | some w => waveOver w || decide (k ≤ w.copyK) | none => true)

/-- COPY_START (R207): with a free entry of the rope's table; slices that disagree fail at once (R210). (DEDUCED, log entry 43) -/
def execCopyStart (blk k entry : Nat) (s : State) : Out :=
  match tget s.blocks blk with
  | none => .next s
  | some b =>
    match tget b.copies k with
    | none => .next s
    | some c =>
      if c.st == 3 then .next (finishCopy s blk k { c with cause := 0x0B, slice := 0, bytes := 0, refused := (headSlice c).rmask })
      else if c.st != 0 || !allIssued s b k then .next s
      else if slicesDisagree c then
        .next (finishCopy s blk k { c with cause := 3, slice := 0, bytes := 0, refused := (headSlice c).rmask })
      else
        let rope := ropeOfCore b.core
        let t := (ropeOf s rope).locks
        let l := lockOf b blk k c
        if entry ≥ 16 || (tget t entry).isSome || t.any (fun e => lockWaits l e.2) || b.res != .resident then .next s
        else
          let s1 := modRope s rope (fun r => { r with locks := tput r.locks entry l })
          let h := headSlice c
          let is_ := if h.kind == 1 then (upto 32).filter (fun i => h.rmask.getLsbD i) else []
          let p := is_.foldl (decideRecv b blk k c) (s1, c)
          .next (putCopy p.1 blk k { p.2 with st := 1, entry := some entry })

/-! The payload (R208, R210). -/

/-- The engine's access of a line: dirty bytes of the rope's fused L1 leave first, performed at T (R154, R267, R277). (DEDUCED, log
entry 43) -/
def engineSee (s : State) (core pa : Nat) : State × Nat :=
  if !(ropeOf s (ropeOfCore core)).fused then (s, 0)
  else
    let cid := cacheOf s core pa
    match getLine s cid (lineOf pa) with
    | some ⟨.dirty by_ _, ctx, _⟩ =>
      let p := performBytes (dropLine s cid (lineOf pa)) by_
      (raiseCacheT p.1 cid ctx p.1.nextId p.2, p.2)
    | _ => (s, 0)

/-- The physical address of a unit of payload, or the CAUSE. -/
def payPa (s : State) (core ctx va : Nat) (write : Bool) : Except Nat Nat :=
  if !canonical va then .error 6
  else match engineXlat s core ctx va with
    | none => .error 6
    | some l =>
      if (if write then !l.w else !l.rd) || !isStorage s (leafPa s l va) then .error 7 else .ok (leafPa s l va)

/-- The 16 bytes of a source unit, or the CAUSE. -/
def payRead (s : State) (b : Block) (blk : Nat) (sl : CopySlice) (off : Nat) : Except Nat (List Byte × State) :=
  if cpFromB sl.card then
    match tget s.blocks blk with
    | none => .error 6
    | some b1 => if (bufPoison b1 sl.sbuf (sl.src + off) 16).isSome then .error 0x14 else .ok (bufBytes b1 sl.sbuf (sl.src + off) 16, s)
  else match payPa s b.core b.ctx (sl.src + off) false with
    | .error e => .error e
    | .ok pa =>
      let s1 := (engineSee s b.core pa).1
      if unitPois s1 pa then .error 0x14
      else let r := homeRead s1 pa 16; .ok (r.1, r.2)

/-- With the unit of a slice at an offset, a copy has written the whole 64-byte unit of its destination (R399). -/
def unitWhole (c : Copy) (sl : CopySlice) (off : Nat) : Bool :=
  let lo := (sl.dst + off) / 64 * 64
  (upto 4).all (fun i => c.slices.any (fun x => decide (x.wave ≤ sl.wave) && decide (x.dst ≤ lo + 16 * i)
    && decide (lo + 16 * i < x.dst + (if x.wave == sl.wave then off + 16 else x.len))))

/-- The blocks whose buffers a copy writes: the block itself, or every accepting receiver. -/
def payBlocks (blk : Nat) (c : Copy) (sl : CopySlice) : List Nat :=
  if cpToM sl.card then [] else if sl.kind == 1 then c.recv.map (fun r => r.2.1) else [blk]

/-- 16 bytes of payload in a buffer; the poison of a unit that the copy has written whole goes (R399). -/
def bufUnit (c : Copy) (sl : CopySlice) (off : Nat) (bs : List Byte) (b : Block) : Block :=
  let b1 := bufPut b sl.dbuf (sl.dst + off) bs
  if unitWhole c sl off then { b1 with bufPois := b1.bufPois.filter (fun p => p.off / 64 ≠ (bufAt b.var.info sl.dbuf + sl.dst + off) / 64) }
  else b1

/-- A poisoned source unit ends the copy; its poison travels into the 16 bytes of a destination buffer, naming the word that
fetched the poisoned data (R209, R232, R399). (DEDUCED, log entry 43) -/
def payPoison (s : State) (blk : Nat) (c : Copy) (sl : CopySlice) (off : Nat) : State :=
  let src : BufMark := match (tget s.blocks blk).bind (fun x => if cpFromB sl.card then bufPoison x sl.sbuf (sl.src + off) 16 else none) with
    | some m => m
    | none => ⟨0, 1, sl.orig, sl.src + off⟩
  if src.sub != 1 then s
  else (payBlocks blk c sl).foldl (fun s i => modBlock s i (fun x =>
    let lo := bufAt x.var.info sl.dbuf + sl.dst + off
    { x with bufPois := x.bufPois ++ (upto 16).map (fun j => ⟨lo + j, 1, src.orig, src.addr⟩) })) s

/-- A unit of payload written to memory, to the block's buffer, or to every accepting receiver. -/
def payWrite (s : State) (b : Block) (blk : Nat) (c : Copy) (sl : CopySlice) (off : Nat) (bs : List Byte) : Except Nat (State × Nat) :=
  if cpToM sl.card then
    match payPa s b.core b.ctx (sl.dst + off) true with
    | .error e => .error e
    | .ok pa =>
      let p := engineSee s b.core pa
      let q := engineWrite p.1 pa bs
      .ok (if unitWhole c sl off then cleanUnits q.1 [unitOf (canonPa s pa)] else q.1, max p.2 q.2)
  else .ok ((payBlocks blk c sl).foldl (fun s i => modBlock s i (bufUnit c sl off bs)) s, 0)

/-- A unit waits while the rope's fused L1 has writes of its lines on their way: the engine sees them performed (R154, R277). (DEDUCED, log
entry 43) -/
def payHeld (s : State) (b : Block) (sl : CopySlice) (off : Nat) : Bool :=
  let busy := fun (va : Nat) (write : Bool) => match payPa s b.core b.ctx va write with
    | .ok pa => hwBusy s (cacheOf s b.core pa) (lineOf pa)
    | .error _ => false
  (ropeOf s (ropeOfCore b.core)).fused && ((!cpFromB sl.card && busy (sl.src + off) false) || (cpToM sl.card && busy (sl.dst + off) true))

/-- How a slice ended: bytes written and the CAUSE, 0 when it is whole. -/
structure SliceEnd where
  s : State
  t : Nat
  done : Nat
  cause : Nat

/-- The units of a slice in ascending order. (DEDUCED, log entry 43) -/
def runUnits (b : Block) (blk : Nat) (c : Copy) (sl : CopySlice) : Nat → Nat → State → Nat → SliceEnd
  | 0, off, s, t => ⟨s, t, off, 0⟩
  | n + 1, off, s, t =>
    if payHeld s b sl off then ⟨s, t, off, 0⟩
    else match payRead s b blk sl off with
    | .error e => ⟨if e == 0x14 then payPoison s blk c sl off else s, t, off, e⟩
    | .ok (bs, s1) =>
      match payWrite s1 b blk c sl off bs with
      | .error e => ⟨s1, t, off, e⟩
      | .ok (s2, t2) => runUnits b blk c sl n (off + 16) s2 (max t t2)

/-- The stretches of 4,096 bytes of a slice that a transfer of its bytes from one place to another ends, as offset and length;
the last may be cut short by the slice's end, or by a fault. -/
def payRecords (sl : CopySlice) (from_ till : Nat) (fault : Bool) : List (Nat × Nat) :=
  ((upto ((till + 4095) / 4096)).filter (fun i =>
    let e := min (4096 * (i + 1)) sl.len
    decide (from_ < e && e ≤ till) || (fault && decide (4096 * i < till && till < e)))).map
    (fun i => (4096 * i, min 4096 (till - 4096 * i)))

/-- The payload that the block's buffers take from memory is received, also by CPYM where the block is a receiver of its own: logged,
or supplied by the record (R394, R396, R397); at most 4,096 bytes a record. None when a replay does not match. (DEDUCED, log entry 37)
-/
def payLog (s : State) (b : Block) (blk : Nat) (c : Copy) (sl : CopySlice) (from_ till : Nat) (fault : Bool) : Option State :=
  if cpFromB sl.card || cpToM sl.card || (sl.kind == 1 && !c.recv.any (fun r => r.2.1 == blk)) then some s
  else (payRecords sl from_ till fault).foldl (fun (os : Option State) p => os.bind (fun s =>
    let off := sl.dst + p.1
    let bs := (tget s.blocks blk).elim [] (fun x => bufBytes x sl.dbuf off p.2)
    (receive s sl.wid 3 (sl.src + p.1) sl.orig bs).map (fun r =>
      if ((tget s.launches b.lid).bind (·.replay)).isSome then modBlock r.1 blk (fun x => bufPut x sl.dbuf off r.2) else r.1))) (some s)

/-- At most n units of the slices from the place a copy has reached, in ascending wave index, up to one that faults (R208,
R210). The answer has the copy with its progress, or the wave whose replay does not match. (DEDUCED, log entry 43) -/
def runSlices (b : Block) (blk : Nat) (n : Nat) (c : Copy) : List CopySlice → State → Nat → Except Nat (State × Nat × Copy)
  | [], s, t => .ok (s, t, c)
  | sl :: rest, s, t =>
    let e := runUnits b blk c sl (min n ((sl.len - c.off) / 16)) c.off s t
    match payLog e.s b blk c sl c.off e.done (e.cause != 0) with
    | none => .error sl.wid
    | some s1 =>
      if e.cause != 0 then
        .ok (s1, e.t, { c with cause := e.cause, slice := sl.wave, bytes := e.done, cur := c.slices.length, off := 0,
                               refused := if sl.kind == 1 then sl.rmask else c.refused })
      else if e.done < sl.len then .ok (s1, e.t, { c with off := e.done })
      else runSlices b blk (n - (sl.len - c.off) / 16) { c with cur := c.cur + 1, off := 0 } rest s1 e.t

/-- Payload bytes that a copy has written (R309). -/
def copyBytes (c : Copy) : Nat :=
  if c.cause != 0 then ((c.slices.filter (fun x => decide (x.wave < c.slice))).map (·.len)).foldl (· + ·) c.bytes
  else ((c.slices.take c.cur).map (·.len)).foldl (· + ·) c.off

/-- A copy's range-lock entries show how far it is (R309). -/
def showDone (s : State) (blk k n : Nat) : State :=
  { s with ropes := s.ropes.map (fun e => (e.1, { e.2 with
      locks := e.2.locks.map (fun l => if l.2.owner == (blk, k) then (l.1, { l.2 with done := n }) else l) })) }

/-- The copies that a rope's engine runs (R312). -/
def copiesRunning (s : State) (rope : Nat) : Nat :=
  ((ropeOf s rope).locks.filter (fun l => !l.2.mcv &&
    ((tget s.blocks l.2.owner.1).bind (fun b => tget b.copies l.2.owner.2)).elim false (·.running))).length

/-- A copy may transfer: it runs, or fewer than four of the rope's copies do, and a replay has come to it (R312, R396). -/
def copyRuns (s : State) (b : Block) (c : Copy) : Bool :=
  c.st == 1 && (c.running || decide (copiesRunning s (ropeOfCore b.core) < 4))
    && !c.slices.any (fun x => notTurn s x.wid x.orig x.op [false, true])

/-- n units of a copy's payload, and where that leaves it; a replay that does not match kills the block. Each unit subtracts the
cost of a transfer from the rope's energy (R385). (DESIGN CHOICE, log entry 11) -/
def copyUnits (s : State) (b : Block) (blk k n : Nat) (c : Copy) : Except State (State × Copy) :=
  match runSlices b blk n { c with running := true } (c.slices.drop c.cur) s (max s.now c.tDone) with
  | .error wid => .error (replayFail s wid)
  | .ok (s1, t, c1) => .ok (spendN (showDone s1 blk k (copyBytes c1)) (ropeOfCore b.core) 2 ((copyBytes c1 - copyBytes c) / 16),
      { c1 with tDone := t })

/-- The engine transfers n more units of copy k (R208, R312): transfers of different copies interleave. -/
def copyMove (s : State) (blk k n : Nat) : State :=
  match tget s.blocks blk with
  | none => s
  | some b =>
    match tget b.copies k with
    | none => s
    | some c =>
      if !copyRuns s b c then s
      else match copyUnits s b blk k n c with
        | .error s1 => s1
        | .ok (s1, c1) => putCopy s1 blk k c1

/-- The units of a copy's payload. -/
def copyLen (c : Copy) : Nat := (c.slices.map (fun x => x.len / 16)).foldl (· + ·) 0

/-- COPY_COMPLETE (R208 to R212): the rest of the payload is written, as far as no unit waits; once it is performed, the record. A
cancelled copy is recorded with CAUSE 0x0B. (DEDUCED, log entry 43) -/
def execCopyComplete (blk k : Nat) (s : State) : Out :=
  match tget s.blocks blk with
  | none => .next s
  | some b =>
    match tget b.copies k with
    | none => .next s
    | some c =>
      if c.st == 3 then
        .next (finishCopy s blk k { c with cause := 0x0B, slice := 0, bytes := 0, refused := (headSlice c).rmask })
      else if c.st == 4 then (if s.now < c.tDone then .next s else .next (finishCopy s blk k c))
      else if !copyRuns s b c then .next s
      else match copyUnits s b blk k (copyLen c) c with
        | .error s1 => .next s1
        | .ok (s1, c1) =>
          let c2 := { c1 with st := 4 }
          if c1.cur < c1.slices.length then .next (putCopy s1 blk k c1)
          else if s1.now < c1.tDone then .next (putCopy s1 blk k c2) else .next (finishCopy s1 blk k c2)

/-- The descriptor and record operands of a copy word. -/
def opsCpy (n : Nat) (u : UW) : List Opnd := [dS u, { aS u with n := n }, bS u]

/-- CPY, one word (R204 to R207). -/
def execCpy (w : CW) (s : State) : Out :=
  issueWord { u := ucw w, ok := fun _ => ok79 (ucw w), ops := fun _ => opsCpy 3 (ucw w) } (cpIssue 0) s

/-- CPY_LONG, two words (R204 to R207). -/
def execCpyLong (w : CW) (m : ModW) (s : State) : Out :=
  issueWord { u := umw w m, ok := fun _ => ok79 (umw w m), ops := fun _ => opsCpy 3 (umw w m) } (cpIssue 0) s

/-- CPYM, one word (R204 to R207, R211). -/
def execCpym (w : CW) (s : State) : Out :=
  issueWord { u := ucw w, ok := fun _ => ok80 (ucw w), ops := fun _ => opsCpy 4 (ucw w) } (cpIssue 1) s

/-- CPYM_LONG, two words (R204 to R207, R211). -/
def execCpymLong (w : CW) (m : ModW) (s : State) : Out :=
  issueWord { u := umw w m, ok := fun _ => ok80 (umw w m), ops := fun _ => opsCpy 4 (umw w m) } (cpIssue 1) s

/-- CPYW, one word (R204 to R207, R212). -/
def execCpyw (w : CW) (s : State) : Out :=
  issueWord { u := ucw w, ok := fun _ => ok79 (ucw w), ops := fun _ => opsCpy 3 (ucw w), last := true } (cpIssue 2) s

/-- CPYW_LONG, two words (R204 to R207, R212). -/
def execCpywLong (w : CW) (m : ModW) (s : State) : Out :=
  issueWord { u := umw w m, ok := fun _ => ok79 (umw w m), ops := fun _ => opsCpy 3 (umw w m), last := true } (cpIssue 2) s

end Sys2Proof.Machine
end

