-- ==== Sys2Proof/Machine/Cross.lean ====
section
/-! DEFINITION. The cross-lane words of class 1: shuffles, votes, reductions, scans, matches, top-k (R137 to R144). -/

namespace Sys2Proof.Machine

/-- A shuffle: lane l takes v_a of lane src l (R137, R138). -/
def xlShuffle (src : IC → Nat → Nat) (k : IC) (s : State) : Eff :=
  let t := tyOf k.u 6
  .done (setV k s (isWide t) (fun l => vVal k t k.u.a (src k l)))

/-- s_b[5:0] of the scalar shuffles. -/
def shAmt (k : IC) : Nat := (sVal k k.u.b).toNat % 64
/-- The source lane of each shuffle (R138). -/
def srcIdx (k : IC) (l : Nat) : Nat := vVal k 6 k.u.b l % k.w.width
def srcXor (k : IC) (l : Nat) : Nat := let j := l ^^^ shAmt k; if j < k.w.width then j else l
def srcUp (k : IC) (l : Nat) : Nat := if shAmt k ≤ l then l - shAmt k else l
def srcDn (k : IC) (l : Nat) : Nat := if l + shAmt k < k.w.width then l + shAmt k else l

/-- VVOTE (R139). -/
def xlVote (k : IC) (s : State) : Eff :=
  let p := prGet k.w k.u.a &&& k.live
  let one := fun (c : Bool) => if c then (1 : W64) else 0
  .done (setD k s (match bits k.u.card 1 0 with
    | 0 => p
    | 1 => one (p != 0)
    | 2 => one (p == k.live)
    | _ => one (p == k.live || p == 0)))

/-- The reducing operations. -/
inductive RedOp where
  | add | min | max
deriving DecidableEq, Repr

/-- The identity of a reduction at a type (R140). -/
def redIdent (o : RedOp) (t : Nat) : Nat :=
  let w := tyWidth t
  if isFltTy t then
    match o with
    | .add => 2 ^ (w - 1)
    | .min => packInf (fmtOf t) false
    | .max => packInf (fmtOf t) true
  else
    match o with
    | .add => 0
    | .min => if isSigned t then 2 ^ (w - 1) - 1 else 2 ^ w - 1
    | .max => if isSigned t then 2 ^ (w - 1) else 0

/-- The rounding of a reduction: .rs rounds as RNE (R140). -/
def redRm (k : IC) : Nat := if rmK k == 4 then 0 else rmK k

/-- One step of a reduction, DAZ and FTZ applied to each operation (R140). (DEDUCED, log entry 38) -/
def redStep (o : RedOp) (k : IC) (t x y : Nat) : Nat × Exc :=
  if isFltTy t then
    let f := fmtOf t
    let a := daz (dazOn k) f x
    let b := daz (dazOn k) f y
    match o with
    | .add => fAdd f (redRm k) (ftzOn k) a b
    | .min => fFlush f (ftzOn k) (fMinMax f false (bit (modeOf k) 5) a b)
    | .max => fFlush f (ftzOn k) (fMinMax f true (bit (modeOf k) 5) a b)
  else
    (aluBits (match o with | .add => .add | .min => .min | .max => .max) (isSigned t) (bit k.u.card 0) (tyWidth t) x y, {})

/-- One level of the tree: neighbours at distance 1 of the list as it stands are combined, and the exceptions gathered
in tree order (R140). -/
def redLevel (op : Nat → Nat → Nat × Exc) : List Nat → List Nat × Exc
  | x :: y :: r =>
    let p := op x y
    let q := redLevel op r
    (p.1 :: q.1, p.2.join q.2)
  | l => (l, {})

/-- The fixed tree of R140, `n` levels. -/
def redTree (op : Nat → Nat → Nat × Exc) : Nat → List Nat → Exc → Nat × Exc
  | 0, l, e => (l.headD 0, e)
  | n + 1, l, e =>
    let p := redLevel op l
    redTree op n p.1 (e.join p.2)

/-- The trap of a reduction as a whole (R140). -/
def redTrap (k : IC) (e : Exc) : Option TrapInfo :=
  if e.traps (modeOf k) then some { cause := 0x10, sub := e.sub, fmask := k.live } else none

/-- VREDADD, VREDMIN, VREDMAX (R140). -/
def xlRed (o : RedOp) (k : IC) (s : State) : Eff :=
  let t := tyOf k.u 5
  let xs := (upto k.w.width).map (fun l => if k.live.getLsbD l then vVal k t k.u.a l else redIdent o t)
  let r := redTree (redStep o k t) (Nat.log2 k.w.width) xs {}
  match redTrap k r.2 with
  | some i => .trap s i
  | none => .done (setD k s (ext64 (t == 5) (tyWidth t) r.1))

/-- The prefixes of a scan: the value each lane of the list receives, the exceptions, in lane order (R141). -/
def scanRun (op : Nat → Nat → Nat × Exc) (excl : Bool) (val : Nat → Nat) : List Nat → Nat → List (Nat × Nat) × Exc
  | [], _ => ([], {})
  | l :: r, acc =>
    let p := op acc (val l)
    let q := scanRun op excl val r p.1
    ((l, if excl then acc else p.1) :: q.1, p.2.join q.2)

/-- VSCAN (R141). -/
def xlScan (k : IC) (s : State) : Eff :=
  let t := tyOf k.u 5
  let o : RedOp := match bits k.u.card 2 1 with | 0 => .add | 1 => .min | _ => .max
  let plain := { k with u := { k.u with card := 0 } }
  let r := scanRun (redStep o plain t) (bit k.u.card 0) (vVal k t k.u.a) (lanesOf k.live) (redIdent o t)
  match redTrap k r.2 with
  | some i => .trap s i
  | none => .done (setV k s false (fun l => tgetD r.1 l 0))

/-- VMATCH (R142). -/
def xlMatch (k : IC) (s : State) : Eff :=
  let t := tyOf k.u 6
  .done (setV k s (k.w.width == 64) (fun l =>
    (laneSet ((lanesOf k.live).filter (fun j => vVal k t k.u.a j == vVal k t k.u.a l))).toNat))

/-- Symbols of a lane set at a width (R142). -/
def matchSyms (width : Nat) : Nat := if width == 64 then 2 else 1

/-- Lane i stands before lane j in VTOPK's order (R144). -/
def topBefore (k : IC) (t : Nat) (least : Bool) (i j : Nat) : Bool :=
  let o : Ordering :=
    if isFltTy t then cmpFV (unpack f32 (fIn k t k.u.a i 0)) (unpack f32 (fIn k t k.u.a j 0))
    else compare (sval (isSigned t) 32 (vVal k t k.u.a i)) (sval (isSigned t) 32 (vVal k t k.u.a j))
  match o with
  | .eq => i ≤ j
  | .gt => !least
  | .lt => least

/-- VTOPK (R144). (DEDUCED, log entry 39) -/
def xlTopk (k : IC) (s : State) : Eff :=
  let t := tyOf k.u 10
  let n := min (sVal k k.u.b).toNat k.w.width
  let cand := (lanesOf k.live).filter (fun l => !(isFltTy t && isNan (unpack f32 (vVal k t k.u.a l))))
  let sel := (sortBy (topBefore k t (bit k.u.card 0)) cand).take n
  let rank := fun l => if sel.contains l then sel.idxOf l else 0xFFFFFFFF
  .done (setPLive k (setV k s false rank) k.u.c (fun l => sel.contains l))

/-- The destination predicate of VTOPK, in the field c. -/
def cPw (u : UW) : Opnd := { field := 3, cls := .p, f := u.c, wr := true }

/-- VSHFL, one word (R137, R138). -/
def execVshfl (w : CW) (s : State) : Out :=
  issueWord { u := ucw w, ok := fun _ => ok35 (ucw w), ops := fun _ => [dV (ucw w) (nOf (tyOf (ucw w) 6)), aV (ucw w) (nOf (tyOf (ucw w) 6)), bV (ucw w) 1], lanes := true } (xlShuffle srcIdx) s

/-- VSHFL_LONG, two words (R137, R138). -/
def execVshflLong (w : CW) (m : ModW) (s : State) : Out :=
  issueWord { u := umw w m, ok := fun _ => ok35 (umw w m), ops := fun _ => [dV (umw w m) (nOf (tyOf (umw w m) 6)), aV (umw w m) (nOf (tyOf (umw w m) 6)), bV (umw w m) 1], lanes := true } (xlShuffle srcIdx) s

/-- VSHFLX, one word (R137, R138). -/
def execVshflx (w : CW) (s : State) : Out :=
  issueWord { u := ucw w, ok := fun _ => ok35 (ucw w), ops := fun _ => [dV (ucw w) (nOf (tyOf (ucw w) 6)), aV (ucw w) (nOf (tyOf (ucw w) 6)), bS (ucw w)], lanes := true } (xlShuffle srcXor) s

/-- VSHFLX_LONG, two words (R137, R138). -/
def execVshflxLong (w : CW) (m : ModW) (s : State) : Out :=
  issueWord { u := umw w m, ok := fun _ => ok35 (umw w m), ops := fun _ => [dV (umw w m) (nOf (tyOf (umw w m) 6)), aV (umw w m) (nOf (tyOf (umw w m) 6)), bS (umw w m)], lanes := true } (xlShuffle srcXor) s

/-- VSHFLUP, one word (R137, R138). -/
def execVshflup (w : CW) (s : State) : Out :=
  issueWord { u := ucw w, ok := fun _ => ok35 (ucw w), ops := fun _ => [dV (ucw w) (nOf (tyOf (ucw w) 6)), aV (ucw w) (nOf (tyOf (ucw w) 6)), bS (ucw w)], lanes := true } (xlShuffle srcUp) s

/-- VSHFLUP_LONG, two words (R137, R138). -/
def execVshflupLong (w : CW) (m : ModW) (s : State) : Out :=
  issueWord { u := umw w m, ok := fun _ => ok35 (umw w m), ops := fun _ => [dV (umw w m) (nOf (tyOf (umw w m) 6)), aV (umw w m) (nOf (tyOf (umw w m) 6)), bS (umw w m)], lanes := true } (xlShuffle srcUp) s

/-- VSHFLDN, one word (R137, R138). -/
def execVshfldn (w : CW) (s : State) : Out :=
  issueWord { u := ucw w, ok := fun _ => ok35 (ucw w), ops := fun _ => [dV (ucw w) (nOf (tyOf (ucw w) 6)), aV (ucw w) (nOf (tyOf (ucw w) 6)), bS (ucw w)], lanes := true } (xlShuffle srcDn) s

/-- VSHFLDN_LONG, two words (R137, R138). -/
def execVshfldnLong (w : CW) (m : ModW) (s : State) : Out :=
  issueWord { u := umw w m, ok := fun _ => ok35 (umw w m), ops := fun _ => [dV (umw w m) (nOf (tyOf (umw w m) 6)), aV (umw w m) (nOf (tyOf (umw w m) 6)), bS (umw w m)], lanes := true } (xlShuffle srcDn) s

/-- VVOTE, one word (R139). -/
def execVvote (w : CW) (s : State) : Out :=
  issueWord { u := ucw w, ok := fun _ => ok45 (ucw w), ops := fun _ => [dS (ucw w), aP (ucw w)], lanes := true, always := [0] } xlVote s

/-- VVOTE_LONG, two words (R139). -/
def execVvoteLong (w : CW) (m : ModW) (s : State) : Out :=
  issueWord { u := umw w m, ok := fun _ => ok45 (umw w m), ops := fun _ => [dS (umw w m), aP (umw w m)], lanes := true, always := [0] } xlVote s

/-- VREDADD, one word (R140). -/
def execVredadd (w : CW) (s : State) : Out :=
  issueWord { u := ucw w, ok := fun _ => ok46 (ucw w), ops := fun _ => [dS (ucw w), aV (ucw w) (nOf (tyOf (ucw w) 5))], lanes := true, always := [0] } (xlRed .add) s

/-- VREDADD_LONG, two words (R140). -/
def execVredaddLong (w : CW) (m : ModW) (s : State) : Out :=
  issueWord { u := umw w m, ok := fun _ => ok46 (umw w m), ops := fun _ => [dS (umw w m), aV (umw w m) (nOf (tyOf (umw w m) 5))], lanes := true, always := [0] } (xlRed .add) s

/-- VREDMIN, one word (R140). -/
def execVredmin (w : CW) (s : State) : Out :=
  issueWord { u := ucw w, ok := fun _ => ok47 (ucw w), ops := fun _ => [dS (ucw w), aV (ucw w) (nOf (tyOf (ucw w) 5))], lanes := true, always := [0] } (xlRed .min) s

/-- VREDMIN_LONG, two words (R140). -/
def execVredminLong (w : CW) (m : ModW) (s : State) : Out :=
  issueWord { u := umw w m, ok := fun _ => ok47 (umw w m), ops := fun _ => [dS (umw w m), aV (umw w m) (nOf (tyOf (umw w m) 5))], lanes := true, always := [0] } (xlRed .min) s

/-- VREDMAX, one word (R140). -/
def execVredmax (w : CW) (s : State) : Out :=
  issueWord { u := ucw w, ok := fun _ => ok47 (ucw w), ops := fun _ => [dS (ucw w), aV (ucw w) (nOf (tyOf (ucw w) 5))], lanes := true, always := [0] } (xlRed .max) s

/-- VREDMAX_LONG, two words (R140). -/
def execVredmaxLong (w : CW) (m : ModW) (s : State) : Out :=
  issueWord { u := umw w m, ok := fun _ => ok47 (umw w m), ops := fun _ => [dS (umw w m), aV (umw w m) (nOf (tyOf (umw w m) 5))], lanes := true, always := [0] } (xlRed .max) s

/-- VSCAN, one word (R141). -/
def execVscan (w : CW) (s : State) : Out :=
  issueWord { u := ucw w, ok := fun _ => ok48 (ucw w), ops := fun _ => [dV (ucw w) 1, aV (ucw w) 1], lanes := true } xlScan s

/-- VSCAN_LONG, two words (R141). -/
def execVscanLong (w : CW) (m : ModW) (s : State) : Out :=
  issueWord { u := umw w m, ok := fun _ => ok48 (umw w m), ops := fun _ => [dV (umw w m) 1, aV (umw w m) 1], lanes := true } xlScan s

/-- VMATCH, one word (R142). -/
def execVmatch (w : CW) (s : State) : Out :=
  issueWord { u := ucw w, ok := fun _ => ok34 (ucw w), ops := fun width => [dV (ucw w) (matchSyms width), aV (ucw w) (nOf (tyOf (ucw w) 6))], lanes := true } xlMatch s

/-- VMATCH_LONG, two words (R142). -/
def execVmatchLong (w : CW) (m : ModW) (s : State) : Out :=
  issueWord { u := umw w m, ok := fun _ => ok34 (umw w m), ops := fun width => [dV (umw w m) (matchSyms width), aV (umw w m) (nOf (tyOf (umw w m) 6))], lanes := true } xlMatch s

/-- VTOPK, two words (R144). -/
def execVtopk (w : CW) (m : ModW) (s : State) : Out :=
  issueWord { u := umw w m, ok := fun _ => ok49 (umw w m), ops := fun _ => [dV (umw w m) 1, aV (umw w m) 1, bS (umw w m), cPw (umw w m)], lanes := true, always := [2] } xlTopk s

end Sys2Proof.Machine
end

