-- ==== Sys2Proof/Machine/Iterator.lean ====
section
/-! DEFINITION. Tensor iterators: TIDEF, TSWEEP and TWALK (R145 to R149). -/

namespace Sys2Proof.Machine

/-- Field j of four 16-bit fields of a word. -/
def quarter (x : W64) (j : Nat) : Nat := bits x.toNat (16 * j + 15) (16 * j)

/-- An iterator record as its eight words (R145). -/
structure Iter where
  ws : List W64
deriving DecidableEq, Repr

def Iter.word (r : Iter) (i : Nat) : W64 := r.ws.getD i 0
def Iter.ext (r : Iter) (j : Nat) : Nat := quarter (r.word 3) j
def Iter.count (r : Iter) : Nat := r.ext 0 * r.ext 1 * r.ext 2 * r.ext 3
def Iter.progress (r : Iter) : Nat := bits (r.word 7).toNat 63 32
def Iter.valid (r : Iter) : Bool := bit (r.word 7).toNat 31
def Iter.scope (r : Iter) : Nat := bits (r.word 7).toNat 18 16
def Iter.rank (r : Iter) : Nat := bits (r.word 7).toNat 14 13 + 1
def Iter.type (r : Iter) : Nat := bits (r.word 7).toNat 12 8
/-- Bytes of an element. -/
def Iter.size (r : Iter) : Nat := tyWidth r.type / 8

/-- The record in the eight symbols from a. -/
def iterAt (k : IC) : Iter := ⟨(upto 8).map (fun i => scGet k.w (sNum k k.u.a + i))⟩

/-- The types of a record (R146). -/
def iterTys : List Nat := [1, 2, 3, 4, 5, 6, 10, 11, 12, 13, 14]

/-- The address of element e of tensor `base` (0 D, 1 A, 2 B), with its strides and broadcast flags (R145). -/
def Iter.addr (r : Iter) (base e : Nat) : Nat :=
  let i := [e % r.ext 0, e / r.ext 0 % r.ext 1, e / (r.ext 0 * r.ext 1) % r.ext 2, e / (r.ext 0 * r.ext 1 * r.ext 2)]
  let bc := if base == 1 then bits (r.word 7).toNat 3 0 else if base == 2 then bits (r.word 7).toNat 7 4 else 0
  let off := (upto 4).foldl (fun (acc : Int) j =>
    acc + (if bit bc j then 0 else (i.getD j 0 : Int) * sextI (quarter (r.word (4 + base)) j) 16)) 0
  wrapI 64 ((r.word base).toNat + (r.size : Int) * off)

/-- TIDEF's checks: the offset of the first word that fails (R146). -/
def iterBad (r : Iter) : Option Nat :=
  let exts := (upto r.rank).map r.ext
  if !canonical (r.word 0).toNat then some 0
  else if !canonical (r.word 1).toNat then some 1
  else if !canonical (r.word 2).toNat then some 2
  else if exts.contains 0 || exts.foldl (· * ·) 1 ≥ 2 ^ 32 then some 3
  else if !iterTys.contains r.type then some 7
  else none

/-- The words that TIDEF writes (R145). (DEDUCED, log entry 39) -/
def iterInit (r : Iter) (scope order : Nat) : List W64 :=
  let exts := (upto 4).foldl (fun acc j => acc + (if j < r.rank then r.ext j else 1) * 2 ^ (16 * j)) 0
  [r.word 0, r.word 1, r.word 2, w64 exts, r.word 4, r.word 5, r.word 6,
    w64 (2 ^ 31 + order * 2 ^ 19 + scope * 2 ^ 16 + bits (r.word 7).toNat 14 0)]

/-- Scalars written from a symbol on. -/
def putScalars (w : Wave) (n : Nat) (vs : List W64) : Wave := vs.zipIdx.foldl (fun w e => putS w (n + e.2) e.1) w

/-- TIDEF (R146). -/
def itDef (k : IC) (s : State) : Eff :=
  let r := iterAt k
  match iterBad r with
  | some n => .trap s { cause := 2, sub := n }
  | none => .done (modWave s k.wid (fun w => putScalars w (sNum k k.u.d) (iterInit r k.u.scope k.u.order)))

/-! Element accesses. -/

/-- The checks of one element's access. -/
inductive ElemChk where
  | ok (pas : List Nat)
  | unknown (vas : List Nat)
  | bad (t : TrapInfo)

/-- The checks of R153 on an element's accesses, each an address and whether it is written. -/
def elemCheck (k : IC) (s : State) (r : Iter) (e : Nat) (accs : List (Nat × Bool)) : ElemChk :=
  let n := r.size
  let tr := fun (cause sub va kind : Nat) (x : W64) =>
    ElemChk.bad { cause := cause, sub := sub, fmask := laneSet [e % k.w.width], addr := va, elem := e, kind := kind, extra := x }
  let kd := fun (wr : Bool) => if wr then 2 else 1
  match accs.find? (fun a => a.1 % n != 0) with
  | some a => tr 8 1 a.1 1 0
  | none => match accs.find? (fun a => !canonical a.1) with
    | some a => tr 6 2 a.1 1 0
    | none =>
      let kn := accs.map (fun a => (a, xlatKnown s k.core k.w.ctx k.x a.1))
      match kn.find? (fun x => match x.2 with | some none => true | _ => false) with
      | some x => tr 6 1 x.1.1 (kd x.1.2) 0
      | none =>
        if kn.any (fun x => x.2.isNone) then .unknown (accs.map (·.1))
        else
          let ls := kn.map (fun x => (x.1, (x.2.bind (fun l => l)).getD ⟨0, 16, false, false, false⟩))
          match ls.findSome? (fun x =>
              (permBad s ⟨n, !x.1.2, x.1.2, fun _ => false, 1⟩ x.2 x.1.1).map (fun sub => (x.1.1, sub))) with
          | some (va, sub) => tr 7 sub va 1 0
          | none => match accs.findSome? (fun a => (lockMem s (ropeOfCore k.core) k.w.ctx a.1 n a.2).map (fun h => (a.1, h))) with
            | some (va, h) => tr 9 h.1 va 1 (w64 h.2.seq)
            | none => .ok (ls.map (fun x => leafPa s x.2 x.1.1))

/-- What stands in the way of elements taken in order, looked at before any is touched: the walks still to make, up to
the first element that faults; then the physical addresses of those before it. -/
def prepass (k : IC) (s : State) (r : Iter) (accs : Nat → List (Nat × Bool)) : List Nat → List Nat × List Nat
  | [] => ([], [])
  | e :: rest =>
    match elemCheck k s r e (accs e) with
    | .bad _ => ([], [])
    | .unknown vas => let p := prepass k s r accs rest; (vas ++ p.1, p.2)
    | .ok pas => let p := prepass k s r accs rest; (p.1, pas ++ p.2)

/-- An element read at the record's scope; none when a replay has no record. -/
def elemRead (k : IC) (s : State) (r : Iter) (va pa : Nat) : Option (Nat × State × Bool) :=
  (readFor (reachNow s k.wid (readLevel s k.core pa r.size false)) k.wid k.core (originK k) va pa r.size false).map (fun x =>
    (ofBytes x.1, x.2.1, x.2.2))

/-- The trap of an element whose source is poisoned. -/
def elemPois (k : IC) (e va : Nat) : TrapInfo :=
  { cause := 0x14, sub := 1, fmask := laneSet [e % k.w.width], addr := va, elem := e, orig := some (originK k) }

/-! TSWEEP (R147, R148). -/

/-- An operation's result on element values, and its exceptions; FTZ on a lesser or greater number too (R147, DEDUCED,
log entry 38). -/
def sweepOp (code t mode x y : Nat) : Nat × Exc :=
  let w := tyWidth t
  if code == 8 then (x, {})
  else if isFltTy t then
    let f := fmtOf t
    let small := t ≥ 13
    let rm := if mode % 8 == 4 then 0 else mode % 8
    let dz := bit mode 4 && !small
    let ft := bit mode 3 && !small
    let a := daz dz f x
    let b := daz dz f y
    match code with
    | 0 => fAdd f rm ft a b
    | 1 => fSub f rm ft a b
    | 2 => fMul f rm ft a b
    | 3 => fFlush f ft (fMinMax f false (bit mode 5) a b)
    | _ => fFlush f ft (fMinMax f true (bit mode 5) a b)
  else
    let o : AluOp := match code with
      | 0 => .add | 1 => .sub | 2 => .mul | 3 => .min | 4 => .max | 5 => .and | 6 => .or | _ => .xor
    (aluBits o (isSigned t) false w x y, {})

/-- A store of an element at the record's scope. -/
def elemStore (k : IC) (s : State) (r : Iter) (pa v : Nat) : State :=
  let bs := bytesOf r.size v
  let cid := cacheOf s k.core pa
  let s1 := reachNow (replayStore s k.w.blk pa bs) k.wid (storeLevel s k.core pa r.scope)
  if r.scope ≤ reachOf s k.core then narrowStore s1 cid k.w.ctx pa bs r.scope k.w.blk
  else
    let p := wideStore s1 k.wid k.w.ctx cid pa bs 0 r.scope
    { p.2 with hw := tmod p.2.hw p.1 (fun h => { h with op := none }) }

/-- How a run of elements ended. -/
inductive SweepEnd where
  | all (s : State)
  | at_ (s : State) (e : Nat) (t : TrapInfo)
  | lost (s : State)

/-- The accesses of an element of TSWEEP: the sources, then the destination. -/
def sweepAccs (r : Iter) (code e : Nat) : List (Nat × Bool) :=
  if code == 8 then [(r.addr 1 e, false), (r.addr 0 e, true)]
  else [(r.addr 1 e, false), (r.addr 2 e, false), (r.addr 0 e, true)]

/-- Elements from e on, n of them, in ascending order (R148). The address in the record of a floating-point exception is A's,
which R148 leaves open (DESIGN CHOICE, log entry 53). (DEDUCED, log entry 39) -/
def sweepRun (k : IC) (r : Iter) (code : Nat) : Nat → Nat → State → SweepEnd
  | 0, _, s => .all s
  | n + 1, e, s =>
    match elemCheck k s r e (sweepAccs r code e) with
    | .bad t => .at_ s e t
    | .unknown vas => .at_ s e { cause := 6, sub := 1, fmask := laneSet [e % k.w.width], addr := vas.headD 0, elem := e }
    | .ok pas =>
      match elemRead k s r (r.addr 1 e) (pas.headD 0) with
      | none => .lost s
      | some (x, s1, px) =>
        match (if code == 8 then some (0, s1, false) else elemRead k s1 r (r.addr 2 e) (pas.getD 1 0)) with
        | none => .lost s1
        | some (y, s2, py) =>
          if px || py then .at_ s2 e (elemPois k e (if px then r.addr 1 e else r.addr 2 e))
          else
            let v := sweepOp code r.type k.x.ctl.mode.toNat x y
            if v.2.traps k.x.ctl.mode.toNat then
              .at_ s2 e { cause := 0x10, sub := v.2.sub, fmask := laneSet [e % k.w.width], addr := r.addr 1 e, elem := e }
            else sweepRun k r code n (e + 1) (elemStore k s2 r (pas.getLastD 0) v.1)

/-- Before a sweep whose stores leave the L1 each for its home, dirty lines that it touches are written back: a store takes its
line's dirty bytes with it, and a later element's sources are then served by the home. -/
def sweepDrain (k : IC) (s : State) (r : Iter) (pas : List Nat) : State :=
  if r.scope ≤ reachOf s k.core then s
  else ((pas.map (fun pa => 128 * lineOf pa)).eraseDups).foldl (fun s a =>
    writeBack s k.wid k.w.ctx (cacheOf s k.core a) (lineOf a)) s

/-- Word 7 with another PROGRESS. -/
def withProgress (r : Iter) (p : Nat) : W64 := w64 (setBits (r.word 7).toNat 63 32 p)

/-- The symbol s_a+7. -/
def progSym (k : IC) : Nat := sNum k k.u.a + 7

/-- TSWEEP (R147, R148). -/
def itSweep (k : IC) (s : State) : Eff :=
  let r := iterAt k
  let code := k.u.card
  let n := r.count
  let floatOk := !(isFltTy r.type && 5 ≤ code && code ≤ 7)
  if acqHeld k s then .wait s
  else if !r.valid || r.progress > n || !iterTys.contains r.type || !floatOk then .trap s { cause := 2, sub := 0 }
  else
    let es := (upto (n - r.progress)).map (fun i => r.progress + i)
    let p := prepass k s r (sweepAccs r code) es
    if p.1 != [] then .wait (startWalks s k.wid k.slotB k.core k.w.ctx k.x p.1)
    else
      let s0 := sweepDrain k s r p.2
      if linesBusy s0 k.core p.2 || p.2.any (fun pa => storeHeld k s0 [⟨0, 0, pa⟩] r.size) || !hasRoom k .load then .wait s0
      else match sweepRun k r code (n - r.progress) r.progress s0 with
      | .lost s1 => .set (replayFail s1 k.wid)
      | .at_ s1 e t => .trap (modWave s1 k.wid (fun w => putS w (progSym k) (withProgress r e))) t
      | .all s1 => .done (produce k s1 .load .s [progSym k] (.vals [] [(progSym k, withProgress r n)] [] [] [])).2

/-! TWALK (R149). -/

/-- Segment j's elements. -/
def segElems (n j : Nat) : List Nat :=
  let z := (n + 31) / 32
  (upto (min ((j + 1) * z) n - j * z)).map (fun i => j * z + i)

/-- One fold at 64 bits. -/
def foldOp (code t : Nat) (acc x : W64) : W64 :=
  match code with
  | 0 => acc + x
  | 1 => if isSigned t then (if acc.toInt ≤ x.toInt then acc else x) else (if acc.toNat ≤ x.toNat then acc else x)
  | 2 => if isSigned t then (if acc.toInt ≥ x.toInt then acc else x) else (if acc.toNat ≥ x.toNat then acc else x)
  | 3 => acc &&& x
  | 4 => acc ||| x
  | _ => acc ^^^ x

/-- The fold of a segment, which commits whole or not at all. -/
inductive SegEnd where
  | done (s : State) (acc : W64)
  | at_ (s : State) (t : TrapInfo)
  | lost (s : State)

def segRun (k : IC) (r : Iter) (code : Nat) : List Nat → State → W64 → SegEnd
  | [], s, acc => .done s acc
  | e :: rest, s, acc =>
    match elemCheck k s r e [(r.addr 1 e, false)] with
    | .bad t => .at_ s t
    | .unknown vas => .at_ s { cause := 6, sub := 1, fmask := laneSet [e % k.w.width], addr := vas.headD 0, elem := e }
    | .ok pas =>
      match elemRead k s r (r.addr 1 e) (pas.headD 0) with
      | none => .lost s
      | some (x, s1, px) =>
        if px then .at_ s1 (elemPois k e (r.addr 1 e))
        else segRun k r code rest s1 (foldOp code r.type acc (ext64 (isSigned r.type) (tyWidth r.type) x))

/-- How a walk ended: the fold so far and the segments done. -/
inductive WalkEnd where
  | all (s : State) (acc : W64)
  | at_ (s : State) (acc : W64) (prog : Nat) (t : TrapInfo)
  | lost (s : State)

def walkRun (k : IC) (r : Iter) (code : Nat) : List Nat → State → W64 → Nat → WalkEnd
  | [], s, acc, _ => .all s acc
  | j :: rest, s, acc, prog =>
    match segRun k r code (segElems r.count j) s acc with
    | .lost s1 => .lost s1
    | .at_ s1 t => .at_ s1 acc prog t
    | .done s1 a => walkRun k r code rest s1 a (prog ||| 2 ^ j)

/-- The segments that are done: those that PROGRESS records, and those without elements (R149). -/
def walkDone (r : Iter) : Nat :=
  (upto 32).foldl (fun p j => if (segElems r.count j).isEmpty then p ||| 2 ^ j else p) r.progress

/-- The segments that are not done, in the order of this walk (DESIGN CHOICE, log entry 13). -/
def walkSegs (r : Iter) (turn : Nat) : List Nat :=
  let js := (upto 32).filter (fun j => !bit (walkDone r) j)
  js.rotateLeft (turn % 32)

/-- TWALK (R149). -/
def itWalk (k : IC) (s0 : State) : Eff :=
  let r := iterAt k
  let code := k.u.card
  let d := sNum k k.u.d
  if acqHeld k s0 then .wait s0
  else if !r.valid || !iterTys.contains r.type || isFltTy r.type then .trap s0 { cause := 2, sub := 0 }
  else
    let js := walkSegs r (Config.walkOrder s0.fresh)
    let s := { s0 with fresh := s0.fresh + 1 }
    let p := prepass k s r (fun e => [(r.addr 1 e, false)]) (js.flatMap (segElems r.count))
    if p.1 != [] then .wait (startWalks s0 k.wid k.slotB k.core k.w.ctx k.x p.1)
    else if linesBusy s k.core p.2 || p.2.any (fun pa => storeHeld k s [⟨0, 0, pa⟩] r.size) || !hasRoom k .load then .wait s0
    else match walkRun k r code js s (scGet k.w d) (walkDone r) with
      | .lost s1 => .set (replayFail s1 k.wid)
      | .at_ s1 acc prog t =>
        .trap (modWave s1 k.wid (fun w => putS (putS w d acc) (progSym k) (withProgress r prog))) t
      | .all s1 acc =>
        .done (produce k s1 .load .s [d, progSym k]
          (.vals [] [(d, acc), (progSym k, withProgress r 0xFFFFFFFF)] [] [] [])).2

/-- The operands of the iterator words: whole records; s_a+7 is written. -/
def itOpsDef (u : UW) : List Opnd := [{ dS u with n := 8 }, { aS u with n := 8 }]
def itRec (u : UW) : Opnd := { aS u with n := 8 }
def itProg (u : UW) : Opnd := { field := 0, cls := .s, f := u.a + 7, wr := true }

/-- TIDEF, two words (R145, R146). -/
def execTidef (w : CW) (m : MemW) (s : State) : Out :=
  issueWord { u := uxw w m, ok := fun _ => ok65 (uxw w m), ops := fun _ => itOpsDef (uxw w m) } itDef s

/-- TSWEEP, two words (R147, R148). -/
def execTsweep (w : CW) (m : MemW) (s : State) : Out :=
  issueWord { u := uxw w m, ok := fun _ => ok66 (uxw w m), ops := fun _ => [itRec (uxw w m), itProg (uxw w m)] } itSweep s

/-- TWALK, two words (R149). -/
def execTwalk (w : CW) (m : MemW) (s : State) : Out :=
  issueWord { u := uxw w m, ok := fun _ => ok67 (uxw w m), ops := fun _ => [dSrw (uxw w m), itRec (uxw w m), { itProg (uxw w m) with field := 3 }] } itWalk s

end Sys2Proof.Machine
end

