-- ==== Sys2Proof/Machine/Special.lean ====
section
/-! DEFINITION. The special-function words of class 2 (R134 to R136, R235). -/

namespace Sys2Proof.Machine

/-- A special-function word issues with the MODE in force (R52, R134); with no lane live it completes at once (R332). -/
def sfIssue (fn : Nat) (k : IC) (s : State) : Eff :=
  if k.live == 0 then noLanes k .special s
  else if !hasRoom k .special then .wait s
  else
    let d := vNum k k.u.d
    let lanes := (lanesOf k.live).map (fun l => (l, veGet k.w (vNum k k.u.a) l))
    .done (produce k s .special .v [d] (.sfu fn d lanes k.x.ctl.mode (rmK k))).2

/-- The result of a special-function operation in one lane. -/
def sfLane (fn rm : Nat) (mode x : W32) : Nat × Exc := sfuEval fn rm (bit mode.toNat 4) (bit mode.toNat 3) x

/-- SPECIAL_FUNCTION_RESULT (R134, R235): the results are written; where an enabled exception is raised the destination
keeps its value and the wave traps before its next word. A block that is away receives them once restored (R256). -/
def execSpecialFunctionResult (op : Nat) (s : State) : Out :=
  match tget s.ops op with
  | some ⟨wid, _, orig, _, .sfu fn d lanes mode rm⟩ =>
    if awayWave s wid then .next s else
    let bad := lanes.filter (fun e => (sfLane fn rm mode e.2).2.traps mode.toNat)
    match bad with
    | [] => .next (modWave (endOp s op) wid (fun w =>
        putV w false d (laneSet (lanes.map (·.1))) (fun l => (sfLane fn rm mode (tgetD lanes l 0)).1)))
    | e :: _ => .next (modWave (endOp s op) wid (fun w => { w with
        defer := w.defer ++ [{ cause := 0x10, sub := (sfLane fn rm mode e.2).2.sub, orig := orig, fmask := laneSet (bad.map (·.1)),
                               src0 := w64 e.2.toNat }] }))
  | _ => .next s

/-- VEX2, one word (R134 to R136). -/
def execVex2 (w : CW) (s : State) : Out :=
  issueWord { u := ucw w, ok := fun _ => ok50 (ucw w), ops := fun _ => [dV (ucw w) 1, aV (ucw w) 1], lanes := true, always := [0] } (sfIssue 0) s

/-- VEX2_LONG, two words (R134 to R136). -/
def execVex2Long (w : CW) (m : ModW) (s : State) : Out :=
  issueWord { u := umw w m, ok := fun _ => ok50 (umw w m), ops := fun _ => [dV (umw w m) 1, aV (umw w m) 1], lanes := true, always := [0] } (sfIssue 0) s

/-- VLG2, one word (R134 to R136). -/
def execVlg2 (w : CW) (s : State) : Out :=
  issueWord { u := ucw w, ok := fun _ => ok50 (ucw w), ops := fun _ => [dV (ucw w) 1, aV (ucw w) 1], lanes := true, always := [0] } (sfIssue 1) s

/-- VLG2_LONG, two words (R134 to R136). -/
def execVlg2Long (w : CW) (m : ModW) (s : State) : Out :=
  issueWord { u := umw w m, ok := fun _ => ok50 (umw w m), ops := fun _ => [dV (umw w m) 1, aV (umw w m) 1], lanes := true, always := [0] } (sfIssue 1) s

/-- VRCP, one word (R134 to R136). -/
def execVrcp (w : CW) (s : State) : Out :=
  issueWord { u := ucw w, ok := fun _ => ok51 (ucw w), ops := fun _ => [dV (ucw w) 1, aV (ucw w) 1], lanes := true, always := [0] } (sfIssue 2) s

/-- VRCP_LONG, two words (R134 to R136). -/
def execVrcpLong (w : CW) (m : ModW) (s : State) : Out :=
  issueWord { u := umw w m, ok := fun _ => ok51 (umw w m), ops := fun _ => [dV (umw w m) 1, aV (umw w m) 1], lanes := true, always := [0] } (sfIssue 2) s

/-- VRSQ, one word (R134 to R136). -/
def execVrsq (w : CW) (s : State) : Out :=
  issueWord { u := ucw w, ok := fun _ => ok51 (ucw w), ops := fun _ => [dV (ucw w) 1, aV (ucw w) 1], lanes := true, always := [0] } (sfIssue 3) s

/-- VRSQ_LONG, two words (R134 to R136). -/
def execVrsqLong (w : CW) (m : ModW) (s : State) : Out :=
  issueWord { u := umw w m, ok := fun _ => ok51 (umw w m), ops := fun _ => [dV (umw w m) 1, aV (umw w m) 1], lanes := true, always := [0] } (sfIssue 3) s

/-- VSQRT, one word (R134 to R136). -/
def execVsqrt (w : CW) (s : State) : Out :=
  issueWord { u := ucw w, ok := fun _ => ok51 (ucw w), ops := fun _ => [dV (ucw w) 1, aV (ucw w) 1], lanes := true, always := [0] } (sfIssue 4) s

/-- VSQRT_LONG, two words (R134 to R136). -/
def execVsqrtLong (w : CW) (m : ModW) (s : State) : Out :=
  issueWord { u := umw w m, ok := fun _ => ok51 (umw w m), ops := fun _ => [dV (umw w m) 1, aV (umw w m) 1], lanes := true, always := [0] } (sfIssue 4) s

/-- VSIN, one word (R134 to R136). -/
def execVsin (w : CW) (s : State) : Out :=
  issueWord { u := ucw w, ok := fun _ => ok50 (ucw w), ops := fun _ => [dV (ucw w) 1, aV (ucw w) 1], lanes := true, always := [0] } (sfIssue 5) s

/-- VSIN_LONG, two words (R134 to R136). -/
def execVsinLong (w : CW) (m : ModW) (s : State) : Out :=
  issueWord { u := umw w m, ok := fun _ => ok50 (umw w m), ops := fun _ => [dV (umw w m) 1, aV (umw w m) 1], lanes := true, always := [0] } (sfIssue 5) s

/-- VCOS, one word (R134 to R136). -/
def execVcos (w : CW) (s : State) : Out :=
  issueWord { u := ucw w, ok := fun _ => ok50 (ucw w), ops := fun _ => [dV (ucw w) 1, aV (ucw w) 1], lanes := true, always := [0] } (sfIssue 6) s

/-- VCOS_LONG, two words (R134 to R136). -/
def execVcosLong (w : CW) (m : ModW) (s : State) : Out :=
  issueWord { u := umw w m, ok := fun _ => ok50 (umw w m), ops := fun _ => [dV (umw w m) 1, aV (umw w m) 1], lanes := true, always := [0] } (sfIssue 6) s

/-- VTANH, one word (R134 to R136). -/
def execVtanh (w : CW) (s : State) : Out :=
  issueWord { u := ucw w, ok := fun _ => ok50 (ucw w), ops := fun _ => [dV (ucw w) 1, aV (ucw w) 1], lanes := true, always := [0] } (sfIssue 7) s

/-- VTANH_LONG, two words (R134 to R136). -/
def execVtanhLong (w : CW) (m : ModW) (s : State) : Out :=
  issueWord { u := umw w m, ok := fun _ => ok50 (umw w m), ops := fun _ => [dV (umw w m) 1, aV (umw w m) 1], lanes := true, always := [0] } (sfIssue 7) s

end Sys2Proof.Machine
end

