-- ==== Sys2Proof/Machine/System.lean ====
section
/-! DEFINITION. The system words: traps and breakpoints, the handler's view of its parked wave, system registers, the
reference counter, samples, signals (R49, R50, R52, R220 to R228, R352). -/

namespace Sys2Proof.Machine

/-! TRAP and BKPT (R220). -/

def syTrap (k : IC) (s : State) : Eff := .trap s { cause := 0x11, sub := k.u.imm }

/-- The core's debug window makes stops of a context's breakpoints (R220, R321, R322). -/
def bkptStops (s : State) (core ctx : Nat) : Bool :=
  let d := (coreOf s core).dbg
  (ctxOf s ctx).dbg && d.bkstop && d.ctx == ctx

/-- A context's stop is asked for, once. -/
def askStop (stops : List Nat) (ctx : Nat) : List Nat := if stops.contains ctx then stops else stops ++ [ctx]

/-- BKPT: a trap, or a stop of the core, which issues nothing more until it takes effect (R220, R323). -/
def syBkpt (k : IC) (s : State) : Eff :=
  if bkptStops s k.core k.w.ctx then
    .done (modCore s k.core (fun c => { c with dbg := { c.dbg with stops := askStop c.dbg.stops k.w.ctx, frozen := true } }))
  else .trap s { cause := 0x12, sub := k.u.imm }

/-! The parked wave (R221 to R224, R238). -/

/-- The parked wave of a handler and its trap. -/
def parkedOf (k : IC) (s : State) : Option (Nat × Wave × Trap) :=
  k.w.parent.bind (fun p => (tget s.waves p).bind (fun w => w.trap.map (fun t => (p, w, t))))

/-- TREC (R222). -/
def syTrec (k : IC) (s : State) : Eff :=
  .done (setD k s ((parkedOf k s).elim 0 (fun p => p.2.2.words.getD k.u.a 0)))

/-- The fields of a selector (R223). -/
structure Sel where
  tov : Bool
  lane : Nat
  cls : Nat
  num : Nat
deriving DecidableEq, Repr

def selOf (x : Nat) : Sel := ⟨bit x 22, bits x 21 16, bits x 13 12, bits x 11 0⟩

/-- The reserved-field checks of a selector. (DEDUCED, log entry 39) -/
def selReserved (width : Nat) (q : Sel) : Bool :=
  q.cls == 3 || (q.cls == 2 && q.num > 31) || (q.tov && q.cls != 0) || (q.cls == 0 && !q.tov && q.lane ≥ width)

/-- The class of a selector. -/
def selCls (q : Sel) : SymCls := if q.cls == 0 then .v else if q.cls == 1 then .s else .p

/-- The value of a selected lane, scalar or predicate of a wave. -/
def selGet (w : Wave) (q : Sel) : W64 :=
  if q.cls == 0 then w64 (veGet w q.num q.lane).toNat
  else if q.cls == 1 then scGet w q.num
  else prGet w q.num &&& allLanes w.width

/-- A selected lane, scalar or predicate of a wave written. -/
def selPut (w : Wave) (q : Sel) (v : W64) : Wave :=
  if q.cls == 0 then vePut w q.num (laneSet [q.lane]) (fun _ => w32 v.toNat)
  else if q.cls == 1 then putS w q.num v
  else prPut w q.num (allLanes w.width) v

/-- XGET and XSET: the selector's checks, the handler's operand, the parked symbol; then the move. -/
def selThen (k : IC) (s : State) (wr : Bool) (own : Sel → List Opnd) (move : Nat → Wave → Sel → Eff) : Eff :=
  match parkedOf k s with
  | none => .done s
  | some (pid, p, _) =>
    let q := selOf (sVal k k.u.a).toNat
    let ops := own q
    if selReserved p.width q then .trap s { cause := 2, sub := 0 }
    else if !((blockOf s p).elim false (fun b => declared s b (selCls q) q.num)) then .trap s { cause := 4, sub := 1 }
    else match boundTrap s k.b k.x ops with
      | some t => .trap s t
      | none => match emptyCheck k.b k.wid k.w k.x false ops with
        | .waits => .wait s
        | .traps t => .trap s t
        | .full => match poisonRead k.b k.w k.x ops with
          | some m => .trap s (poisonTrap m)
          | none =>
            if isEmpty p (selCls q) q.num then
              (if emptyTrap k.x then .trap s { cause := 5, sub := if wr then 1 else 0 } else .wait s)
            else match (if wr then none else p.pois.find? (fun m => m.cls == selCls q && m.num == q.num)) with
              | some m => .trap s (poisonTrap m)
              | none => move pid p q

/-- The destination of XGET, a vector or a scalar as its selector says (R223, R231). -/
def xgDest (u : UW) (w : Wave) (x : Slot) : Option Opnd :=
  some (if (selOf (scGet w (opNum x (aS u))).toNat).tov then dV u 1 else dS u)

/-- XGET (R223). (DEDUCED, log entry 46) -/
def syXget (k : IC) (s : State) : Eff :=
  selThen k s false (fun q => if q.tov then [dV k.u 1] else [dS k.u]) (fun _ p q =>
    if q.tov then .done (modWave s k.wid (fun w =>
      putV w false (vNum k k.u.d) (allLanes w.width) (fun l => (veGet p q.num l).toNat)))
    else .done (setD k s (selGet p q)))

/-- XSET (R223). -/
def syXset (k : IC) (s : State) : Eff :=
  selThen k s true (fun q => if q.tov then [bV k.u 1] else [bS k.u]) (fun pid _ q =>
    .done (modWave s pid (fun p =>
      if q.tov then putV p false q.num (allLanes p.width) (fun l => (veGet k.w (vNum k k.u.b) l).toNat)
      else selPut p q (sVal k k.u.b))))

/-- ERESUME in a mode, once the handler's counters are 0 (R224). -/
def resumeIn (k : IC) (s : State) (r : Resume) : Eff :=
  match parkedOf k s with
  | none => .done s
  | some (pid, _, _) => if cntZero k.w.cnt then .set (resumeWave s k.wid pid r) else .wait s

/-- A target of ERESUME (R104, R224). -/
def resumeTo (k : IC) (s : State) (t : Int) : Eff :=
  if t % 4 != 0 then .trap s { cause := 8, sub := 1, addr := wrapI 64 t }
  else match jumpTo s t with
    | .jump s pc => resumeIn k s (.jump pc)
    | e => e

def syRetry (k : IC) (s : State) : Eff := resumeIn k s .retry
def sySkip (k : IC) (s : State) : Eff :=
  if (parkedOf k s).elim true (fun p => skipOk p.2.2) then resumeIn k s .skip else .trap s { cause := 2, sub := 0 }
def syJmp (k : IC) (s : State) : Eff := resumeTo k s (sVal k k.u.a).toNat
def syRel (k : IC) (s : State) : Eff :=
  resumeTo k s ((parkedOf k s).elim 0 (fun p => (wordAddr (slotOf p.2.1 p.2.2.slotB) : Int)) + 4 * immS k.u)

/-! System registers (R49, R50, R225). -/

/-- A register of 64 bits. -/
def srWide (n : Nat) : Bool := n == 0x10 || n == 0x18
/-- A register with a value per lane. -/
def srLane (n : Nat) : Bool := n == 0 || n == 0x19
/-- A register that SETSR writes. -/
def srWrites (n : Nat) : Bool := n == 9 || n == 10 || n == 11 || n == 12 || n == 0x19
/-- A register whose read is logged (R394). -/
def srLogged (n : Nat) : Bool := n == 3 || n == 4 || n == 0x18 || n == 0x1A || n == 0x11

/-- ACC_OWNER of a quad symbol (R49). -/
def accOwner (k : IC) (s : State) (q : Nat) : Nat :=
  match quadPhys k.b q with
  | none => k.w.ctx
  | some p => match (tgetD (ropeOf s (ropeOfCore k.core)).quads p {}).owner with
    | none => 0x80
    | some c => c

/-- The value of a wave's or slot's register. (DEDUCED, log entry 36) -/
def srVal (k : IC) (s : State) (n : Nat) : W64 :=
  match n with
  | 1 => w64 k.w.idx
  | 2 => w64 k.b.idx
  | 3 => w64 (ropeOfCore k.core)
  | 4 => w64 (stackOfCore k.core)
  | 5 => w64 s.dev.devnum.toNat
  | 6 => w64 k.w.ctx
  | 8 => w64 k.w.width
  | 9 => w64 k.x.ctl.mode.toNat
  | 10 => w64 k.x.ctl.winV.toNat
  | 11 => w64 k.x.ctl.winS.toNat
  | 12 => w64 k.x.ctl.winQ.toNat
  | 0x10 => k.w.gang
  | 0x11 => w64 (accOwner k s (qNum k k.u.b))
  | 0x18 => w64 (waveClock s k.w k.core)
  | _ => w64 (ctxOf s k.w.ctx).policy.toNat

/-- The lane value of LANE or SEED. -/
def srLaneVal (k : IC) (s : State) (n l : Nat) : W32 := if n == 0 then w32 l else seedGet k s l

/-- A vector destination of GETSR: b = 1, ACC_OWNER apart. -/
def srVec (u : UW) : Bool := u.a != 0x11 && u.b == 1
def getsrOps (u : UW) : List Opnd :=
  if u.a == 0x11 then [dS u, { field := 2, cls := .q, f := u.b }]
  else if srVec u then [dV u (if srWide u.a then 2 else 1)] else [dS u]

/-- GETSR (R225). -/
def syGetsr (k : IC) (s : State) : Eff :=
  let n := k.u.a
  let give := fun (s : State) (v : W64) =>
    if srVec k.u then Eff.done (setV k s (srWide n) (fun _ => v.toNat)) else Eff.done (setD k s v)
  if srLane n then
    if srVec k.u then .done (setV k s false (fun l => (srLaneVal k s n l).toNat))
    else .done (setD k s (w64 (srLaneVal k s n (lowLane k.live)).toNat))
  else if srLogged n then receiveW k (if n == 0x18 then sawTime s k.wid (waveClock s k.w k.core) else s) 4 (srVal k s n) give
  else give s (srVal k s n)

def setsrOps (u : UW) : List Opnd := if u.d == 1 then [bV u 1] else [bS u]

/-- SETSR (R50, R52, R225). -/
def sySetsr (k : IC) (s : State) : Eff :=
  let n := k.u.a
  let v := (sVal k k.u.b).toNat
  let win := fun (cls top : Nat) => if v > top then Eff.trap s { cause := 2, sub := 0 } else .done (setCtl k s (setWin cls v))
  if !srWrites n then .trap s { cause := 7, sub := 5 }
  else if n == 9 then
    if modeOk (v % 2 ^ 32) then .done (setCtl k s (fun c => { c with mode := w32 v })) else .trap s { cause := 2, sub := 0 }
  else if n == 10 then win 0 31
  else if n == 11 then win 1 31
  else if n == 12 then win 2 1
  else .done (seedPut k s (fun l => if k.u.d == 1 then veGet k.w (vNum k k.u.b) l else w32 v))

/-! TIME, SAMPLE, HOSTSIG (R226 to R228). -/

/-- TIME (R226). -/
def syTime (k : IC) (s : State) : Eff :=
  let v := waveClock s k.w k.core
  if memBusy s k.wid || ownOwed s k.wid then .wait s
  else receiveW k (sawTime s k.wid v) 4 (w64 v) (fun s v => .done (setD k s v))

/-- SAMPLE and SAMPLE.mark, whose record has the counter as the wave reads it (R18, R227, R393). -/
def sySample (k : IC) (s : State) : Eff :=
  let tag := BitVec.ofNat 16 (sVal k k.u.a).toNat
  if (ctxOf s k.w.ctx).speriod == 0 then .done s
  else if bit k.u.card 0 then
    let now := waveClock s k.w k.core
    .done (samplePush (sawTime s k.wid now) k.w.ctx (cairnWords 2 k.w.ctx tag k.b.idx k.b.var.image (imgOff k.b.var (wordAddr k.x))
      k.w.idx (ropeOf s (ropeOfCore k.core)).point k.slotB false now 0))
  else .done (modWave s k.wid (fun w => { w with tag := some tag }))

/-- The words of a signal (R352). -/
def sigWords (b : Block) (w : Wave) (n : Nat) (v : W64) : List W64 := [v, w64 (b.idx * 2 ^ 32 + w.idx * 2 ^ 28 + n)]

/-- A signal written into the queue, and its interrupt; none when the slot cannot be written. -/
def putSignal (s : State) (ctx : Nat) (ws : List W64) : Option State :=
  let r := (ctxOf s ctx).sigq
  (devWrite s ctx (ringSlot r 16) ws).map (fun p =>
    raiseIrq (modCtx p.1 ctx (fun c => { c with sigq := ringPush s.now r 1 p.2 })) ctx 2 p.2)

/-- The trap of a slot that cannot be written (R352). (DEDUCED, log entry 51) -/
def sigTrap (s : State) (ctx : Nat) : TrapInfo :=
  let va := ringSlot (ctxOf s ctx).sigq 16
  match devXlat s ctx va true with
  | .error e => { cause := e.1, sub := e.2, addr := va, kind := 2 }
  | .ok _ => { cause := 6, sub := 1, addr := va, kind := 2 }

/-- The signal that the slot's HOSTSIG waits to post. -/
def sigWaits (s : State) (wid : Nat) (slotB : Bool) : Bool :=
  anyOp s wid (fun b => match b with | .hostsig x => x == slotB | _ => false)

/-- The word of a slot waits for a place in the signal queue; it counts in no counter. (DEDUCED, log entry 51) -/
def holdSignal (k : IC) (s : State) : State :=
  { s with ops := tput s.ops s.nextId ⟨k.wid, .special, originK k, s.now, .hostsig k.slotB⟩,
           nextId := s.nextId + 1 }

/-- HOSTSIG (R228): the release side, then the entry; with the queue full the word waits. (DEDUCED, log entry 51) -/
def syHostsig (k : IC) (s : State) : Eff :=
  let v := sVal k k.u.a
  if acqHeld' s k.x || sigWaits s k.wid k.slotB then .wait s
  else release 7 k s (fun s =>
    if ringFull (ctxOf s k.w.ctx).sigq then .wait (holdSignal k s)
    else match putSignal s k.w.ctx (sigWords k.b k.w k.u.imm v) with
      | some s1 => .done s1
      | none => .trap s (sigTrap s k.w.ctx))
where
  /-- An acquire of the slot is not done (R155). -/
  acqHeld' (s : State) (x : Slot) : Bool := x.acq.any (fun id => (tget s.ops id).isSome)

/-- TRAP, one word (R220). -/
def execTrap (w : IW) (s : State) : Out :=
  issueWord { u := uiw w, ok := fun _ => ok22 (uiw w) } syTrap s

/-- BKPT, one word (R220). -/
def execBkpt (w : IW) (s : State) : Out :=
  issueWord { u := uiw w, ok := fun _ => ok22 (uiw w) } syBkpt s

/-- TREC, one word (R221, R222). -/
def execTrec (w : CW) (s : State) : Out :=
  issueWord { u := ucw w, ok := fun _ => ok85 (ucw w), ops := fun _ => [dS (ucw w)], hOnly := true } syTrec s

/-- TREC_LONG, two words (R221, R222). -/
def execTrecLong (w : CW) (m : ModW) (s : State) : Out :=
  issueWord { u := umw w m, ok := fun _ => ok85 (umw w m), ops := fun _ => [dS (umw w m)], hOnly := true } syTrec s

/-- XGET, one word (R221, R223). -/
def execXget (w : CW) (s : State) : Out :=
  issueWord { u := ucw w, ok := fun _ => ok82 (ucw w), ops := fun _ => [aS (ucw w)], hOnly := true, dest := xgDest (ucw w) } syXget s

/-- XGET_LONG, two words (R221, R223). -/
def execXgetLong (w : CW) (m : ModW) (s : State) : Out :=
  issueWord { u := umw w m, ok := fun _ => ok82 (umw w m), ops := fun _ => [aS (umw w m)], hOnly := true, dest := xgDest (umw w m) } syXget s

/-- XSET, one word (R221, R223). -/
def execXset (w : CW) (s : State) : Out :=
  issueWord { u := ucw w, ok := fun _ => ok86 (ucw w), ops := fun _ => [aS (ucw w)], hOnly := true } syXset s

/-- XSET_LONG, two words (R221, R223). -/
def execXsetLong (w : CW) (m : ModW) (s : State) : Out :=
  issueWord { u := umw w m, ok := fun _ => ok86 (umw w m), ops := fun _ => [aS (umw w m)], hOnly := true } syXset s

/-- ERESUME_RETRY, one word (R221, R224). -/
def execEresumeRetry (w : CW) (s : State) : Out :=
  issueWord { u := ucw w, ok := fun _ => ok0 (ucw w), hOnly := true, last := true } syRetry s

/-- ERESUME_SKIP, one word (R221, R224). -/
def execEresumeSkip (w : CW) (s : State) : Out :=
  issueWord { u := ucw w, ok := fun _ => ok87 (ucw w), hOnly := true, last := true } sySkip s

/-- ERESUME_JMP, one word (R221, R224). -/
def execEresumeJmp (w : CW) (s : State) : Out :=
  issueWord { u := ucw w, ok := fun _ => ok88 (ucw w), ops := fun _ => [aS (ucw w)], hOnly := true, last := true } syJmp s

/-- ERESUME_REL, two words (R221, R224). -/
def execEresumeRel (w : CW) (x : XW) (s : State) : Out :=
  issueWord { u := uiw2 w x, ok := fun _ => ok89 (uiw2 w x), hOnly := true, last := true } syRel s

/-- GETSR, one word (R49, R225). -/
def execGetsr (w : CW) (s : State) : Out :=
  issueWord { u := ucw w, ok := fun _ => ok90 (ucw w), ops := fun _ => getsrOps (ucw w) } syGetsr s

/-- SETSR, one word (R50, R225). -/
def execSetsr (w : CW) (s : State) : Out :=
  issueWord { u := ucw w, ok := fun _ => ok91 (ucw w), ops := fun _ => setsrOps (ucw w) } sySetsr s

/-- TIME, one word (R226). -/
def execTime (w : CW) (s : State) : Out :=
  issueWord { u := ucw w, ok := fun _ => ok83 (ucw w), ops := fun _ => [dS (ucw w)] } syTime s

/-- SAMPLE, one word (R227). -/
def execSample (w : CW) (s : State) : Out :=
  issueWord { u := ucw w, ok := fun _ => ok16 (ucw w), ops := fun _ => [aS (ucw w)], tags := true } sySample s

/-- SAMPLE_MARK, two words (R227). -/
def execSampleMark (w : CW) (m : ModW) (s : State) : Out :=
  issueWord { u := umw w m, ok := fun _ => ok92 (umw w m), ops := fun _ => [aS (umw w m)], tags := !(bit ((umw w m)).card 0) } sySample s

/-- HOSTSIG, one word (R228). -/
def execHostsig (w : IW) (s : State) : Out :=
  issueWord { u := uiw w, ok := fun _ => ok93 (uiw w), ops := fun _ => [aS (uiw w)] } syHostsig s

/-- HOSTSIG_LONG, two words (R228). -/
def execHostsigLong (w : CW) (x : XW) (s : State) : Out :=
  issueWord { u := uiw2 w x, ok := fun _ => ok94 (uiw2 w x), ops := fun _ => [aS (uiw2 w x)] } syHostsig s

/-- HOSTSIG_ENQUEUE (R228): the queue has room for a signal whose word waits at issue, and the word issues: its guard, its operand and a
trap that the wave owes are met as at any issue. A slot that no longer stands at the word drops the signal. (DEDUCED, log entry 51) -/
def execHostsigEnqueue (op : Nat) (s : State) : Out :=
  match tget s.ops op with
  | none => .next s
  | some o =>
    match o.body, tget s.waves o.wid with
    | .hostsig slotB, some w =>
      match blockOf s w with
      | none => .next s
      | some b =>
        let x := slotOf w slotB
        let s0 := { s with ops := tdel s.ops op }
        if !x.inClause || originOf b w (wordAddr x) != o.orig then .next s0
        else if ringFull (ctxOf s w.ctx).sigq || !waveRuns s o.wid w b || !slotRuns x then .next s
        else
          let w1 := rawWord x x.idx
          let t := { s0 with cur := some ⟨o.wid, slotB⟩ }
          if isTwo w1 then execHostsigLong (cwOf w1) (xwOf (rawWord x (x.idx + 1))) t else execHostsig (iwOf w1) t
    | _, _ => .next s

end Sys2Proof.Machine
end

