-- ==== Sys2Proof/Machine/Views.lean ====
section
/-! DEFINITION. What a debug dump says of a word that has not issued: its operands, chosen by class and opcode as the
meanings name them, and whether one of them is empty (R326). -/

namespace Sys2Proof.Machine

/-- How a word reads its operands: per lane with the fields it always reads, for the whole wave, or at the matrix engine,
ganged or not. -/
inductive ViewKind where
  | lane (always : List Nat)
  | wave
  | mat (gang : Bool)
deriving DecidableEq, Repr

/-- A word's fields and operands. -/
structure View where
  u : UW
  kind : ViewKind
  ops : Nat → UW → List Opnd

/-- The words of class 0 that have operands. -/
def view0 (w1 w2 : W32) : Option View :=
  match (opOf w1).toNat with
  | 2 => some ⟨ucw (cwOf w1), .wave, fun _ u => sDAB u⟩
  | 3 => some ⟨umw (cwOf w1) (modOf w2), .wave, fun _ u => sDAB u⟩
  | 4 => some ⟨uiw (iwOf w1), .wave, fun _ u => sDA u⟩
  | 5 => some ⟨uiw2 (cwOf w1) (xwOf w2), .wave, fun _ u => sDA u⟩
  | 6 => some ⟨ucw (cwOf w1), .wave, fun _ u => sDAB u⟩
  | 7 => some ⟨umw (cwOf w1) (modOf w2), .wave, fun _ u => sDAB u⟩
  | 8 => some ⟨ucw (cwOf w1), .wave, fun _ u => sDAB u⟩
  | 9 => some ⟨umw (cwOf w1) (modOf w2), .wave, fun _ u => sDAB u⟩
  | 10 => some ⟨ucw (cwOf w1), .wave, fun _ u => sDAB u⟩
  | 11 => some ⟨umw (cwOf w1) (modOf w2), .wave, fun _ u => sDAB u⟩
  | 12 => some ⟨ucw (cwOf w1), .wave, fun _ u => sDAB u⟩
  | 13 => some ⟨umw (cwOf w1) (modOf w2), .wave, fun _ u => sDAB u⟩
  | 14 => some ⟨ucw (cwOf w1), .wave, fun _ u => sDAB u⟩
  | 15 => some ⟨umw (cwOf w1) (modOf w2), .wave, fun _ u => sDAB u⟩
  | 16 => some ⟨ucw (cwOf w1), .wave, fun _ u => sDAB u⟩
  | 17 => some ⟨umw (cwOf w1) (modOf w2), .wave, fun _ u => sDAB u⟩
  | 18 => some ⟨uiw (iwOf w1), .wave, fun _ u => sDA u⟩
  | 19 => some ⟨uiw2 (cwOf w1) (xwOf w2), .wave, fun _ u => sDA u⟩
  | 20 => some ⟨ucw (cwOf w1), .wave, fun _ u => sDAB u⟩
  | 21 => some ⟨umw (cwOf w1) (modOf w2), .wave, fun _ u => sDAB u⟩
  | 22 => some ⟨uiw (iwOf w1), .wave, fun _ u => sDA u⟩
  | 23 => some ⟨uiw2 (cwOf w1) (xwOf w2), .wave, fun _ u => sDA u⟩
  | 24 => some ⟨ucw (cwOf w1), .wave, fun _ u => sDAB u⟩
  | 25 => some ⟨umw (cwOf w1) (modOf w2), .wave, fun _ u => sDAB u⟩
  | 26 => some ⟨uiw (iwOf w1), .wave, fun _ u => sDA u⟩
  | 27 => some ⟨uiw2 (cwOf w1) (xwOf w2), .wave, fun _ u => sDA u⟩
  | 28 => some ⟨ucw (cwOf w1), .wave, fun _ u => sDAB u⟩
  | 29 => some ⟨umw (cwOf w1) (modOf w2), .wave, fun _ u => sDAB u⟩
  | 30 => some ⟨uiw (iwOf w1), .wave, fun _ u => sDA u⟩
  | 31 => some ⟨uiw2 (cwOf w1) (xwOf w2), .wave, fun _ u => sDA u⟩
  | 32 => some ⟨ucw (cwOf w1), .wave, fun _ u => sDAB u⟩
  | 33 => some ⟨umw (cwOf w1) (modOf w2), .wave, fun _ u => sDAB u⟩
  | 34 => some ⟨uiw (iwOf w1), .wave, fun _ u => sDA u⟩
  | 35 => some ⟨uiw2 (cwOf w1) (xwOf w2), .wave, fun _ u => sDA u⟩
  | 36 => some ⟨ucw (cwOf w1), .wave, fun _ u => sDAB u⟩
  | 37 => some ⟨umw (cwOf w1) (modOf w2), .wave, fun _ u => sDAB u⟩
  | 38 => some ⟨uiw (iwOf w1), .wave, fun _ u => sDA u⟩
  | 39 => some ⟨uiw2 (cwOf w1) (xwOf w2), .wave, fun _ u => sDA u⟩
  | 40 => some ⟨ucw (cwOf w1), .wave, fun _ u => sDAB u⟩
  | 41 => some ⟨umw (cwOf w1) (modOf w2), .wave, fun _ u => sDAB u⟩
  | 42 => some ⟨ucw (cwOf w1), .wave, fun _ u => sDAB u⟩
  | 43 => some ⟨umw (cwOf w1) (modOf w2), .wave, fun _ u => sDAB u⟩
  | 44 => some ⟨ucw (cwOf w1), .wave, fun _ u => sAB u⟩
  | 45 => some ⟨umw (cwOf w1) (modOf w2), .wave, fun _ u => sAB u⟩
  | 46 => some ⟨uiw (iwOf w1), .wave, fun _ u => sA u⟩
  | 47 => some ⟨uiw2 (cwOf w1) (xwOf w2), .wave, fun _ u => sA u⟩
  | 48 => some ⟨ucw (cwOf w1), .wave, fun _ u => sDAB u⟩
  | 49 => some ⟨umw (cwOf w1) (modOf w2), .wave, fun _ u => sDAB u⟩
  | 50 => some ⟨ucw (cwOf w1), .wave, fun _ u => sDA u⟩
  | 52 => some ⟨uiw (iwOf w1), .wave, fun _ u => sD u⟩
  | 53 => some ⟨uiw2 (cwOf w1) (xwOf w2), .wave, fun _ u => sD u⟩
  | 54 => some ⟨uiw (iwOf w1), .wave, fun _ u => sDA u⟩
  | 55 => some ⟨uiw2 (cwOf w1) (xwOf w2), .wave, fun _ u => sDA u⟩
  | 56 => some ⟨ucw (cwOf w1), .wave, fun _ u => sDA u⟩
  | 57 => some ⟨umw (cwOf w1) (modOf w2), .wave, fun _ u => sDA u⟩
  | 58 => some ⟨ucw (cwOf w1), .wave, fun _ u => sDA u⟩
  | 59 => some ⟨umw (cwOf w1) (modOf w2), .wave, fun _ u => sDA u⟩
  | 60 => some ⟨ucw (cwOf w1), .wave, fun _ u => sDAB u⟩
  | 61 => some ⟨umw (cwOf w1) (modOf w2), .wave, fun _ u => sDAB u⟩
  | 62 => some ⟨ucw (cwOf w1), .wave, fun _ u => [dSrw u, aS u, bS u]⟩
  | 63 => some ⟨umw (cwOf w1) (modOf w2), .wave, fun _ u => [dSrw u, aS u, bS u]⟩
  | 64 => some ⟨uiw (iwOf w1), .wave, fun _ u => sD u⟩
  | 65 => some ⟨uiw2 (cwOf w1) (xwOf w2), .wave, fun _ u => sD u⟩
  | 70 => some ⟨uiw (iwOf w1), .wave, fun _ u => sD u⟩
  | 71 => some ⟨uiw2 (cwOf w1) (xwOf w2), .wave, fun _ u => sD u⟩
  | 72 => some ⟨ucw (cwOf w1), .wave, fun _ u => sA u⟩
  | 80 => some ⟨ucw (cwOf w1), .wave, fun _ u => (if (u).b == 1 then sA u else [])⟩
  | 96 => some ⟨ucw (cwOf w1), .wave, fun _ u => sA u⟩
  | 98 => some ⟨ucw (cwOf w1), .wave, fun _ u => [aBar u]⟩
  | 100 => some ⟨ucw (cwOf w1), .wave, fun _ u => [aBar u]⟩
  | 102 => some ⟨ucw (cwOf w1), .wave, fun _ u => [aBar u]⟩
  | 104 => some ⟨ucw (cwOf w1), .wave, fun _ u => [aBar u]⟩
  | 106 => some ⟨ucw (cwOf w1), .wave, fun _ u => [dP u, aP u, bP u]⟩
  | 108 => some ⟨ucw (cwOf w1), .wave, fun _ u => [dP u, aP u, bP u]⟩
  | 110 => some ⟨ucw (cwOf w1), .wave, fun _ u => [dP u, aP u, bP u]⟩
  | 112 => some ⟨ucw (cwOf w1), .wave, fun _ u => [dP u, aP u]⟩
  | 114 => some ⟨ucw (cwOf w1), .wave, fun _ u => [dP u, aP u]⟩
  | 116 => some ⟨ucw (cwOf w1), .wave, fun _ u => [dS u, aP u]⟩
  | 118 => some ⟨ucw (cwOf w1), .wave, fun _ u => [dP u, aS u]⟩
  | _ => none

/-- The words of class 1 that have operands. -/
def view1 (w1 w2 : W32) : Option View :=
  match (opOf w1).toNat with
  | 0 => some ⟨ucw (cwOf w1), .lane [], fun _ u => vDAB 5 u⟩
  | 1 => some ⟨umw (cwOf w1) (modOf w2), .lane [], fun _ u => vDAB 5 u⟩
  | 2 => some ⟨uiw (iwOf w1), .lane [], fun _ u => [dV u 1, aV u 1]⟩
  | 3 => some ⟨uiw2 (cwOf w1) (xwOf w2), .lane [], fun _ u => [dV u 1, aV u 1]⟩
  | 4 => some ⟨ucw (cwOf w1), .lane [], fun _ u => vDAB 5 u⟩
  | 5 => some ⟨umw (cwOf w1) (modOf w2), .lane [], fun _ u => vDAB 5 u⟩
  | 6 => some ⟨ucw (cwOf w1), .lane [], fun _ u => vDAB 5 u⟩
  | 7 => some ⟨umw (cwOf w1) (modOf w2), .lane [], fun _ u => vDAB 5 u⟩
  | 8 => some ⟨ucw (cwOf w1), .lane [], fun _ u => vDAB 5 u⟩
  | 9 => some ⟨umw (cwOf w1) (modOf w2), .lane [], fun _ u => vDAB 5 u⟩
  | 11 => some ⟨umw (cwOf w1) (modOf w2), .lane [], fun _ u => vDABC 5 u⟩
  | 12 => some ⟨ucw (cwOf w1), .lane [], fun _ u => vDAB 5 u⟩
  | 13 => some ⟨umw (cwOf w1) (modOf w2), .lane [], fun _ u => vDAB 5 u⟩
  | 14 => some ⟨ucw (cwOf w1), .lane [], fun _ u => vDAB 5 u⟩
  | 15 => some ⟨umw (cwOf w1) (modOf w2), .lane [], fun _ u => vDAB 5 u⟩
  | 16 => some ⟨ucw (cwOf w1), .lane [], fun _ u => vDAB 5 u⟩
  | 17 => some ⟨umw (cwOf w1) (modOf w2), .lane [], fun _ u => vDAB 5 u⟩
  | 18 => some ⟨ucw (cwOf w1), .lane [], fun _ u => vDA 5 u⟩
  | 19 => some ⟨umw (cwOf w1) (modOf w2), .lane [], fun _ u => vDA 5 u⟩
  | 20 => some ⟨ucw (cwOf w1), .lane [], fun _ u => vDAB 5 u⟩
  | 21 => some ⟨umw (cwOf w1) (modOf w2), .lane [], fun _ u => vDAB 5 u⟩
  | 22 => some ⟨ucw (cwOf w1), .lane [], fun _ u => vDAB 5 u⟩
  | 23 => some ⟨umw (cwOf w1) (modOf w2), .lane [], fun _ u => vDAB 5 u⟩
  | 24 => some ⟨ucw (cwOf w1), .lane [], fun _ u => vDAB 5 u⟩
  | 25 => some ⟨umw (cwOf w1) (modOf w2), .lane [], fun _ u => vDAB 5 u⟩
  | 26 => some ⟨ucw (cwOf w1), .lane [], fun _ u => vDAB 5 u⟩
  | 27 => some ⟨umw (cwOf w1) (modOf w2), .lane [], fun _ u => vDAB 5 u⟩
  | 28 => some ⟨ucw (cwOf w1), .lane [], fun _ u => vDAB 5 u⟩
  | 29 => some ⟨umw (cwOf w1) (modOf w2), .lane [], fun _ u => vDAB 5 u⟩
  | 30 => some ⟨ucw (cwOf w1), .lane [], fun _ u => vDA 5 u⟩
  | 31 => some ⟨umw (cwOf w1) (modOf w2), .lane [], fun _ u => vDA 5 u⟩
  | 32 => some ⟨ucw (cwOf w1), .lane [], fun _ u => vDA 5 u⟩
  | 33 => some ⟨umw (cwOf w1) (modOf w2), .lane [], fun _ u => vDA 5 u⟩
  | 34 => some ⟨ucw (cwOf w1), .lane [], fun _ u => vDA 5 u⟩
  | 35 => some ⟨umw (cwOf w1) (modOf w2), .lane [], fun _ u => vDA 5 u⟩
  | 36 => some ⟨ucw (cwOf w1), .lane [], fun _ u => vDA 5 u⟩
  | 37 => some ⟨umw (cwOf w1) (modOf w2), .lane [], fun _ u => vDA 5 u⟩
  | 38 => some ⟨ucw (cwOf w1), .lane [], fun _ u => [dV u 1, aV u 1, bV u 1]⟩
  | 39 => some ⟨umw (cwOf w1) (modOf w2), .lane [], fun _ u => [dV u 1, aV u 1, bV u 1]⟩
  | 40 => some ⟨ucw (cwOf w1), .lane [], fun _ u => [dVrw u, aV u 1, bV u 1]⟩
  | 41 => some ⟨umw (cwOf w1) (modOf w2), .lane [], fun _ u => [dVrw u, aV u 1, bV u 1]⟩
  | 42 => some ⟨ucw (cwOf w1), .lane [], fun _ u => vDAB 6 u⟩
  | 43 => some ⟨umw (cwOf w1) (modOf w2), .lane [], fun _ u => vDAB 6 u⟩
  | 44 => some ⟨ucw (cwOf w1), .lane [], fun _ u => vDA 6 u⟩
  | 45 => some ⟨umw (cwOf w1) (modOf w2), .lane [], fun _ u => vDA 6 u⟩
  | 46 => some ⟨uiw (iwOf w1), .lane [], fun _ u => [dV u 1]⟩
  | 47 => some ⟨uiw2 (cwOf w1) (xwOf w2), .lane [], fun _ u => [dV u 1]⟩
  | 48 => some ⟨ucw (cwOf w1), .lane [], fun _ u => [dV u (nOf (tyOf u 6)), aS u]⟩
  | 49 => some ⟨umw (cwOf w1) (modOf w2), .lane [], fun _ u => [dV u (nOf (tyOf u 6)), aS u]⟩
  | 50 => some ⟨ucw (cwOf w1), .wave, fun _ u => [dS u, aV u (nOf (tyOf u 6)), bS u]⟩
  | 51 => some ⟨umw (cwOf w1) (modOf w2), .wave, fun _ u => [dS u, aV u (nOf (tyOf u 6)), bS u]⟩
  | 53 => some ⟨umw (cwOf w1) (modOf w2), .lane [], fun _ u => [dV u 1, aV u 1, bV u 1, cV u 1]⟩
  | 54 => some ⟨ucw (cwOf w1), .lane [], fun _ u => [dP u, aV u (nOf (tyOf u 5)), bV u (nOf (tyOf u 5))]⟩
  | 55 => some ⟨umw (cwOf w1) (modOf w2), .lane [], fun _ u => [dP u, aV u (nOf (tyOf u 5)), bV u (nOf (tyOf u 5))]⟩
  | 56 => some ⟨ucw (cwOf w1), .lane [], fun _ u => vDAB 10 u⟩
  | 57 => some ⟨umw (cwOf w1) (modOf w2), .lane [], fun _ u => vDAB 10 u⟩
  | 58 => some ⟨ucw (cwOf w1), .lane [], fun _ u => vDAB 10 u⟩
  | 59 => some ⟨umw (cwOf w1) (modOf w2), .lane [], fun _ u => vDAB 10 u⟩
  | 60 => some ⟨ucw (cwOf w1), .lane [], fun _ u => vDAB 10 u⟩
  | 61 => some ⟨umw (cwOf w1) (modOf w2), .lane [], fun _ u => vDAB 10 u⟩
  | 63 => some ⟨umw (cwOf w1) (modOf w2), .lane [], fun _ u => vDABC 10 u⟩
  | 64 => some ⟨ucw (cwOf w1), .lane [], fun _ u => vDAB 10 u⟩
  | 65 => some ⟨umw (cwOf w1) (modOf w2), .lane [], fun _ u => vDAB 10 u⟩
  | 66 => some ⟨ucw (cwOf w1), .lane [], fun _ u => vDAB 10 u⟩
  | 67 => some ⟨umw (cwOf w1) (modOf w2), .lane [], fun _ u => vDAB 10 u⟩
  | 68 => some ⟨ucw (cwOf w1), .lane [], fun _ u => vDA 10 u⟩
  | 69 => some ⟨umw (cwOf w1) (modOf w2), .lane [], fun _ u => vDA 10 u⟩
  | 70 => some ⟨ucw (cwOf w1), .lane [], fun _ u => vDA 10 u⟩
  | 71 => some ⟨umw (cwOf w1) (modOf w2), .lane [], fun _ u => vDA 10 u⟩
  | 72 => some ⟨ucw (cwOf w1), .lane [], fun _ u => [dP u, aV u (nOf (tyOf u 10)), bV u (nOf (tyOf u 10))]⟩
  | 73 => some ⟨umw (cwOf w1) (modOf w2), .lane [], fun _ u => [dP u, aV u (nOf (tyOf u 10)), bV u (nOf (tyOf u 10))]⟩
  | 74 => some ⟨ucw (cwOf w1), .lane [], fun _ u => [dV u 1, aV u (nOf (tyOf u 10))]⟩
  | 75 => some ⟨umw (cwOf w1) (modOf w2), .lane [], fun _ u => [dV u 1, aV u (nOf (tyOf u 10))]⟩
  | 77 => some ⟨umw (cwOf w1) (modOf w2), .lane [], fun _ u => [{ dV u (nOf (u).ty) with rd := true }, aV u (nOf (u).ty2)]⟩
  | 78 => some ⟨ucw (cwOf w1), .lane [], fun _ u => vDA 10 u⟩
  | 79 => some ⟨umw (cwOf w1) (modOf w2), .lane [], fun _ u => vDA 10 u⟩
  | 81 => some ⟨umw (cwOf w1) (modOf w2), .lane [], fun _ u => [dV u 1, aV u 1, bV u 1, cV u 1]⟩
  | 82 => some ⟨ucw (cwOf w1), .lane [], fun _ u => [dV u (nOf (tyOf u 6)), aV u (nOf (tyOf u 6)), bV u 1]⟩
  | 83 => some ⟨umw (cwOf w1) (modOf w2), .lane [], fun _ u => [dV u (nOf (tyOf u 6)), aV u (nOf (tyOf u 6)), bV u 1]⟩
  | 84 => some ⟨ucw (cwOf w1), .lane [], fun _ u => [dV u (nOf (tyOf u 6)), aV u (nOf (tyOf u 6)), bS u]⟩
  | 85 => some ⟨umw (cwOf w1) (modOf w2), .lane [], fun _ u => [dV u (nOf (tyOf u 6)), aV u (nOf (tyOf u 6)), bS u]⟩
  | 86 => some ⟨ucw (cwOf w1), .lane [], fun _ u => [dV u (nOf (tyOf u 6)), aV u (nOf (tyOf u 6)), bS u]⟩
  | 87 => some ⟨umw (cwOf w1) (modOf w2), .lane [], fun _ u => [dV u (nOf (tyOf u 6)), aV u (nOf (tyOf u 6)), bS u]⟩
  | 88 => some ⟨ucw (cwOf w1), .lane [], fun _ u => [dV u (nOf (tyOf u 6)), aV u (nOf (tyOf u 6)), bS u]⟩
  | 89 => some ⟨umw (cwOf w1) (modOf w2), .lane [], fun _ u => [dV u (nOf (tyOf u 6)), aV u (nOf (tyOf u 6)), bS u]⟩
  | 90 => some ⟨ucw (cwOf w1), .lane [0], fun _ u => [dS u, aP u]⟩
  | 91 => some ⟨umw (cwOf w1) (modOf w2), .lane [0], fun _ u => [dS u, aP u]⟩
  | 92 => some ⟨ucw (cwOf w1), .lane [0], fun _ u => [dS u, aV u (nOf (tyOf u 5))]⟩
  | 93 => some ⟨umw (cwOf w1) (modOf w2), .lane [0], fun _ u => [dS u, aV u (nOf (tyOf u 5))]⟩
  | 94 => some ⟨ucw (cwOf w1), .lane [0], fun _ u => [dS u, aV u (nOf (tyOf u 5))]⟩
  | 95 => some ⟨umw (cwOf w1) (modOf w2), .lane [0], fun _ u => [dS u, aV u (nOf (tyOf u 5))]⟩
  | 96 => some ⟨ucw (cwOf w1), .lane [0], fun _ u => [dS u, aV u (nOf (tyOf u 5))]⟩
  | 97 => some ⟨umw (cwOf w1) (modOf w2), .lane [0], fun _ u => [dS u, aV u (nOf (tyOf u 5))]⟩
  | 98 => some ⟨ucw (cwOf w1), .lane [], fun _ u => [dV u 1, aV u 1]⟩
  | 99 => some ⟨umw (cwOf w1) (modOf w2), .lane [], fun _ u => [dV u 1, aV u 1]⟩
  | 100 => some ⟨ucw (cwOf w1), .lane [], fun width u => [dV u (matchSyms width), aV u (nOf (tyOf u 6))]⟩
  | 101 => some ⟨umw (cwOf w1) (modOf w2), .lane [], fun width u => [dV u (matchSyms width), aV u (nOf (tyOf u 6))]⟩
  | 103 => some ⟨umw (cwOf w1) (modOf w2), .lane [2], fun _ u => [dV u 1, aV u 1, bS u, cPw u]⟩
  | _ => none

/-- The words of class 2 that have operands. -/
def view2 (w1 w2 : W32) : Option View :=
  match (opOf w1).toNat with
  | 0 => some ⟨ucw (cwOf w1), .lane [0], fun _ u => [dV u 1, aV u 1]⟩
  | 1 => some ⟨umw (cwOf w1) (modOf w2), .lane [0], fun _ u => [dV u 1, aV u 1]⟩
  | 2 => some ⟨ucw (cwOf w1), .lane [0], fun _ u => [dV u 1, aV u 1]⟩
  | 3 => some ⟨umw (cwOf w1) (modOf w2), .lane [0], fun _ u => [dV u 1, aV u 1]⟩
  | 4 => some ⟨ucw (cwOf w1), .lane [0], fun _ u => [dV u 1, aV u 1]⟩
  | 5 => some ⟨umw (cwOf w1) (modOf w2), .lane [0], fun _ u => [dV u 1, aV u 1]⟩
  | 6 => some ⟨ucw (cwOf w1), .lane [0], fun _ u => [dV u 1, aV u 1]⟩
  | 7 => some ⟨umw (cwOf w1) (modOf w2), .lane [0], fun _ u => [dV u 1, aV u 1]⟩
  | 8 => some ⟨ucw (cwOf w1), .lane [0], fun _ u => [dV u 1, aV u 1]⟩
  | 9 => some ⟨umw (cwOf w1) (modOf w2), .lane [0], fun _ u => [dV u 1, aV u 1]⟩
  | 10 => some ⟨ucw (cwOf w1), .lane [0], fun _ u => [dV u 1, aV u 1]⟩
  | 11 => some ⟨umw (cwOf w1) (modOf w2), .lane [0], fun _ u => [dV u 1, aV u 1]⟩
  | 12 => some ⟨ucw (cwOf w1), .lane [0], fun _ u => [dV u 1, aV u 1]⟩
  | 13 => some ⟨umw (cwOf w1) (modOf w2), .lane [0], fun _ u => [dV u 1, aV u 1]⟩
  | 14 => some ⟨ucw (cwOf w1), .lane [0], fun _ u => [dV u 1, aV u 1]⟩
  | 15 => some ⟨umw (cwOf w1) (modOf w2), .lane [0], fun _ u => [dV u 1, aV u 1]⟩
  | _ => none

/-- The words of class 3 that have operands. -/
def view3 (w1 w2 : W32) : Option View :=
  match (opOf w1).toNat with
  | 0 => some ⟨ucw (cwOf w1), .lane [0], fun _ u => dV u (memSyms u) :: opsAB u⟩
  | 1 => some ⟨uxw (cwOf w1) (memOf w2), .lane [0], fun _ u => dV u (memSyms u) :: opsAB u⟩
  | 2 => some ⟨ucw (cwOf w1), .lane [], fun _ u => dVr u (memSyms u) :: opsAB u⟩
  | 3 => some ⟨uxw (cwOf w1) (memOf w2), .lane [], fun _ u => dVr u (memSyms u) :: opsAB u⟩
  | 4 => some ⟨ucw (cwOf w1), .lane [0], fun _ u => dV u (memSyms u) :: aBuf u :: (if (u).nx == 1 then [] else [bV u 1])⟩
  | 5 => some ⟨uxw (cwOf w1) (memOf w2), .lane [0], fun _ u => dV u (memSyms u) :: aBuf u :: (if (u).nx == 1 then [] else [bV u 1])⟩
  | 6 => some ⟨ucw (cwOf w1), .lane [], fun _ u => dVr u (memSyms u) :: aBufW u :: (if (u).nx == 1 then [] else [bV u 1])⟩
  | 7 => some ⟨uxw (cwOf w1) (memOf w2), .lane [], fun _ u => dVr u (memSyms u) :: aBufW u :: (if (u).nx == 1 then [] else [bV u 1])⟩
  | 8 => some ⟨ucw (cwOf w1), .wave, fun _ u => [dS u, aS u]⟩
  | 9 => some ⟨uxw (cwOf w1) (memOf w2), .wave, fun _ u => [dS u, aS u]⟩
  | 10 => some ⟨ucw (cwOf w1), .wave, fun width u => [dVn u (rdmSyms width (tkCode u)), aS u]⟩
  | 11 => some ⟨uxw (cwOf w1) (memOf w2), .wave, fun width u => [dVn u (rdmSyms width (tkCode u)), aS u]⟩
  | 12 => some ⟨ucw (cwOf w1), .wave, fun _ u => rdmSOps u⟩
  | 13 => some ⟨uxw (cwOf w1) (memOf w2), .wave, fun _ u => rdmSOps u⟩
  | 14 => some ⟨ucw (cwOf w1), .wave, fun _ u => [aS u]⟩
  | 16 => some ⟨ucw (cwOf w1), .wave, fun _ u => [dS u, aS u]⟩
  | 19 => some ⟨uxw (cwOf w1) (memOf w2), .lane [0], fun _ u => atOpsATOM u⟩
  | 21 => some ⟨uxw (cwOf w1) (memOf w2), .lane [], fun _ u => atOpsRED u⟩
  | 23 => some ⟨uxw (cwOf w1) (memOf w2), .wave, fun _ u => [dS u, aS u, cS u]⟩
  | 28 => some ⟨ucw (cwOf w1), .lane [], fun _ u => opsAB u⟩
  | 29 => some ⟨uxw (cwOf w1) (memOf w2), .lane [], fun _ u => opsAB u⟩
  | 30 => some ⟨ucw (cwOf w1), .lane [], fun _ u => opsAB u⟩
  | 31 => some ⟨uxw (cwOf w1) (memOf w2), .lane [], fun _ u => opsAB u⟩
  | 33 => some ⟨uxw (cwOf w1) (memOf w2), .wave, fun _ u => itOpsDef u⟩
  | 35 => some ⟨uxw (cwOf w1) (memOf w2), .wave, fun _ u => [itRec u, itProg u]⟩
  | 37 => some ⟨uxw (cwOf w1) (memOf w2), .wave, fun _ u => [dSrw u, itRec u, { itProg u with field := 3 }]⟩
  | _ => none

/-- The words of class 4 that have operands. -/
def view4 (w1 w2 : W32) : Option View :=
  match (opOf w1).toNat with
  | 0 => some ⟨ucw (cwOf w1), .mat false, fun _ u => [aS u]⟩
  | 1 => some ⟨umw (cwOf w1) (modOf w2), .mat false, fun _ u => [aS u]⟩
  | 2 => some ⟨ucw (cwOf w1), .mat true, fun _ u => opsMM u⟩
  | 3 => some ⟨umw (cwOf w1) (modOf w2), .mat true, fun _ u => opsMM u⟩
  | 4 => some ⟨ucw (cwOf w1), .mat true, fun width u => opsMMG width u⟩
  | 5 => some ⟨umw (cwOf w1) (modOf w2), .mat true, fun width u => opsMMG width u⟩
  | 6 => some ⟨ucw (cwOf w1), .mat true, fun _ u => opsMMB u⟩
  | 7 => some ⟨umw (cwOf w1) (modOf w2), .mat true, fun _ u => opsMMB u⟩
  | 8 => some ⟨ucw (cwOf w1), .mat false, fun _ u => opsTile u⟩
  | 9 => some ⟨umw (cwOf w1) (modOf w2), .mat false, fun _ u => opsTile u⟩
  | 10 => some ⟨ucw (cwOf w1), .mat false, fun _ u => aBuf u :: cOff u⟩
  | 11 => some ⟨umw (cwOf w1) (modOf w2), .mat false, fun _ u => aBuf u :: cOff u⟩
  | 12 => some ⟨ucw (cwOf w1), .mat false, fun _ u => [dQ u (shapeQuads (shapeOf u))]⟩
  | 13 => some ⟨umw (cwOf w1) (modOf w2), .mat false, fun _ u => [dQ u (shapeQuads (shapeOf u))]⟩
  | 14 => some ⟨ucw (cwOf w1), .mat false, fun width u => opsAmov width u⟩
  | 15 => some ⟨umw (cwOf w1) (modOf w2), .mat false, fun width u => opsAmov width u⟩
  | 16 => some ⟨ucw (cwOf w1), .mat false, fun _ u => [dQ u (shapeQuads (shapeOf u)), aS u]⟩
  | 17 => some ⟨umw (cwOf w1) (modOf w2), .mat false, fun _ u => [dQ u (shapeQuads (shapeOf u)), aS u]⟩
  | 18 => some ⟨ucw (cwOf w1), .mat false, fun _ u => [dQ u (shapeQuads (shapeOf u)), aBuf u] ++ cOff u⟩
  | 19 => some ⟨umw (cwOf w1) (modOf w2), .mat false, fun _ u => [dQ u (shapeQuads (shapeOf u)), aBuf u] ++ cOff u⟩
  | 20 => some ⟨ucw (cwOf w1), .mat false, fun _ u => [dBuf u, aQ u (shapeQuads (shapeOf u))] ++ cOff u⟩
  | 21 => some ⟨umw (cwOf w1) (modOf w2), .mat false, fun _ u => [dBuf u, aQ u (shapeQuads (shapeOf u))] ++ cOff u⟩
  | _ => none

/-- The words of class 5 that have operands. -/
def view5 (w1 w2 : W32) : Option View :=
  match (opOf w1).toNat with
  | 0 => some ⟨ucw (cwOf w1), .wave, fun _ u => opsCpy 3 u⟩
  | 1 => some ⟨umw (cwOf w1) (modOf w2), .wave, fun _ u => opsCpy 3 u⟩
  | 2 => some ⟨ucw (cwOf w1), .wave, fun _ u => opsCpy 4 u⟩
  | 3 => some ⟨umw (cwOf w1) (modOf w2), .wave, fun _ u => opsCpy 4 u⟩
  | 4 => some ⟨ucw (cwOf w1), .wave, fun _ u => opsCpy 3 u⟩
  | 5 => some ⟨umw (cwOf w1) (modOf w2), .wave, fun _ u => opsCpy 3 u⟩
  | 6 => some ⟨ucw (cwOf w1), .wave, fun _ u => mbOps u⟩
  | 7 => some ⟨umw (cwOf w1) (modOf w2), .wave, fun _ u => mbOps u⟩
  | 8 => some ⟨ucw (cwOf w1), .wave, fun _ u => mbOps u⟩
  | 9 => some ⟨umw (cwOf w1) (modOf w2), .wave, fun _ u => mbOps u⟩
  | 10 => some ⟨ucw (cwOf w1), .wave, fun _ u => [dS u, aS u]⟩
  | 11 => some ⟨umw (cwOf w1) (modOf w2), .wave, fun _ u => [dS u, aS u]⟩
  | 12 => some ⟨ucw (cwOf w1), .wave, fun _ u => [dS u]⟩
  | 13 => some ⟨umw (cwOf w1) (modOf w2), .wave, fun _ u => if bit (u).card 0 then [dS u, aS u] else [dS u]⟩
  | _ => none

/-- The words of class 6 that have operands. -/
def view6 (w1 w2 : W32) : Option View :=
  match (opOf w1).toNat with
  | 4 => some ⟨ucw (cwOf w1), .wave, fun _ u => [dS u]⟩
  | 5 => some ⟨umw (cwOf w1) (modOf w2), .wave, fun _ u => [dS u]⟩
  | 6 => some ⟨ucw (cwOf w1), .wave, fun _ u => [aS u]⟩
  | 7 => some ⟨umw (cwOf w1) (modOf w2), .wave, fun _ u => [aS u]⟩
  | 8 => some ⟨ucw (cwOf w1), .wave, fun _ u => [aS u]⟩
  | 9 => some ⟨umw (cwOf w1) (modOf w2), .wave, fun _ u => [aS u]⟩
  | 10 => some ⟨ucw (cwOf w1), .wave, fun _ u => [aS u]⟩
  | 12 => some ⟨ucw (cwOf w1), .wave, fun _ u => getsrOps u⟩
  | 14 => some ⟨ucw (cwOf w1), .wave, fun _ u => setsrOps u⟩
  | 16 => some ⟨ucw (cwOf w1), .wave, fun _ u => [dS u]⟩
  | 18 => some ⟨ucw (cwOf w1), .wave, fun _ u => [aS u]⟩
  | 19 => some ⟨umw (cwOf w1) (modOf w2), .wave, fun _ u => [aS u]⟩
  | 20 => some ⟨uiw (iwOf w1), .wave, fun _ u => [aS u]⟩
  | 21 => some ⟨uiw2 (cwOf w1) (xwOf w2), .wave, fun _ u => [aS u]⟩
  | _ => none

/-- A word's view. -/
def viewOf (cls : BitVec 3) (w1 w2 : W32) : Option View :=
  match cls.toNat with
  | 0 => view0 w1 w2
  | 1 => view1 w1 w2
  | 2 => view2 w1 w2
  | 3 => view3 w1 w2
  | 4 => view4 w1 w2
  | 5 => view5 w1 w2
  | 6 => view6 w1 w2
  | _ => none

/-- The word at which a slot stands: of one that has no operands its fields alone; the immediate words of class 0 have no guard (R62). -/
def viewAt (x : Slot) : View :=
  let w1 := rawWord x x.idx
  (viewOf (hdrClass x.hdrW) w1 (rawWord x (x.idx + 1))).getD
    ⟨{ ucw (cwOf w1) with
        two := isTwo w1, g := if hdrClass x.hdrW == 0 && [66, 68, 90, 94].contains (opOf w1).toNat then 0 else (cwOf w1).g.toNat },
      .wave, fun _ _ => []⟩

/-- The facts of a viewed word that its place in a record needs; XGET's selector names its destination (R223, R231). -/
def viewSpec (x : Slot) (v : View) : WSpec :=
  { u := v.u, ok := fun _ => true, lanes := (match v.kind with | .lane _ => true | _ => false)
    dest := if hdrClass x.hdrW == 6 && (opOf (rawWord x x.idx)).toNat / 2 == 3 then xgDest v.u else fun _ _ => none }

/-- What the slot's word reads empty and would wait on; MTILE's working quads come after its own operands (R54, R59, R194). -/
def emptyOpnds (w : Wave) (wid : Nat) (b : Block) (x : Slot) : List Opnd :=
  match viewOf (hdrClass x.hdrW) (rawWord x x.idx) (rawWord x (x.idx + 1)) with
  | none => []
  | some v =>
    let all := v.ops w.width v.u
    let live := liveLanes true w x.mask v.u.g
    let ops := match v.kind with
      | .lane always => if live == 0 then all.filter (fun (o : Opnd) => always.contains o.field || (o.field == 0 && o.cls == SymCls.v && o.wr)) else all
      | .wave => if guardWave w x.mask v.u.g then all else []
      | .mat gang =>
        if !guardWave w x.mask v.u.g then []
        else if gang && gangFollower b w then all.filter (fun (o : Opnd) => o.field != 0) else all
    let mat := match v.kind with | .mat _ => true | _ => false
    let own := ops.filter (emptyTo b wid w x mat)
    let dsc := (scGet w (winBase x .s + v.u.d)).toNat
    let tile := hdrClass x.hdrW == 4 && (opOf (rawWord x x.idx)).toNat / 2 == 4 && !ops.isEmpty && own.isEmpty && !tileBad dsc
    if emptyTrap x then [] else if tile then (tileOps dsc).filter (emptyTo b wid w x mat) else own

/-- The slot's word would wait on an empty slot (R54, R59). -/
def waitsEmpty (w : Wave) (wid : Nat) (b : Block) (x : Slot) : Bool := !(emptyOpnds w wid b x).isEmpty

end Sys2Proof.Machine
end

