-- ==== Sys2Proof/Machine/Debug.lean ====
section
/-! DEFINITION. Debug windows: stops and their dumps, edits of halted waves, steps, grants and revocations (R321 to R328,
R330). -/

namespace Sys2Proof.Machine

/-- The agent of a register access: a function, or a wave of a context, which acts for the function that owns it
(R321, R402). -/
structure Who where
  fn : Nat
  wave : Bool := false
deriving DecidableEq, Repr

def modDbg (s : State) (core : Nat) (f : Dbg → Dbg) : State := modCore s core (fun c => { c with dbg := f c.dbg })

/-- An agent holds the debug right of a context (R321). -/
def dbgRight (s : State) (who : Who) (c : Nat) : Bool := !who.wave && (ctxOf s c).dbg && (ctxOf s c).dbgfn == who.fn

/-- DSTAT.ERR takes a code; it stays until the next grant. -/
def dbgErr (s : State) (core n : Nat) : State := modDbg s core (fun d => { d with err := n })

/-- The blocks of a context that are resident on a core, in BLOCK order. -/
def blocksOn (s : State) (core ctx : Nat) : List (Nat × Block) :=
  sortBy (fun a b => a.2.idx < b.2.idx || (a.2.idx == b.2.idx && a.1 ≤ b.1))
    (s.blocks.filter (fun e => e.2.core == core && e.2.ctx == ctx && e.2.res == .resident && !e.2.handler))

/-- A wave of a context is on a core, in a block or in the handler slot. -/
def onCore (s : State) (core ctx : Nat) (w : Wave) : Bool :=
  w.ctx == ctx && ((blockOf s w).elim false (fun b => b.core == core && b.res == .resident))

/-- Waves of a context are halted on a core: DSTAT.HALTED. -/
def haltedOn (s : State) (core ctx : Nat) : Bool := s.waves.any (fun e => e.2.halted && onCore s core ctx e.2)

/-- A core is frozen or holds a halted wave: no rebind or swap-out starts on it (R324). -/
def stopHolds (s : State) (core : Nat) : Bool :=
  (coreOf s core).dbg.frozen || s.waves.any (fun e => e.2.halted && (blockOf s e.2).elim false (fun b => b.core == core))

/-! The dump (R326, R330). -/

/-- A record: its common word 0 and its words. -/
def dumpRec (kind blk wave : Nat) (ws : List W64) : List W64 :=
  w64 (kind * 2 ^ 56 + ws.length * 2 ^ 48 + blk % 2 ^ 32 * 2 ^ 16 + wave * 2 ^ 12) :: ws

/-- The address at which a slot stands: a parked one at the header after its word (R330). -/
def standAddr (x : Slot) : Nat := if x.inClause && x.park != .run && standsAtHdr x then nextHdr x else wordAddr x

/-- A slot holds no path. -/
def slotFree (x : Slot) : Bool := !x.used || x.park == .ended

/-- WHYA or WHYB of a slot. -/
def whyOf (s : State) (wid : Nat) (w : Wave) (b : Block) (x : Slot) : Nat :=
  match x.park with
  | .barrier .. => 3
  | .monitor _ => 4
  | .mbrecv _ => 5
  | .cpyw _ => 6
  | .trapped => if (w.trap.bind (·.handler)).isSome then 9 else 7
  | .pageReq _ _ => 8
  | .joining => 0
  | .ended => 0
  | .run =>
    if !x.inClause then
      match fetchWord s b.core w.ctx x x.pc with
      | .got _ h => if marked h && !maskClear w h then 2 else 0
      | _ => 0
    else if waitsEmpty w wid b x then 1
    else if hdrClass x.hdrW == 0 && (opOf (rawWord x x.idx)).toNat == 90
      && !waitcntMet w (iwOf (rawWord x x.idx)).imm.toNat then 2
    else 0

/-- A wave record. -/
def waveRec (s : State) (wid : Nat) (w : Wave) (b : Block) : List W64 :=
  let pc := fun (x : Slot) => imgOff b.var (standAddr x)
  let pcb := if slotFree w.b then 2 ^ 32 - 1 else pc w.b
  let whyb := if slotFree w.b then 0 else whyOf s wid w b w.b
  dumpRec 2 b.idx w.idx [w64 (pc w.a * 2 ^ 32 + pcb), w64 (b.var.image * 2 ^ 32 + whyb * 16 + whyOf s wid w b w.a),
    w.a.mask, if slotFree w.b then 0 else w.b.mask]

/-- The code of a counter, in the order of R56. -/
def cntCode : CntK → Nat
  | .load => 0
  | .store => 1
  | .ticket => 2
  | .matrix => 3
  | .copy => 4
  | .special => 5

/-- A class-4 word has been granted: its passes run on (R325). -/
def isGranted (o : Op) : Bool := match o.body with | .mat m => m.granted | _ => false

/-- The quads that an operation has left empty. -/
def quadsOf (b : Block) (id : Nat) : List Nat := (b.qempty.filter (fun e => e.op == id)).map (·.num)

/-- The pending-write records of an operation, one for each class; the quads of a granted word have their own record (R326). -/
def pendRecs (b : Block) (w : Wave) (id : Nat) (o : Op) : List (List W64) :=
  let of_ := fun cls => (w.empty.filter (fun e => e.op == id && e.cls == cls)).map (·.num)
  [(0, of_ .v), (1, of_ .s), (2, if isGranted o then [] else quadsOf b id)].filterMap (fun e =>
    match e.2 with
    | [] => none
    | n :: _ => some (dumpRec 3 b.idx w.idx [w64 (e.1 * 2 ^ 60 + e.2.foldl min n * 2 ^ 48 + cntCode o.cnt * 2 ^ 44
      + e.2.length * 2 ^ 32 + o.orig.off)]))

/-- The operations of a wave, oldest first. -/
def opsOf (s : State) (wid : Nat) : Tbl Op := s.ops.filter (fun e => e.2.wid == wid)

/-- The record of a barrier as a block lists it: the block's own ARRIVED bits. -/
def barRec (b : Block) (x : Barrier) (arrived : Nat) : List W64 :=
  dumpRec 4 b.idx 0 [w64 (x.exp % 2 ^ 16 * 2 ^ 48 + x.arr % 2 ^ 16 * 2 ^ 32 + x.phase % 2 ^ 32),
    w64 (arrived * 2 ^ 48 + (if x.rope then 128 else 0) + x.num)]

/-- The waves of a block that have arrived in a barrier's current phase, as bits. -/
def arrivedBits (s : State) (b : Block) (x : Barrier) : Nat :=
  (b.waves.filter (fun i => x.flags.any (fun f => f.1 == i && f.2 == x.phase))).foldl
    (fun n i => n + 2 ^ ((tget s.waves i).elim 0 (·.idx))) 0

/-- The reservation record of a class-4 word that waits: held in a latch, behind an earlier word's quads, or ready. -/
def resRec (b : Block) (w : Wave) (id : Nat) (o : Op) : Option (List W64) :=
  match o.body with
  | .mat m =>
    if m.granted || !(m.latched || holdsEntry id m) then none
    else
      let behind := b.qempty.any (fun e => decide (e.op < id) && (matQuads m).contains e.num)
      let st := if m.latched then 2 else if behind then 0 else 1
      some (dumpRec 5 b.idx w.idx [w64 (o.orig.off * 2 ^ 32 + st * 2 ^ 24), w64 o.t0])
  | _ => none

/-- The quad record of a granted word. -/
def quadRec (b : Block) (id : Nat) (o : Op) : Option (List W64) :=
  match isGranted o, quadsOf b id with
  | true, n :: r => some (dumpRec 6 b.idx 0 [w64 (r.foldl min n * 2 ^ 52 + 2 ^ 48 + (r.length + 1) * 2 ^ 44 + o.orig.off)])
  | _, _ => none

/-- The words of a range-lock entry (R309). -/
def lockWords (s : State) (l : Lock) : List W64 :=
  let f := fun (b : Bool) (n : Nat) => if b then n else 0
  [w64 l.slo, w64 l.dlo, w64 (l.slen * 2 ^ 32 + l.dlen),
   w64 (l.seq % 2 ^ 32 * 2 ^ 32 + l.done % 2 ^ 28 * 16 + f l.sbv 8 + f l.dbv 4 + f l.mcv 2 + 1),
   w64 ((tget s.blocks l.blk).elim 0 (·.idx) * 2 ^ 32 + l.sbuf * 2 ^ 25 + l.dbuf * 2 ^ 18 + l.ctx * 2 ^ 9)]

/-- The waves of a block that have not ended, in WAVE order. -/
def liveWaves (s : State) (b : Block) : List (Nat × Wave) :=
  (sortBy (fun (a c : Nat × Wave) => a.2.idx ≤ c.2.idx) (b.waves.filterMap (fun i => (tget s.waves i).map (fun w => (i, w))))).filter
    (fun e => !waveOver e.2)

/-- The records of a dump of a context on a core, in their order. -/
def dumpRecords (s : State) (core ctx : Nat) : List (List W64) :=
  let bs := (blocksOn s core ctx).map (·.2)
  let ws := bs.flatMap (fun b => (liveWaves s b).map (fun e => (b, e)))
  let each := fun (f : Block → Wave → Nat → Op → Option (List W64)) =>
    ws.flatMap (fun e => (opsOf s e.2.1).filterMap (fun o => f e.1 e.2.2 o.1 o.2))
  [dumpRec 1 0 0 [nowW s, w64 (core * 2 ^ 32 + ctx)]]
    ++ ws.flatMap (fun e => waveRec s e.2.1 e.2.2 e.1 :: (opsOf s e.2.1).flatMap (fun o => pendRecs e.1 e.2.2 o.1 o.2))
    ++ bs.flatMap (fun b => (b.bars ++ barsOf s b true).map (fun x => barRec b x (arrivedBits s b x)))
    ++ each resRec
    ++ each (fun b _ id o => quadRec b id o)
    ++ ((ropeOf s (ropeOfCore core)).locks.filter (fun l => l.2.ctx == ctx)).map (fun l => dumpRec 7 0 0 (lockWords s l.2))

/-- The dump of a context as it stands now is kept to be written, behind one that waits. -/
def takeDump (s : State) (core ctx : Nat) : State :=
  let rs := dumpRecords s core ctx
  modDbg s core (fun d =>
    if d.dump.isEmpty then { d with dump := rs.flatMap id, dumpRecs := rs.length, dumped := false }
    else { d with more := d.more ++ [(rs.flatMap id, rs.length)], dumped := false })

/-- The fresh dumps of the cores on which a step has halted a wave, taken on the cycle of that halt (R327). -/
def freshDumps (s : State) : State :=
  s.cores.foldl (fun t e => match e.2.dbg.fresh with
    | none => t
    | some ctx => takeDump (modDbg t e.1 (fun d => { d with fresh := none })) e.1 ctx) s

/-- The dump that comes first is done with: the next one waits to be written. -/
def nextDump (d : Dbg) : Dbg :=
  match d.more with
  | [] => { d with dump := [], dumpRecs := 0 }
  | e :: rest => { d with dump := e.1, dumpRecs := e.2, more := rest }

/-- DEBUG_STOP_EFFECT (R323): cycle N of the first stop that is requested, for the context that asked for it. A dump that waits to be
written comes first. (DEDUCED, log entry 34) -/
def execDebugStopEffect (core : Nat) (s : State) : Out :=
  let d := (coreOf s core).dbg
  if d.dump != [] then .next s
  else match d.stops with
    | c :: rest =>
      let s1 := { s with waves := s.waves.map (fun e =>
        if e.2.st == .live && onCore s core c e.2 then (e.1, { e.2 with halted := true, stepping := 0 }) else e) }
      .next (takeDump (modDbg s1 core (fun d => { d with stops := rest, stopCtx := some c, frozen := true })) core c)
    | [] => .next s

/-- The dump buffer takes a dump of so many words (R321, R326). (DEDUCED, log entry 34) -/
def bufOk (s : State) (pa n : Nat) : Bool :=
  pa % 4096 == 0 && 8 * n ≤ 65536 && pa + 8 * n ≤ 2 ^ 52 && (upto n).all (fun i => isStorage s (pa + 8 * i) && !departed s (pa + 8 * i))

/-- DEBUG_DUMP_WRITTEN (R323, R326): the dump is written, and the waves of other contexts go on unless another stop is asked for;
or the buffer faults, and a stop that has not ended still holds. (DEDUCED, log entry 34) -/
def execDebugDumpWritten (core : Nat) (s : State) : Out :=
  let d := (coreOf s core).dbg
  if d.dump.isEmpty then .next s
  else if !bufOk s d.buf.toNat d.dump.length then
    .next (modDbg s core (fun d => nextDump { d with err := 5, frozen := d.frozen && (d.stops != [] || d.stopCtx.isSome) }))
  else .next (modDbg (engineWrite s d.buf.toNat (d.dump.flatMap (fun w => bytesOf 8 w.toNat))).1 core (fun d =>
    nextDump { d with dumped := d.more.isEmpty, nrec := d.dumpRecs, frozen := d.frozen && d.stops != [], stopCtx := none }))

/-! Control (R322, R323, R327, R328). -/

/-- A context's waves are released on a core: what its stop still holds is the dump that is to be written, for which the core stays
frozen (R322, R323). -/
def stopEnds (ctx : Nat) (d : Dbg) : Dbg :=
  { d with
    frozen := d.frozen && (d.stops != [] || d.dump != [] || (d.stopCtx.isSome && d.stopCtx != some ctx))
    stopCtx := if d.stopCtx == some ctx then none else d.stopCtx }

/-- Every halted wave of a context on a core is released (R322). -/
def dbgResume (s : State) (core ctx : Nat) : State :=
  modDbg { s with waves := s.waves.map (fun e =>
      if onCore s core ctx e.2 then (e.1, { e.2 with halted := false, stepping := 0 }) else e) } core (stopEnds ctx)

/-- The halted wave that DSEL names, or the ERR code (R327). -/
def dbgWave (s : State) (core : Nat) : Except Nat (Nat × Wave × Block) :=
  let d := (coreOf s core).dbg
  if !haltedOn s core d.ctx then .error 2
  else match ((blocksOn s core d.ctx).filter (fun e => e.2.idx == bits d.sel.toNat 63 32)).findSome? (fun e =>
      ((liveWaves s e.2).find? (fun w => w.2.idx == bits d.sel.toNat 31 28)).map (fun w => (w.1, w.2, e.2))) with
    | none => .error 4
    | some r => if r.2.1.halted then .ok r else .error 2

/-- STEP: the wave that DSEL names runs on to its next header (R327). (DEDUCED, log entry 34) -/
def dbgStep (s : State) (core : Nat) : State :=
  match dbgWave s core with
  | .error e => dbgErr s core e
  | .ok (wid, w, _) =>
    setWave s wid { w with halted := false, stepping := stepCode w }

/-- A write of DCTL, judged on the context that it names (R321, R322). (DEDUCED, log entry 34) -/
def dctlWrite (s : State) (core : Nat) (who : Who) (v : Nat) : State :=
  let c := bits v 14 8
  if !dbgRight s who c then dbgErr s core 1
  else
    let s1 := modDbg s core (fun d => { d with ctx := c, bkstop := bit v 3, stops := if bit v 0 then askStop d.stops c else d.stops })
    let s2 := if bit v 1 then dbgResume s1 core c else s1
    if bit v 2 then dbgStep s2 core else s2

/-- DCTL and DSTAT as they read. -/
def dctlWord (d : Dbg) : Nat := d.ctx * 256 + if d.bkstop then 8 else 0
def dstatWord (s : State) (core : Nat) : Nat :=
  let d := (coreOf s core).dbg
  d.nrec * 2 ^ 32 + d.err * 16 + (if d.dumped then 2 else 0) + if haltedOn s core d.ctx then 1 else 0

/-! Edits (R327). -/

/-- TGT and the symbol selector of DSEL. -/
def dselTgt (d : Dbg) : Nat := bits d.sel.toNat 27 24
def dselSym (d : Dbg) : Sel := selOf (bits d.sel.toNat 22 0)

/-- The checks of a symbol selector on a halted wave: bad, empty, or in order. -/
def dselCheck (s : State) (w : Wave) (b : Block) (q : Sel) : Option Nat :=
  if selReserved w.width q || !declared s b (selCls q) q.num then some 4
  else if isEmpty w (selCls q) q.num then some 3
  else none

/-- The target of an edit: the wave, or the ERR code. (DEDUCED, log entry 34) -/
def dbgTarget (s : State) (core : Nat) : Except Nat (Nat × Wave × Block) :=
  let d := (coreOf s core).dbg
  match dbgWave s core with
  | .error e => .error e
  | .ok r =>
    let t := dselTgt d
    if t > 3 || (dselSym d).tov then .error 4
    else if t == 0 then (match dselCheck s r.2.1 r.2.2 (dselSym d) with | some e => .error e | none => .ok r)
    else if t == 2 && slotFree r.2.1.b then .error 4
    else if t != 2 && slotFree r.2.1.a then .error 4
    else .ok r

/-- The value of a DDATA read, or the ERR code. -/
def ddataVal (s : State) (core : Nat) : Except Nat W64 :=
  let d := (coreOf s core).dbg
  match dbgTarget s core with
  | .error e => .error e
  | .ok (_, w, b) => .ok (match dselTgt d with
    | 0 => selGet w (dselSym d)
    | 1 => w64 (imgOff b.var (standAddr w.a))
    | 2 => w64 (imgOff b.var (standAddr w.b))
    | _ => w64 w.a.ctl.mode.toNat)

/-- A read of DDATA. (DEDUCED, log entry 34) -/
def ddataRead (s : State) (core : Nat) : Nat × State :=
  match ddataVal s core with
  | .error e => (0, dbgErr s core e)
  | .ok v => (v.toNat, s)

/-- A slot set to stand at an image offset; a signal that its word waited to post is dropped, and a slot that waits at ENDIF for the
other runs on from there. -/
def setPc (s : State) (wid : Nat) (w : Wave) (b : Block) (slotB : Bool) (off : Nat) : State :=
  let pc := (b.var.text + off + 2 ^ 64 - b.var.info.off0) % 2 ^ 64
  setWave { s with ops := s.ops.filter (fun e => !(e.2.wid == wid && (match e.2.body with
      | .hostsig x => x == slotB
      | _ => false))) } wid
    (modSlot w slotB (fun x => { leaveBack x with
      inClause := false, pc := pc, idx := 0, words := [], phase := 0, walked := [], park := if x.park == .joining then .run else x.park }))

/-- A write of DDATA: one that succeeds sets the altered-under-debug bit. (DEDUCED, log entry 34) -/
def ddataWrite (s : State) (core : Nat) (v : Nat) : State :=
  let d := (coreOf s core).dbg
  match dbgTarget s core with
  | .error e => dbgErr s core e
  | .ok (wid, w, b) =>
    let aud := fun (s : State) => modCtx s d.ctx (fun c => { c with aud := true })
    match dselTgt d with
    | 0 => aud (setWave s wid (selPut w (dselSym d) (w64 v)))
    | 1 => aud (setPc s wid w b false (v % 2 ^ 32))
    | 2 => aud (setPc s wid w b true (v % 2 ^ 32))
    | _ =>
      if modeOk (v % 2 ^ 32) then
        aud (setWave s wid (modSlot w false (fun x => { x with ctl := { x.ctl with mode := w32 v } })))
      else dbgErr s core 4

/-! The window (R321). -/

/-- A read of a register of a debug window. -/
def dbgRead (s : State) (core n : Nat) (who : Who) : Nat × State :=
  let d := (coreOf s core).dbg
  if !dbgRight s who d.ctx then (0, dbgErr s core 1)
  else match n with
    | 0 => (dctlWord d, s)
    | 1 => (dstatWord s core, s)
    | 2 => (d.buf.toNat, s)
    | 3 => (d.sel.toNat, s)
    | _ => ddataRead s core

/-- A write of a register of a debug window. -/
def dbgWrite (s : State) (core n : Nat) (who : Who) (v : Nat) : State :=
  let d := (coreOf s core).dbg
  if n == 0 then dctlWrite s core who v
  else if !dbgRight s who d.ctx then dbgErr s core 1
  else match n with
    | 1 => s
    | 2 => modDbg s core (fun d => { d with buf := w64 v })
    | 3 => modDbg s core (fun d => { d with sel := w64 (v &&& (2 ^ 64 - 1 - 2 ^ 23)) })
    | _ => ddataWrite s core v

/-! Grant and revocation (R322, R328). -/

/-- The right is granted: the windows on the context hold their reset values. (DEDUCED, log entry 34) -/
def dbgGrant (s : State) (c : Nat) : State :=
  { s with cores := (s.cores.map (fun e => if e.2.dbg.ctx == c then (e.1, { e.2 with dbg :=
      { stops := e.2.dbg.stops, stopCtx := e.2.dbg.stopCtx, frozen := e.2.dbg.frozen, fresh := e.2.dbg.fresh, dump := e.2.dbg.dump,
        dumpRecs := e.2.dbg.dumpRecs, more := e.2.dbg.more } }) else e)).filter (fun e => e.2 ≠ {}) }

/-- The right is revoked: every halted wave of the context goes on, as at RESUME; BKSTOP is clear, and a stop for it whose cycle has
not come is dropped, whichever context the window now names. (DEDUCED, log entry 34) -/
def dbgRevoke (s : State) (c : Nat) : State :=
  { s with
    waves := s.waves.map (fun e => if e.2.ctx == c then (e.1, { e.2 with halted := false, stepping := 0 }) else e)
    cores := (s.cores.map (fun e =>
      let d := e.2.dbg
      (e.1, { e.2 with dbg := stopEnds c { d with
        bkstop := d.bkstop && d.ctx != c
        stops := d.stops.filter (· ≠ c) } }))).filter (fun e => e.2 ≠ {}) }

/-! The events that are one write or read of the window. -/

/-- DCTL as an event writes it: CTX and BKSTOP as they stand, one command bit. (DEDUCED, log entry 34) -/
def dctlCmd (s : State) (core b : Nat) : Nat := dctlWord (coreOf s core).dbg + b

/-- STOP (R322, R323). -/
def execStop (fn core : Nat) (s : State) : Out := .next (dctlWrite s core ⟨fn, false⟩ (dctlCmd s core 1))

/-- RESUME (R322). -/
def execResume (fn core : Nat) (s : State) : Out := .next (dctlWrite s core ⟨fn, false⟩ (dctlCmd s core 2))

/-- STEP (R327). -/
def execStep (fn core : Nat) (s : State) : Out := .next (dctlWrite s core ⟨fn, false⟩ (dctlCmd s core 4))

/-- DDATA_READ (R327): the host gets the value. -/
def execDdataRead (fn core : Nat) (s : State) : Out :=
  let r := dbgRead s core 4 ⟨fn, false⟩
  .next { r.2 with hostData := w64 r.1 }

/-- DDATA_WRITE (R327). -/
def execDdataWrite (fn core : Nat) (v : W64) (s : State) : Out := .next (dbgWrite s core 4 ⟨fn, false⟩ v.toNat)

end Sys2Proof.Machine
end

