-- ==== Sys2Proof/Machine/Shares.lean ====
section
/-! DEFINITION. Demand sets, vector shares and budgets (R244, R354). -/

namespace Sys2Proof.Machine

/-- The contexts in demand on a core: those with a block resident on it, and those whose block the Harness has chosen for
it and that waits for room there (R354). -/
def demand (s : State) (core : Nat) : List Nat :=
  let here := (s.blocks.filter (fun e => e.2.core == core && e.2.res == .resident && !e.2.handler)).map (·.2.ctx)
  let ls := ((coreOf s core).wantL.filterMap (tget s.launches)).filter (fun l => l.st == .offered)
  let bs := ((coreOf s core).wantB.filterMap (tget s.blocks)).filter (fun b => b.res == .swapped || b.res == .preempted)
  (here ++ ls.map (·.ctx) ++ bs.map (·.ctx)).eraseDups

/-- share(c, k) for a demand set (R354). -/
def shareIn (s : State) (c : Nat) (d : List Nat) : Nat :=
  let x := ctxOf s c
  let sum := d.foldl (fun n e => n + (ctxOf s e).weight) 0
  min x.maxv (max x.minv (256 * x.weight / max 1 sum))

/-- share(c, k) for the demand set as it stands with the context in it (R355). -/
def shareOf (s : State) (c core : Nat) : Nat :=
  let d := demand s core
  shareIn s c (if d.contains c then d else c :: d)

/-- The budgets, largest first (R244). -/
def budgets : List Nat := [256, 192, 160, 128, 96, 64, 48, 32]
/-- The largest budget not above n; n is at least 32. -/
def budgetOf (n : Nat) : Nat := (budgets.find? (· ≤ n)).getD 32

/-- The cores whose demand set holds a context. -/
def demandCores (s : State) (c : Nat) : List Nat :=
  ((s.blocks.map (·.2.core)) ++ s.cores.map (·.1)).eraseDups.filter (fun k => (demand s k).contains c)

/-- VSHARE (R350). -/
def vshare (s : State) (c : Nat) : Nat :=
  match demandCores s c with
  | [] => budgetOf (min (ctxOf s c).maxv 256)
  | ks => budgetOf (ks.foldl (fun m k => min m (shareOf s c k)) 256)

/-- The shares of some cores are due to be computed again (R355). -/
def shareDueOn (s : State) (ks : List Nat) : State := ks.foldl (fun s k => modCore s k (fun c => { c with shareDue := true })) s

end Sys2Proof.Machine
end

