-- ==== Sys2Proof/Machine/Waits.lean ====
section
/-! DEFINITION. The ends of a parked wave's wait that its own word does not bring: polls, timeouts, the deadlock watchdog,
the answers to page requests (R185, R317 to R319, R362). -/

namespace Sys2Proof.Machine

/-! A trap at a parked word (R229). -/

/-- A slot inside a clause whose words it does not hold, with them as far as they can be fetched. -/
def withWords (s : State) (core ctx : Nat) (x : Slot) : Slot :=
  if !x.inClause || !x.words.isEmpty then x
  else match fetchWord s core ctx x x.hdr with
    | .got s1 h => { x with hdrW := h, words := (fetchMany s1 core ctx x (hdrCount h) (x.hdr + 4)).2.1 }
    | _ => x

/-- The place of the word at which a slot stands, as its own trap would record it (R229, R231). -/
def wordPlace (w : Wave) (x : Slot) : Site :=
  let v := viewAt x
  wordSite w x (viewSpec x v) (v.ops w.width v.u) (liveLanes (viewSpec x v).lanes w x.mask v.u.g) { cause := 0, sub := 0 }

/-- The place of the word at which a slot is parked or would next issue, or of the header at which it stands. -/
def siteOf (s : State) (w : Wave) (core : Nat) (x : Slot) : Site :=
  if x.inClause then wordPlace w (withWords s core w.ctx x)
  else { hdrSite x (match fetchWord s core w.ctx x x.pc with | .got _ h => h | _ => 0) with live := x.mask }

/-- The arrival of a wave parked at BAR.SYNC is undone; that of BAR.WAIT was an earlier word's (R119, R239). -/
def unarrive (s : State) (blk wid : Nat) (x : Slot) (num : Nat) : State :=
  if (opOf (rawWord x x.idx)).toNat / 2 != 51 then s
  else match (tget s.blocks blk).bind (fun b => barOf s b num) with
    | none => s
    | some y => setBar s blk { y with arr := y.arr - 1, flags := y.flags.filter (fun f => f.1 ≠ wid), ever := y.ever.erase wid }

/-- A CPYW is undone: s_d and the wave's count are as before it, and a copy that has not started is without its slice (R204, R239). -/
def uncopy (s : State) (blk wid k : Nat) : State :=
  match (tget s.blocks blk).bind (fun b => tget b.copies k) with
  | none => s
  | some c =>
    let s1 := match (c.slices.find? (fun x => x.wid == wid)).bind (·.undo) with
      | none => s
      | some (d, v, pm) => modWave s wid (fun w => { scPut (unPoison w .s d) d v with pois := (unPoison w .s d).pois ++ pm, copyK := k - 1 })
    if c.st == 0 || c.st == 3 then
      modBlock s1 blk (fun b => { b with copies := tput b.copies k { c with slices := c.slices.filter (fun x => x.wid ≠ wid) } })
    else s1

/-- A slot's wait is withdrawn, so that its word has had no effect (R239): its monitor is disarmed, its MBRECV ends undelivered, its
arrival or its part in a copy is undone. (DEDUCED, log entry 33) -/
def withdraw (s : State) (blk wid : Nat) (slotB : Bool) (x : Slot) : State :=
  match x.park with
  | .barrier _ num _ => unarrive s blk wid x num
  | .cpyw k => uncopy s blk wid k
  | .monitor _ =>
    let rest := fun (l : List Mon) => l.filter (fun m => !(m.wid == wid && m.slotB == slotB))
    { s with slices := s.slices.map (fun e => (e.1, { e.2 with mons := rest e.2.mons })), peerMons := rest s.peerMons }
  | .mbrecv op => { endOp s op with eps := s.eps.map (fun e =>
      (e.1, { e.2 with waiters := e.2.waiters.filter (· ≠ op) })) }
  | _ => s

/-- A trap at the word at which a slot stands; a sample of that word shows it (R393). -/
def parkTrap (s : State) (wid : Nat) (slotB : Bool) (t : TrapInfo) : State :=
  match tget s.waves wid with
  | none => s
  | some w =>
    let x := slotOf w slotB
    let s1 := match blockOf s w with
      | some b => if x.park == .run then s else markTrapped s wid slotB b.var.image (imgOff b.var (wordAddr x))
      | none => s
    takeTrap (withdraw s1 w.blk wid slotB x) wid slotB (siteOf s w (coreOfWave s w) x) t

/-! WAITC that polls, and its timeout (R184, R185). -/

/-- The slot of a wave whose monitor request satisfies p. -/
def monSlot (w : Wave) (p : MonReq → Bool) : Option (Bool × MonReq) :=
  match monOf w false, monOf w true with
  | some m, _ => if p m then some (false, m) else (monOf w true).bind (fun n => if p n then some (true, n) else none)
  | none, some n => if p n then some (true, n) else none
  | none, none => none

/-- The wave is parked by a trap or a page request: its other slot's wait goes on, and takes no trap of its own (R233, R317). -/
def waitHeld (w : Wave) : Bool := w.trap.isSome || holdsWave w.a || holdsWave w.b

/-- A poll that finds the condition false: the slot arms a monitor when one has become free. (DEDUCED, log entry 21; log entry 33) -/
def pollAgain (s : State) (wid : Nat) (w : Wave) (slotB : Bool) (m : MonReq) : State :=
  let g := homeSlice s m.pa
  if m.mode == 1 && monRoom s w.ctx g then
    modSlice (setWave s wid (modSlot w slotB (fun x => { x with park := .monitor { m with mode := 0 } }))) g
      (fun t => { t with mons := t.mons ++ [⟨w.ctx, wid, slotB, m.pa, m.size⟩] })
  else s

/-- The poll of a slot that polls: the word is read again at its home. A wave parked by a trap takes no other (R233). -/
def pollSlot (s : State) (wid : Nat) (slotB : Bool) : State :=
  match tget s.waves wid with
  | none => s
  | some w =>
    match if waitHeld w then none else monOf w slotB with
    | none => s
    | some m =>
      if m.mode != 1 && m.mode != 2 then s
      else
        let r := homeRead s m.pa m.size
        if (upto m.size).any (fun i => unitPois r.2 (m.pa + i)) then
          let o := (blockOf s w).map (fun b => originOf b w (wordAddr (slotOf w slotB)))
          parkTrap r.2 wid slotB { cause := 0x14, sub := 1, addr := m.va, orig := o }
        else if monCond m.cond m.size (ofBytes r.1) m.cmp then wakeMon r.2 wid slotB m (ofBytes r.1)
        else pollAgain r.2 wid w slotB m

/-- WAITC_REPOLL (R185): each slot of the wave that polls reads its word again; for a peer address, the monitor there answers.
(DEDUCED, log entry 33) -/
def execWaitcRepoll (wid : Nat) (s : State) : Out := .next (pollSlot (pollSlot s wid false) wid true)

/-- A limit in units of 10^6 rns has passed since a time; 0 disables it (R350). -/
def msPast (s : State) (since ms : Nat) : Bool := ms != 0 && since + ms * 1000000 ≤ s.now

/-- EXTERNAL_WAIT_TIMEOUT (R185). (DEDUCED, log entry 33) -/
def execExternalWaitTimeout (wid : Nat) (s : State) : Out :=
  match tget s.waves wid with
  | none => .next s
  | some w =>
    match if waitHeld w then none else monSlot w (fun m => m.mode ≥ 2 && msPast s m.since (ctxOf s w.ctx).extms) with
    | none => .next s
    | some (slotB, _) => .next (parkTrap s wid slotB { cause := 0x13, sub := 2 })

/-! The deadlock watchdog (R362). -/

/-- A slot is parked at a wait that the watchdog counts. -/
def countsAsWait (x : Slot) : Bool :=
  x.used && match x.park with
    | .barrier .. => true
    | .mbrecv _ => true
    | .cpyw _ => true
    | .monitor m => m.mode ≤ 1
    | _ => false

/-- A word of the wave is held in a gang latch. -/
def inLatch (s : State) (wid : Nat) : Bool := anyOp s wid (fun b => match b with | .mat m => m.latched | _ => false)

/-- A wave counts as waiting. -/
def waveWaits (s : State) (wid : Nat) (w : Wave) : Bool :=
  w.st == .live && !w.halted && w.trap.isNone && !holdsWave w.a && !holdsWave w.b
    && (countsAsWait w.a || countsAsWait w.b || inLatch s wid)

/-- The waiting waves of a context. -/
def ctxWaiters (s : State) (ctx : Nat) : List Nat := (s.waves.filter (fun e => e.2.ctx == ctx && waveWaits s e.1 e.2)).map (·.1)

/-- DEADLOCK_WATCHDOG_FIRE (R362): every waiting wave traps at its parked word, or, held in a latch, before its next. (DEDUCED, log
entry 33) -/
def execDeadlockWatchdogFire (ctx : Nat) (s : State) : Out :=
  let c := ctxOf s ctx
  if !c.dlStart.elim false (fun t => msPast s t c.dlms) then .next s
  else
    let s1 := (ctxWaiters s ctx).foldl (fun s i =>
      match tget s.waves i with
      | none => s
      | some w => parkTrap s i (!countsAsWait w.a && (countsAsWait w.b || !w.a.used)) { cause := 0x13, sub := 1 }) s
    .next (raiseIrq (modCtx s1 ctx (fun c => { c with watchdog := satInc c.watchdog, dlStart := none })) ctx 5 s.now)

/-! Page requests (R317 to R320). -/

/-- A slot parked at a request issues its word again. -/
def pageAgain (s : State) (wid : Nat) (slotB : Bool) (tag : Nat) : State :=
  modWave s wid (fun w => match (slotOf w slotB).park with
    | .pageReq t _ => if t == tag then modSlot w slotB rearm else w
    | _ => w)

/-- A slot parked at a request traps with the record made at the fault; a marked word's sample shows it (R227). (DEDUCED, log entry 31) -/
def pageTrap (s : State) (wid : Nat) (slotB : Bool) (tag : Nat) : State :=
  match tget s.waves wid with
  | none => s
  | some w => match (slotOf w slotB).park with
    | .pageReq t rec =>
      if t != tag then s
      else
        let s1 := deliverTrap s wid slotB (!(slotOf w slotB).inClause) rec
        match blockOf s w with
        | some b => if (slotOf w slotB).inClause then
            sampleHook s1 wid b.core w b slotB true true (bits (rec.getD 1 0).toNat 31 0) (rec.getD 11 0).toNat
          else s1
        | none => s1
    | _ => s

/-- A request ends: every joined wave issues again, or traps. (DEDUCED, log entry 31) -/
def answerPage (s : State) (ctx tag : Nat) (retry : Bool) : State :=
  match (ctxOf s ctx).preqs.find? (fun p => p.tag == tag) with
  | none => s
  | some p =>
    let s1 := modCtx s ctx (fun c => { c with preqs := c.preqs.filter (fun q => q.tag ≠ tag) })
    p.joined.foldl (fun s j => if retry then pageAgain s j.1 j.2 tag else pageTrap s j.1 j.2 tag) s1

/-- PAGE_REQUEST_TIMEOUT (R319): no answer has come within the external-wait timeout; the waves trap as on fail. (DEDUCED, log entry 31) -/
def execPageRequestTimeout (ctx tag : Nat) (s : State) : Out :=
  match (ctxOf s ctx).preqs.find? (fun p => p.tag == tag) with
  | none => .next s
  | some p => if msPast s p.time (ctxOf s ctx).extms then .next (answerPage s ctx tag false) else .next s

end Sys2Proof.Machine
end

