-- ==== Sys2Proof/Machine/Contexts.lean ====
section
/-! DEFINITION. The context record: its words, enabling, reset and teardown, pre-emption marks, page-request answers
(R349 to R351, R356, R360, R361). -/

namespace Sys2Proof.Machine

/-! The record's words as they read (R350). -/

/-- A Boolean as a bit at a place. -/
def flag (b : Bool) (i : Nat) : Nat := if b then 2 ^ i else 0

/-- BASE and LOG2N of a ring; its indices. -/
def ringWord (r : Ring) : Nat := r.base.toNat + r.log2n
def ringIdx (now : Nat) (r : Ring) : Nat := r.ridx.toNat * 2 ^ 32 + (ringSeen now r).toNat

/-- Word n of a context's record; a free context answers word 0 only. -/
def ctxWord (s : State) (c n : Nat) : Nat :=
  let x := ctxOf s c
  if x.st == 0 && n != 0 then 0
  else match n with
    | 0 => x.dbgfn * 2 ^ 16 + flag x.aud 7 + flag x.dbg 6 + flag x.replay 5 + x.st * 4 + flag x.en 0
    | 1 => x.ptroot * 2 ^ 12
    | 2 => x.handler.toNat
    | 3 => x.spillbase.toNat
    | 4 => x.spillmib * 2 ^ 32
    | 5 => x.savebase.toNat
    | 6 => x.tlease * 2 ^ 32 + x.dlease
    | 7 => x.extms * 2 ^ 32 + x.dlms
    | 8 => x.tkent * 2 ^ 48 + x.tkkib * 2 ^ 32 + x.monq * 2 ^ 16
    | 9 => x.weight * 2 ^ 40 + x.maxv * 2 ^ 16 + x.minv
    | 10 => x.tslice.toNat
    | 11 => x.vec.toNat
    | 12 => ringWord x.flog
    | 13 => ringIdx s.now x.flog
    | 14 => ringWord x.sigq
    | 15 => ringIdx s.now x.sigq
    | 16 => ringWord x.prq
    | 17 => ringIdx s.now x.prq
    | 20 => x.rebind.toNat * 2 ^ 32 + x.reclaim.toNat
    | 21 => x.spillkib.toNat * 2 ^ 48 + x.watchdog.toNat * 2 ^ 40 + x.flogdrop.toNat * 2 ^ 32 + x.firstuse.toNat * 2 ^ 16
        + x.preempted.toNat * 2 ^ 8 + x.swap.toNat
    | 22 => vshare s c
    | _ => 0

/-! Reset and teardown (R360). -/

/-- The record at its Reset column: kept fields, and the images that pyld has loaded, stay. -/
def ctxReset (x : Ctx) (st : Nat) : Ctx :=
  { aud := x.aud, en := x.en, st := st, reclaim := x.reclaim, rebind := x.rebind, swap := x.swap, preempted := x.preempted,
    firstuse := x.firstuse, flogdrop := x.flogdrop, watchdog := x.watchdog, spillkib := x.spillkib, spillRem := x.spillRem, metas := x.metas, pods := x.pods }

/-- Step 1: every queue is disabled. -/
def stopQueues (s : State) (c : Nat) : State :=
  modCtx s c (fun x => { x with queues := x.queues.map (fun q => (q.1, { q.2 with en := false, st := 0, reading := false })) })

/-- Step 2: every wave is killed; the copies that this cancels are recorded. -/
def stopWaves (s : State) (c : Nat) : State :=
  let s1 := ((s.waves.filter (fun e => e.2.ctx == c && !waveOver e.2)).map (·.1)).foldl killWave s
  s1.blocks.foldl (fun (s : State) (e : Nat × Block) =>
    if e.2.ctx != c then s
    else e.2.copies.foldl (fun (s : State) (k : Nat × Copy) =>
      if k.2.st == 3 then finishCopy s e.1 k.1 { k.2 with cause := 0x0B, slice := 0, bytes := 0, refused := (headSlice k.2).rmask }
      else s) s) s1

/-- A ticket entry that teardown and reset end: one of the context that no redeem has claimed (R175, R178, R361). -/
def endsByReset (c : Nat) (e : Ticket) : Bool := e.ctx == c && e.st != .free && e.claim.isNone

/-- Step 3: every ticket entry ends. (DEDUCED, log entry 30) -/
def stopTickets (s : State) (c : Nat) : State :=
  s.slices.foldl (fun (s : State) (g : Nat × Slice) =>
    g.2.tk.foldl (fun (s : State) (e : Nat × Ticket) => if endsByReset c e.2 then reclaimTicket s g.1 e.1 else s) s) s

/-- Steps 4 and 7: range locks and monitors go, and the quads lose their owner. (DEDUCED, log entry 30) -/
def stopEngines (s : State) (c : Nat) : State :=
  { s with
    slices := s.slices.map (fun e => (e.1, { e.2 with mons := e.2.mons.filter (fun m => m.ctx ≠ c) }))
    peerMons := s.peerMons.filter (fun m => m.ctx ≠ c)
    ropes := s.ropes.map (fun e => (e.1, { e.2 with
      locks := e.2.locks.filter (fun l => l.2.ctx ≠ c)
      quads := e.2.quads.map (fun q => (q.1, if q.2.owner == some c then { q.2 with owner := none } else q.2))
      tlb := e.2.tlb.filter (fun t => t.ctx ≠ c) })) }

/-- Step 6: translations and walks of the context go. -/
def dropXlat (s : State) (c : Nat) : State :=
  { s with
    cores := s.cores.map (fun e => (e.1, { e.2 with tlb := e.2.tlb.filter (fun t => t.ctx ≠ c) }))
    walks := s.walks.filter (fun e => e.2.ctx ≠ c) }

/-- A reset or a teardown begins: STATE 2 and steps 1 to 7. (DEDUCED, log entry 30) -/
def ctxStop (s : State) (c : Nat) (tear : Bool) : State :=
  let s1 := modCtx s c (fun x => { x with st := 2, tearing := tear, en := x.en && !tear })
  let s2 := stopEngines (stopTickets (stopWaves (stopQueues s1 c) c) c) c
  modCtx (dbgRevoke (dropXlat (stopEps s2 c tear) c) c) c (fun x => { x with preqs := [], saveValid := [], dbg := false })

/-- The latest completion time of the writes of a context's waves. -/
def ctxT (s : State) (c : Nat) : Nat := (s.waves.filter (fun e => e.2.ctx == c)).foldl (fun m e => max m e.2.lastT) 0

/-- The incomplete packets of a context complete with a status (R342, R361). (DEDUCED, log entry 30) -/
def completeAll (s : State) (c status : Nat) : State :=
  ((s.launches.filter (fun e => e.2.ctx == c && e.2.st != .done)).map (·.1)).foldl (fun s l => completePacket s l status) s

/-- CONTEXT_RESET_COMPLETE (R360): with every write of the context performed at host scope, its incomplete packets complete
with STATUS 5, the record takes its Reset column, and STATE becomes 1, or 0 after a teardown. (DEDUCED, log entry 30) -/
def execContextResetComplete (ctx : Nat) (s : State) : Out :=
  if (ctxOf s ctx).st != 2 || s.hw.any (fun e => e.2.ctx == ctx) then .next s
  else
    let p := flushCtx s ctx
    let t := max (ctxT p.1 ctx) (max (ctxOf s ctx).drainT p.2)
    if p.1.now < t then .next (modCtx p.1 ctx (fun x => { x with drainT := t }))
    else .next (modCtx (completeAll p.1 ctx 5) ctx (fun x => ctxReset x (if x.tearing then 0 else 1)))

/-! Writes of the record (R350, R351). -/

/-- A value clamped to a range. (DEDUCED, log entry 49) -/
def clamp (lo hi n : Nat) : Nat := max lo (min hi n)

/-- Word 0's RW fields and AUD as a write leaves them. -/
def word0 (x : Ctx) (v : Nat) : Ctx :=
  { x with dbgfn := min 64 (bits v 23 16), aud := x.aud && !bit v 7, dbg := bit v 6, replay := bit v 5 }

/-- A write of word 0: enabling, teardown, reset, and the debug right's grant and revocation. -/
def writeWord0 (s : State) (c v : Nat) : State :=
  let x := ctxOf s c
  let s1 := modCtx s c (fun x => word0 x v)
  let s2 := if !x.dbg && bit v 6 then dbgGrant s1 c else if x.dbg && !bit v 6 then dbgRevoke s1 c else s1
  if x.st == 0 then
    if bit v 0 then
      let s3 := modCtx s2 c (fun x => { word0 (ctxReset x 1) v with en := true })
      if bit v 1 then ctxStop s3 c false else s3
    else s2
  else if !bit v 0 then ctxStop s2 c true
  else if bit v 1 then ctxStop s2 c false
  else s2

/-- A ring's base word and its read index as written. -/
def setRing (r : Ring) (top v : Nat) : Ring := { r with base := w64 (v / 4096 * 4096), log2n := min top (bits v 4 0) }
def setRidx (r : Ring) (v : Nat) : Ring := { r with ridx := BitVec.ofNat 32 (v >>> 32) }

/-- Every rope group of a context is to be pre-empted, block by block (R356). -/
def preemptCtx (s : State) (c : Nat) : State :=
  { s with blocks := s.blocks.map (fun e =>
      if e.2.ctx == c && !e.2.handler && e.2.res == .resident then (e.1, { e.2 with preMark := true }) else e) }

/-- A write of a word above word 0 whose fields are plain values. (DEDUCED, log entry 49) -/
def plainWord (x : Ctx) (n v : Nat) : Ctx :=
  match n with
  | 1 => { x with ptroot := bits v 51 12 }
  | 2 => { x with handler := w64 v }
  | 3 => { x with spillbase := w64 v }
  | 4 => { x with spillmib := bits v 63 32 }
  | 5 => { x with savebase := w64 v }
  | 6 => { x with tlease := bits v 63 32, dlease := clamp 256 65536 (bits v 16 0) }
  | 7 => { x with extms := bits v 63 32, dlms := bits v 31 0 }
  | 8 => { x with tkent := min 16384 (bits v 63 48), tkkib := min 1024 (bits v 47 32), monq := min 4096 (bits v 31 16) }
  | 9 => { x with weight := max 1 (bits v 47 40), maxv := clamp 32 256 (bits v 31 16), minv := clamp 32 256 (bits v 15 0) }
  | 10 => { x with tslice := w64 v }
  | 11 => { x with vec := BitVec.ofNat 48 v }
  | 12 => { x with flog := setRing x.flog 16 v }
  | 13 => { x with flog := setRidx x.flog v }
  | 14 => { x with sigq := setRing x.sigq 16 v }
  | 15 => { x with sigq := setRidx x.sigq v }
  | 16 => { x with prq := setRing x.prq 16 v }
  | 17 => { x with prq := setRidx x.prq v }
  | 20 => { x with reclaim := BitVec.ofNat 32 v, rebind := BitVec.ofNat 32 (v >>> 32) }
  | 21 => { x with swap := BitVec.ofNat 8 v, preempted := BitVec.ofNat 8 (v >>> 8), firstuse := BitVec.ofNat 16 (v >>> 16),
                   flogdrop := BitVec.ofNat 8 (v >>> 32), watchdog := BitVec.ofNat 8 (v >>> 40), spillkib := BitVec.ofNat 16 (v >>> 48), spillRem := 0 }
  | _ => x

/-- A write of word n by the owner. A free context takes word 0 only; one in reset takes AUD and the counters only
(R350, R361). (DEDUCED, log entry 49) -/
def ctxWrite (s : State) (c n v : Nat) : State :=
  let x := ctxOf s c
  if x.st == 0 && n != 0 then s
  else if x.st == 2 then
    (if n == 0 then modCtx s c (fun x => { x with aud := x.aud && !bit v 7 })
     else if n == 20 || n == 21 then modCtx s c (fun x => plainWord x n v)
     else s)
  else match n with
    | 0 => writeWord0 s c v
    | 18 => (match bits v 1 0 with
        | 1 => answerPage s c (bits v 27 16) true
        | 2 => answerPage s c (bits v 27 16) false
        | _ => s)
    | 19 => if bit v 0 then preemptCtx s c else s
    | _ => let s1 := modCtx s c (fun x => plainWord x n v)
           if n == 9 then shareDueOn s1 (demandCores s1 c) else s1

/-- An agent acts for the owner of a context, on a device that answers (R349, R402, R410). (DEDUCED, log entry 24) -/
def isOwner (s : State) (who : Who) (c : Nat) : Bool :=
  ownerFn s c == who.fn && c < Config.contexts && s.dev.answering && s.dev.bootOk

/-! The events that are one write of the record. -/

/-- A function's write of a word of a record; only the owner reaches it (R349). -/
def fnCtxWrite (s : State) (fn c n v : Nat) : State := if isOwner s ⟨fn, false⟩ c then ctxWrite s c n v else s

/-- CONTEXT_ENABLE (R350): word 0 with EN. -/
def execContextEnable (fn ctx : Nat) (v : W64) (s : State) : Out := .next (fnCtxWrite s fn ctx 0 (v ||| 1).toNat)

/-- CONTEXT_TEARDOWN (R360): word 0 without EN. -/
def execContextTeardown (fn ctx : Nat) (v : W64) (s : State) : Out := .next (fnCtxWrite s fn ctx 0 (v &&& ~~~1).toNat)

/-- FLR (R360): word 0 with FLR. -/
def execFlr (fn ctx : Nat) (v : W64) (s : State) : Out := .next (fnCtxWrite s fn ctx 0 (v ||| 2).toNat)

/-- DEBUG_GRANT (R321, R322): word 0 with DBG. -/
def execDebugGrant (fn ctx : Nat) (v : W64) (s : State) : Out := .next (fnCtxWrite s fn ctx 0 (v ||| 0x40).toNat)

/-- DEBUG_REVOKE (R328): word 0 without DBG. -/
def execDebugRevoke (fn ctx : Nat) (v : W64) (s : State) : Out := .next (fnCtxWrite s fn ctx 0 (v &&& ~~~0x40).toNat)

/-- PREEMPT (R356): word 19. -/
def execPreempt (fn ctx : Nat) (s : State) : Out := .next (fnCtxWrite s fn ctx 19 1)

/-- PAGE_REQUEST_RETRY (R318): word 18 with ANSWER 1. -/
def execPageRequestRetry (fn ctx tag : Nat) (s : State) : Out := .next (fnCtxWrite s fn ctx 18 (tag % 4096 * 65536 + 1))

/-- PAGE_REQUEST_FAIL (R318): word 18 with ANSWER 2. -/
def execPageRequestFail (fn ctx tag : Nat) (s : State) : Out := .next (fnCtxWrite s fn ctx 18 (tag % 4096 * 65536 + 2))

end Sys2Proof.Machine
end

