-- ==== Sys2Proof/Machine/Fit.lean ====
section
/-! DEFINITION. Whether a block fits a core at a budget: the demands and totals of R243 (R244). -/

namespace Sys2Proof.Machine

/-- Bytes of scratchpad of a block, each buffer at the offset that R304 allows it. (DESIGN CHOICE, log entry 14) -/
def scratchOf (m : Meta) : Nat := packLen (bufPacks m)

/-- Barrier slots of a scope. -/
def barSlots (m : Meta) (rope : Bool) : Nat :=
  packLen ((m.bars.zipIdx.filter (fun e => e.1.rope == rope)).map (fun e => ⟨1, 1, livesOf m .bar e.2, 0⟩))

/-! Demands (R243). -/

/-- Resident wave positions, and register-file rows at a budget. -/
def positions (m : Meta) (width : Nat) : Nat := m.waves * (width / 32)
def rowsOf (m : Meta) (width v : Nat) : Nat := m.waves * (v * (width / 32) + (v + 31) / 32)

/-- Rows of the handler reservation for the widest wave of a context. -/
def handlerRows (width : Nat) : Nat := 32 * (width / 32) + 2

/-- What a core holds of one block. -/
structure Load where
  ctx : Nat
  width : Nat
  pos : Nat
  rows : Nat
  scratch : Nat
  bars : Nat
deriving DecidableEq, Repr

/-- The demand of a block of a variant at a width and budget. (DESIGN CHOICE, log entry 14) -/
def loadOf (ctx width v : Nat) (m : Meta) : Load := ⟨ctx, width, positions m width, rowsOf m width v, scratchOf m, barSlots m false⟩

/-- The budget that a block is to be found room for: one marked for a larger one keeps that (R250). -/
def heldBudget (b : Block) : Nat := if b.mark then max b.budget b.newBudget else b.budget

/-- The loads of the blocks resident on a core, apart from one. -/
def loadsOn (s : State) (core skip : Nat) : List Load :=
  (s.blocks.filter (fun e => e.1 != skip && e.2.core == core && e.2.res == .resident && !e.2.handler)).map
    (fun e => loadOf e.2.ctx e.2.width (heldBudget e.2) e.2.var.info)

/-- The handler reservations of the contexts of some loads: each at its widest wave. -/
def reservedRows (ls : List Load) : Nat :=
  ((ls.map (·.ctx)).eraseDups).foldl (fun n c =>
    n + handlerRows ((ls.filter (fun l => l.ctx == c)).foldl (fun m l => max m l.width) 0)) 0

/-- The loads are within a core's totals. -/
def within (ls : List Load) : Bool :=
  let sum := fun (f : Load → Nat) => ls.foldl (fun n l => n + f l) 0
  decide (sum (·.pos) ≤ 32) && decide (sum (·.rows) + reservedRows ls ≤ 2048) && decide (sum (·.scratch) ≤ 262144)
    && decide (sum (·.bars) ≤ 64)

/-- A launch's block fits an empty core at budget 32, and its rope barriers an empty rope (R244). (DESIGN CHOICE, log entry 14) -/
def fitsEmpty (ctx width : Nat) (m : Meta) : Bool := within [loadOf ctx width 32 m] && barSlots m true ≤ 32

/-- The budget, at most `cap`, at which a block is bound on a core, none when it fits at no budget (R244); `others` are
loads placed with it. (DESIGN CHOICE, log entry 14) -/
def bindAt (s : State) (core skip ctx width cap : Nat) (m : Meta) (others : List Load) : Option Nat :=
  budgets.find? (fun v => v ≤ cap && v ≤ shareOf s ctx core && within (loadOf ctx width v m :: (loadsOn s core skip ++ others)))

end Sys2Proof.Machine
end

