-- ==== Sys2Proof/Machine/Queues.lean ====
section
/-! DEFINITION. Queues and packets: registers, reads, acceptance, readiness, TLB invalidation (R335 to R344). -/

namespace Sys2Proof.Machine

/-! Registers (R335, R336). -/

/-- CDONE and RIDX of a queue. -/
def cdone (q : Queue) : Nat := (q.cd + 65535) % 65536
def ridx (q : Queue) : Nat := q.rd % 65536

/-- A register of a queue as it reads; a free context's page answers word 0 of its record only (R350). -/
def queueWord (s : State) (c q n : Nat) : Nat :=
  let x := queueOf (ctxOf s c) q
  if (ctxOf s c).st == 0 then 0
  else match n with
    | 0 => x.base.toNat
    | 1 => (if x.en then 256 else 0) + x.log2n
    | 2 => x.widx.toNat
    | _ => cdone x * 2 ^ 32 + ridx x * 2 ^ 16 + x.st

/-- STATE changes to 2 or 3, and the queue's interrupt is raised (R337, R353). (DEDUCED, log entry 32) -/
def stallQueue (s : State) (c q st : Nat) : State :=
  raiseIrq (modQueue s c q (fun x => { x with st := st, reading := false, tries := 0 })) c 1 s.now

/-- The packets of a queue's earlier enablings count apart from those of the next. -/
def ageLaunches (s : State) (c q : Nat) : State :=
  { s with launches := s.launches.map (fun e =>
      if e.2.ctx == c && e.2.queue % 16 == q then (e.1, { e.2 with queue := e.2.queue + 16 }) else e) }

/-- A queue is enabled: its indices, its sequence and its STATE start afresh; BASE and LOG2N govern from here on. (DEDUCED, log entry 32) -/
def enableQueue (s : State) (c q : Nat) : State :=
  let s1 := modQueue (ageLaunches s c q) c q (fun x => { x with
    en := true, rd := 0, widx := 0, cd := 0, fin := [], st := 1, gBase := x.base, gLog := x.log2n, deadLog := false,
    reading := false, tries := 0, nextRd := 0 })
  let x := queueOf (ctxOf s1 c) q
  if 4 ≤ x.log2n && x.log2n ≤ 16 then s1 else stallQueue (modQueue s1 c q (fun x => { x with deadLog := true })) c q 3

/-- A write of QCTL (R335). -/
def writeQctl (s : State) (c q v : Nat) : State :=
  let was := (queueOf (ctxOf s c) q).en
  let s1 := modQueue s c q (fun x => { x with log2n := bits v 4 0 })
  if bit v 8 then (if was then s1 else enableQueue s1 c q)
  else modQueue s1 c q (fun x => { x with en := false, st := 0, deadLog := false, reading := false, tries := 0 })

/-- A doorbell: a WIDX beyond the slots is ignored; one for a queue that a bad LOG2N has put in STATE 3 is held and does not
restart it; a stalled queue reads again at RIDX (R335 to R337). -/
def ringDoor (s : State) (c q v : Nat) : State :=
  let x := queueOf (ctxOf s c) q
  let w : BitVec 16 := BitVec.ofNat 16 v
  if x.deadLog then modQueue s c q (fun x => { x with widx := w })
  else if x.en && (w - BitVec.ofNat 16 x.rd).toNat > 2 ^ x.gLog then s
  else modQueue s c q (fun x => { x with
    widx := w, st := if x.st ≥ 2 then 1 else x.st, reading := x.reading && x.st < 2, tries := if x.st ≥ 2 then 0 else x.tries })

/-- A write of a register of a queue. A free context ignores it, and one in reset a doorbell (R350, R361). -/
def queueWrite (s : State) (c q n v : Nat) : State :=
  if (ctxOf s c).st == 0 then s
  else match n with
    | 0 => modQueue s c q (fun x => { x with base := w64 v })
    | 1 => writeQctl s c q v
    | 2 => if (ctxOf s c).st == 1 then ringDoor s c q v else s
    | _ => s

/-- A 32-bit write: the other half of a register stays, and its effects follow a write of the low half alone. -/
def queueWrite32 (s : State) (c q n : Nat) (high : Bool) (v : Nat) : State :=
  let old := queueWord s c q n
  if high then (if n == 0 then queueWrite s c q 0 (v % 2 ^ 32 * 2 ^ 32 + old % 2 ^ 32) else s)
  else queueWrite s c q n (old / 2 ^ 32 * 2 ^ 32 + v % 2 ^ 32)

/-- A function's write of a register of a queue. -/
def fnQueueWrite (s : State) (fn c q n v : Nat) : State := if isOwner s ⟨fn, false⟩ c && q < 16 then queueWrite s c q n v else s

/-- QUEUE_ENABLE (R335): QCTL with EN. -/
def execQueueEnable (fn ctx q : Nat) (v : W64) (s : State) : Out := .next (fnQueueWrite s fn ctx q 1 (v ||| 0x100).toNat)

/-- QUEUE_DISABLE (R335): QCTL without EN. -/
def execQueueDisable (fn ctx q : Nat) (v : W64) (s : State) : Out := .next (fnQueueWrite s fn ctx q 1 (v &&& ~~~0x100).toNat)

/-- QDOOR (R336). -/
def execQdoor (fn ctx q : Nat) (v : W64) (s : State) : Out := .next (fnQueueWrite s fn ctx q 2 v.toNat)

/-! Packets (R338). -/

/-- The words of a packet. -/
def pw (p : List Nat) (i : Nat) : Nat := p.getD i 0

/-- Bits that every kind reserves, or that a kind other than launch does. -/
def packetReserved (p : List Nat) (kind : Nat) : Bool :=
  bits (pw p 3) 52 32 != 0 || bits (pw p 5) 31 0 != 0 || bits (pw p 7) 62 60 != 0 || bits (pw p 7) 39 32 != 0
    || bits (pw p 7) 30 28 != 0 || bits (pw p 7) 7 0 != 0
    || (kind != 1 && (bits (pw p 0) 42 33 != 0 || bits (pw p 0) 31 0 != 0 || bits (pw p 3) 63 53 != 0 || bits (pw p 3) 31 0 != 0
        || bits (pw p 5) 63 32 != 0))
    || (kind == 2 && (pw p 1 != 0 || pw p 2 != 0))

/-- A packet of the right sequence that is bad (R337, R338). (DEDUCED, log entry 32) -/
def packetBad (p : List Nat) : Bool :=
  let kind := bits (pw p 0) 47 44
  kind == 0 || kind > 3 || packetReserved p kind || pw p 6 % 16 != 0
    || (kind == 1 && (bits (pw p 3) 63 53 > 1024 || pw p 2 % 16 != 0 || bits (pw p 0) 31 0 == 0
        || bits (pw p 0) 31 0 > 16777216 || (bit (pw p 0) 40 && !modeOk (bits (pw p 3) 31 0))))

/-- A packet as the machine keeps it. -/
def packetOf (ctx q k : Nat) (p : List Nat) (args : Option (List Byte)) (replay : Option Nat) : Launch :=
  let w0 := pw p 0
  let dep := fun v dq ds => if bit (pw p 7) v then [(dq, ds)] else []
  { ctx := ctx, queue := q, k := k, kind := bits w0 47 44, ord := bit w0 43, fuse := bit w0 42,
    width := if bit w0 41 then 64 else 32, mode := if bit w0 40 then w32 (pw p 3) else 0, prio := bits w0 39 35,
    opp := bits w0 34 33, sig := bit w0 32, nblocks := bits w0 31 0, kdesc := pw p 1, args := args.getD [],
    argsBad := args.isNone, start := pw p 4, seed := w32 (bits (pw p 5) 63 32), comp := pw p 6,
    deps := dep 63 (bits (pw p 7) 59 56) (bits (pw p 7) 55 40) ++ dep 31 (bits (pw p 7) 27 24) (bits (pw p 7) 23 8),
    tlbVa := pw p 1, tlbLen := pw p 2, replay := replay }

/-- The argument bytes of a launch, copied at acceptance; none when they cannot be read (R339). -/
def argsAt (s : State) (ctx : Nat) (p : List Nat) : Option (List Byte) :=
  let n := bits (pw p 3) 63 53
  if bits (pw p 0) 47 44 != 1 || n == 0 then some [] else devRead s ctx (pw p 2) n

/-- The translations of a range of a context go from every TLB, with the walks that wait words have made (R316, R344);
length 0 means all. -/
def dropRange (s : State) (c va n : Nat) : State :=
  let hits := fun (a m : Nat) => n == 0 || overlap a m va n
  let keep := fun (t : TlbEnt) => !(t.ctx == c && hits t.va (2 ^ t.leaf.lg))
  let clear := fun (x : Slot) => { x with walked := x.walked.filter (fun r => !hits (r.page * 65536) 65536) }
  { s with
    cores := s.cores.map (fun e => (e.1, { e.2 with tlb := e.2.tlb.filter keep }))
    ropes := s.ropes.map (fun e => (e.1, { e.2 with tlb := e.2.tlb.filter keep }))
    walks := s.walks.filter (fun e => !(e.2.ctx == c && hits (e.2.page * 65536) 65536))
    waves := s.waves.map (fun e => if e.2.ctx == c then (e.1, { e.2 with a := clear e.2.a, b := clear e.2.b }) else e) }

/-- A WAITC that waits on an address of an invalidated range reads through a translation made anew: where its page is not what it
was, it is disarmed and its word issues again (R316, R344). (DEDUCED, log entry 32) -/
def retranslate (s : State) (c va n : Nat) : State :=
  let stale := fun (w : Wave) (b : Bool) => match monOf w b with
    | none => false
    | some m => (n == 0 || overlap m.va m.size va n) && (walkTable s c m.va).elim true (fun l => !l.rd || leafPa s l m.va != m.pa)
  let fix := fun (w : Wave) (b : Bool) => if stale w b then modSlot w b (fun x => { x with park := .run, phase := 0, walked := [] }) else w
  let gone := fun (m : Mon) => m.ctx == c && ((tget s.waves m.wid).elim false (fun w => stale w m.slotB))
  { s with
    waves := s.waves.map (fun e => if e.2.ctx == c then (e.1, fix (fix e.2 false) true) else e)
    slices := s.slices.map (fun e => (e.1, { e.2 with mons := e.2.mons.filter (fun m => !gone m) }))
    peerMons := s.peerMons.filter (fun m => !gone m) }

/-- A packet is accepted: RIDX advances; RPEN makes a launch a replay and clears (R339, R344, R396). (DEDUCED, log entry 32) -/
def acceptPacket (s : State) (c q : Nat) (p : List Nat) : State :=
  let x := ctxOf s c
  let k := (queueOf x q).rd
  let launch := bits (pw p 0) 47 44 == 1
  let l := packetOf c q k p (argsAt s c p) (if launch && x.rpen then some x.rpblock.toNat else none)
  let s1 := modQueue { s with launches := tput s.launches s.nextId l, nextId := s.nextId + 1 } c q (fun y => { y with
    rd := y.rd + 1, reading := false, tries := 0 })
  let s2 := if launch && x.rpen then modCtx s1 c (fun y => { y with rpen := false }) else s1
  if l.kind == 3 then retranslate (dropRange s2 c l.tlbVa l.tlbLen) c l.tlbVa l.tlbLen else s2

/-- Whether a queue has a slot to read. -/
def slotDue (s : State) (c q : Nat) : Bool :=
  let x := queueOf (ctxOf s c) q
  (ctxOf s c).st == 1 && x.en && x.st == 1 && ridx x != x.widx.toNat

/-- The address of the slot at RIDX. -/
def slotVa (x : Queue) : Nat := (x.gBase.toNat + 64 * (x.rd % 2 ^ x.gLog)) % 2 ^ 64

/-- The read of the slot at RIDX (R337): an unreadable slot or a bad packet stalls the queue; another sequence leaves the
slot to be read again; else the packet is accepted. -/
def readSlot (s : State) (c q : Nat) (mismatch : State → State) : State :=
  let x := queueOf (ctxOf s c) q
  match devWord s c (slotVa x) with
  | none => stallQueue s c q 3
  | some w0 =>
    if bits w0 63 48 != ridx x then mismatch s
    else match devRead s c (slotVa x) 64 with
      | none => stallQueue s c q 3
      | some bs =>
        let p := (upto 8).map (fun i => ofBytes ((bs.drop (8 * i)).take 8))
        if packetBad p then stallQueue s c q 3 else acceptPacket s c q p

/-- PACKET_READ (R337). -/
def execPacketRead (ctx q : Nat) (s : State) : Out :=
  if !slotDue s ctx q || (queueOf (ctxOf s ctx) q).reading then .next s
  else .next (readSlot s ctx q (fun s => modQueue s ctx q (fun x => { x with reading := true, tries := 0, nextRd := s.now + 156 })))

/-- PACKET_REREAD (R337): word 0 is read again, up to 64 times; a packet that stays torn stalls the queue. -/
def execPacketReread (ctx q : Nat) (s : State) : Out :=
  let x := queueOf (ctxOf s ctx) q
  if !slotDue s ctx q || !x.reading || s.now < x.nextRd then .next s
  else .next (readSlot s ctx q (fun s =>
    if x.tries + 1 ≥ 64 then stallQueue s ctx q 2
    else modQueue s ctx q (fun x => { x with tries := x.tries + 1, nextRd := s.now + 156 })))

/-! Readiness (R339, R342). -/

/-- Every dependence, ORD and START of a packet is met. -/
def packetReady (s : State) (l : Launch) : Bool :=
  l.deps.all (fun d => (cdone (queueOf (ctxOf s l.ctx) d.1) + 65536 - d.2) % 65536 < 32768)
    && (!l.ord || s.launches.all (fun e => !(e.2.ctx == l.ctx && e.2.queue == l.queue && decide (e.2.k < l.k) && e.2.st != .done)))
    && l.start ≤ s.now

/-- A launch's place among the offers: by the time it became ready, then by PRIO (R339). -/
def offer (s : State) (lid : Nat) (l : Launch) : State :=
  let before := fun (i : Nat) => (tget s.launches i).elim true (fun e => e.readyAt < s.now || e.prio ≤ l.prio)
  { modLaunch s lid (fun l => { l with st := .offered, readyAt := s.now }) with
    offers := s.offers.filter before ++ [lid] ++ s.offers.filter (fun i => !before i) }

/-- The variant that a launch runs, or the STATUS of its refusal (R342). -/
def resolve (s : State) (l : Launch) : Except Nat Variant :=
  if l.argsBad then .error 6
  else match variantAt s l.ctx l.kdesc with
    | none => .error 4
    | some v =>
      if !accepts v l.width then .error 2
      else if !fitsEmpty l.ctx l.width v.info then .error 3
      else .ok v

/-- LAUNCH_READY (R339 to R342): a launch is offered for placement or refused, a marker completes, a TLB packet waits for
the accesses that came before it. A replay of a block that the launch does not have ends at once (R396). -/
def execLaunchReady (lid : Nat) (s : State) : Out :=
  match tget s.launches lid with
  | none => .next s
  | some l =>
    if l.st != .waiting || (ctxOf s l.ctx).st != 1 || !packetReady s l then .next s
    else match l.kind with
      | 1 => (match resolve s l with
          | .error st => .next (completePacket s lid st)
          | .ok v =>
            if l.replay.elim false (fun b => decide (l.nblocks ≤ b)) then .next (completePacket s lid 1)
            else .next (offer (modLaunch s lid (fun l => { l with var := some v, fuse := l.fuse || v.info.fuse })) lid l))
      | 2 => .next (completePacket s lid 0)
      | _ => .next (modLaunch s lid (fun l => { l with st := .placed }))

/-- An access of a context that may use a translation read before a packet was accepted. -/
def oldAccess (s : State) (c lid : Nat) : Bool :=
  s.ops.any (fun e => decide (e.1 < lid) && (tget s.waves e.2.wid).elim false (fun w => w.ctx == c) && (match e.2.body with
      | .load .. => true
      | .store .. => true
      | .atom .. => true
      | .ldt .. => true
      | _ => false))
    || s.hw.any (fun e => decide (e.1 < lid) && e.2.ctx == c)
    || s.slices.any (fun g => g.2.tk.any (fun e => e.2.ctx == c && e.2.st == .pending && e.2.lines.length < tkLines e.2))

/-- TLB_INVALIDATION_COMPLETE (R344, R361). (DEDUCED, log entry 32) -/
def execTlbInvalidationComplete (lid : Nat) (s : State) : Out :=
  match tget s.launches lid with
  | none => .next s
  | some l =>
    if l.kind != 3 || l.st != .placed || (ctxOf s l.ctx).st != 1 || oldAccess s l.ctx lid then .next s
    else .next (completePacket s lid 0)

end Sys2Proof.Machine
end

