-- ==== Sys2Proof/Machine/Device.lean ====
section
/-! DEFINITION. The device block: its words, resets, the domain, the time base, firmware, attestation, the roster and
binding sets (R298, R347, R400, R403 to R413). -/

namespace Sys2Proof.Machine

/-! The firmware (R410). -/

/-- The running firmware. -/
def fwOf (d : Dev) : List Byte := d.fw.getD Config.factory

/-- The security version of a firmware: the least of its three images'. (DESIGN CHOICE, log entry 9) -/
def svnOf (fw : List Byte) : Nat :=
  let v := fun i => Config.fwSvn (Config.fwPart fw i) % 65536
  min (v 0) (min (v 1) (v 2))

/-- The check of a firmware against Baermaux's key: the key hashes to the fused value, and each image's signature verifies and
its version is at least the fused minimum (R410). -/
def fwOk (d : Dev) (fw : List Byte) : Bool :=
  sha384 Config.fwKey == Config.fwKeyHash && (upto 3).all (fun i =>
    let p := Config.fwPart fw i
    ecdsaOk (Config.fwSig p) p Config.fwKey && d.svnMin ≤ Config.fwSvn p % 65536)

/-! The block as it reads (R403, R406, R408, R410, R412). -/

/-- Word n of the device block. -/
def dblkWord (s : State) (n : Nat) : Nat :=
  let d := s.dev
  match n with
  | 0 => Config.model * 2 ^ 48 + d.stepping * 2 ^ 40 + svnOf (fwOf d)
  | 2 => d.localNext
  | 3 => d.ebase.toNat + d.elog
  | 4 => d.eridx.toNat * 2 ^ 32 + d.ewidx.toNat
  | 5 => d.edrop.toNat
  | 8 => d.tsrc * 2 ^ 62 + d.port * 2 ^ 53 + d.pdom * 2 ^ 40 + flag d.locked 0
  | 9 => d.offset.toNat
  | 11 => d.tinit.toNat
  | 16 => d.domid.toNat * 2 ^ 48 + d.domsize * 2 ^ 32 + d.links.toNat
  | 17 => d.devnum.toNat
  | 18 => d.rostaddr.toNat + d.rcount * 8 + d.rerr * 2
  | 19 => d.adrop.toNat
  | 20 => (tgetD d.member 0 0).toNat
  | 21 => (tgetD d.member 1 0).toNat
  | 22 => (tgetD d.member 2 0).toNat
  | 23 => (tgetD d.member 3 0).toNat
  | 40 => d.fwaddr.toNat + flag d.fwok 0
  | 41 => d.fwlen.toNat
  | 42 => d.raddr.toNat + flag d.att.isSome 1
  | 43 => d.clen * 2 ^ 32 + d.aerr
  | _ => if 64 ≤ n && n < 192 then tgetD d.fn (n - 64) 0 else 0

/-- A word of the block responds: after a failed verification only words 0 and 40 to 43 (R410). (DEDUCED, log entry 24) -/
def dblkAnswers (s : State) (n : Nat) : Bool := s.dev.answering && (s.dev.bootOk || n == 0 || (40 ≤ n && n ≤ 43))

/-! Errors (R400). -/

/-- An error record appended to the physical function's ring, or dropped and counted. An ELOG2N above 16 acts as 16. (DESIGN CHOICE,
log entry 53) -/
def errPush (s : State) (pa unit sev ctx : Nat) : State :=
  let d := s.dev
  let lg := min 16 d.elog
  let at_ := d.ebase.toNat + 32 * (d.ewidx.toNat % 2 ^ lg)
  if lg == 0 || (d.ewidx - d.eridx).toNat == 2 ^ lg || !isStorage s at_ then
    modDev s (fun d => { d with edrop := satInc d.edrop })
  else
    let ws := [w64 pa, w64 (unit * 2 ^ 56 + sev * 2 ^ 48 + ctx * 2 ^ 41), nowW s, 0]
    modDev (engineWrite s at_ (ws.flatMap (fun w => bytesOf 8 w.toNat))).1 (fun d => { d with ewidx := d.ewidx + 1 })

/-! Resets (R405). -/

/-- What device reset leaves of the device block's state: the fused and measured identity, the firmware staged in a check that passed
taken up, TINIT, and the memory configuration put in force. (DESIGN CHOICE, log entry 3; log entry 9; log entry 23; log entry 24) -/
def devAfterReset (d : Dev) : Dev :=
  { stepping := d.stepping, svnMin := d.svnMin, fw := d.staged.orElse (fun _ => d.fw)
    localNext := d.localNext, localGiB := d.localNext, tinit := d.tinit, answering := false }

/-- Device reset: contexts, tables, caches, ropes, slices and episodes at their reset values; memory stays; the counter
takes TINIT. The model's own counters and its agenda go on (log entries 4 and 23). (DESIGN CHOICE, log entry 3) -/
def resetDevice (s : State) : State :=
  { now := s.dev.tinit.toNat, dev := devAfterReset s.dev, mem := s.mem, poison := s.poison
    ropes := s.ropes.filterMap (fun e => if e.2.tj == 0 then none else some (e.1, { tj := e.2.tj }))
    irqSent := s.irqSent, agenda := s.agenda, fresh := s.fresh, nextId := s.nextId, hostData := s.hostData }

/-- DEVICE_RESET (R405): a conventional reset of the link. (DESIGN CHOICE, log entry 23) -/
def execDeviceReset (s : State) : Out := .next (resetDevice s)

/-- POWER_ON: the machine at power-on, whose device reset follows; what is fused and the firmware stay, all else is lost
(R403, R405, DESIGN CHOICE, log entry 23). (DESIGN CHOICE, log entry 3; log entry 9) -/
def execPowerOn (s : State) : Out :=
  let d := s.dev
  .next (resetDevice { dev := { stepping := d.stepping, svnMin := d.svnMin, staged := d.staged, fw := d.fw }
                       agenda := s.agenda, fresh := s.fresh, nextId := s.nextId })

/-- BOOT_ROM_VERIFICATION (R410): the firmware is checked, and the device answers. (DESIGN CHOICE, log entry 3) -/
def execBootRomVerification (_op : Unit) (s : State) : Out :=
  if s.dev.answering then .next s
  else .next (modDev s (fun d => { d with answering := true, bootOk := fwOk d (fwOf d) }))

/-- The contexts that a function-level reset of a function resets: those it holds, for the physical function all (R405). -/
def resetCtxs (s : State) (fn : Nat) : List Nat :=
  (upto Config.contexts).filter (fun c => (ctxOf s c).st == 1 && (fn == 0 || ownerFn s c == fn))

/-- FUNCTION_LEVEL_RESET (R405): R360 for each context; for the physical function the episode records too. -/
def execFunctionLevelReset (fn : Nat) (s : State) : Out :=
  let s1 := (resetCtxs s fn).foldl (fun s c => ctxStop s c false) s
  .next (if fn == 0 then
      { s1 with eps := s1.eps.filterMap (fun e => if e.2.redeems.isEmpty then none
          else some (e.1, { redeems := e.2.redeems.map (fun r => { r with discard := true }) })) }
    else s1)

/-! The domain (R401, R406, R407). -/

/-- The lines of a departed device go from every L1: loads of them return poison, stores kept there are dropped (R401, R407). -/
def dropPeer (s : State) (gone : Nat → Bool) : State :=
  { s with l1 := s.l1.filterMap (fun c =>
      let t := c.2.filter (fun l => match regionOf s (l.1 * 128) with
        | .peer d => !gone d
        | _ => true)
      if t.isEmpty then none else some (c.1, t)) }

/-- A write of word 16: DOMSIZE joins or leaves; DOMID only outside a domain. A DOMSIZE above 256 is held as written and acts as
any size does, since the members are those that MEMBER names. (DESIGN CHOICE, log entry 53) -/
def writeDomain (s : State) (v : Nat) : State :=
  let size := bits v 40 32
  if s.dev.domsize == 0 then
    modDev s (fun d => { d with domid := BitVec.ofNat 16 (bits v 63 48), domsize := size, lost := [] })
  else if size == 0 then
    let s1 := dropPeer s (fun _ => true)
    modDev { s1 with slices := s1.slices.map (fun e => (e.1, { e.2 with farMons := [] })) } (fun d => { d with domsize := 0, lost := [] })
  else modDev s (fun d => { d with domsize := size })

/-- A write of MEMBER word i: a device that it takes out is treated as departed (R406, R407). -/
def writeMember (s : State) (i v : Nat) : State :=
  modDev (dropPeer s (fun d => d / 64 == i && !bit v (d % 64))) (fun d => { d with member := tset 0 d.member i (w64 v) })

/-- PEER_LOSS (R401, R407): a member is found to have departed. -/
def execPeerLoss (dev : Nat) (s : State) : Out :=
  if !peerHere s dev || dev == s.dev.devnum.toNat then .next s
  else .next (modDev (dropPeer s (· == dev)) (fun d => { d with lost := d.lost ++ [dev] }))

/-- FABRIC_PORT_TRAINED and FABRIC_PORT_FAILS (R406): LINKS. -/
def execFabricPortTrained (port : Nat) (s : State) : Out :=
  .next (if port < 18 then modDev s (fun d => { d with links := d.links ||| (1#18 <<< port) }) else s)
def execFabricPortFails (port : Nat) (s : State) : Out :=
  .next (if port < 18 then modDev s (fun d => { d with links := d.links &&& ~~~(1#18 <<< port) }) else s)

/-! The time base (R408, R409). -/

/-- A write of word 8: a change of TSRC stops the correction in progress; the offsets measured before it, and LOCKED that tells of
them, stand; a change of TSRC, PORT or PDOM drops the exchange in progress. A PORT above 17 is held as written and names no port.
(DEDUCED, log entry 25; log entry 53) -/
def writeTime (s : State) (v : Nat) : State :=
  let src := bits v 63 62
  let same := src == s.dev.tsrc && bits v 57 53 == s.dev.port && bits v 47 40 == s.dev.pdom
  modDev s (fun d => { d with
    tsrc := src, port := bits v 57 53, pdom := bits v 47 40, corr := if src == d.tsrc then d.corr else 0
    slewRem := if src == d.tsrc then d.slewRem else 0
    ptpT1 := if same then d.ptpT1 else none, ptpT2 := if same then d.ptpT2 else none, ptpT3 := if same then d.ptpT3 else none })

/-- A write of HOSTADJ: under TSRC 2, the correction to apply. (DEDUCED, log entry 25) -/
def writeHostadj (s : State) (v : W64) : State :=
  if s.dev.tsrc == 2 then modDev s (fun d => { d with corr := v.toInt, slewRem := 0 }) else s

/-- The offset from the master that a measurement gives: half the difference between the delays of the master's Sync, sent at t1
and received at t2, and of the request, sent at t3 and received at t4; saturating (R408). (DEDUCED, log entry 25) -/
def ptpOffset (t1 t2 t3 t4 : W64) : Int :=
  let d : Int := (((t2.toNat : Int) - t1.toNat) - ((t4.toNat : Int) - t3.toNat)) / 2
  max (-(2 ^ 63)) (min (2 ^ 63 - 1) d)

/-- An offset is measured: its correction replaces the earlier one, and LOCKED tells of the last 16 (R408, R409). -/
def measured (d : Dev) (o : Int) : Dev :=
  let n := if -1000 ≤ o ∧ o ≤ 1000 then min 16 (d.ptpGood + 1) else 0
  { d with offset := BitVec.ofInt 64 o, corr := -o, slewRem := 0, ptpGood := n, locked := n == 16,
           ptpT1 := none, ptpT2 := none, ptpT3 := none }

/-- What a message of the master's brings: t2 and t3 are the device's own counter as the Sync comes and the request goes. (DEDUCED,
log entry 25) -/
def ptpTake (now : W64) (d : Dev) : PtpKind → Dev
  | .sync t1 => { d with ptpT1 := t1, ptpT2 := some now }
  | .followUp t1 => { d with ptpT1 := some t1 }
  | .delayReq => { d with ptpT3 := some now }
  | .delayResp t4 => match d.ptpT1, d.ptpT2, d.ptpT3 with
    | some t1, some t2, some t3 => measured d (ptpOffset t1 t2 t3 t4)
    | _, _, _ => d

/-- PTP_MESSAGE (R408, R409): under TSRC 1, a message on the fabric port and in the 1588 domain that PORT and PDOM name; the
response to a delay request completes a measurement. (DESIGN CHOICE, log entry 16; log entry 25) -/
def execPtpMessage (x : PtpMsg) (s : State) : Out :=
  if s.dev.tsrc != 1 || x.port != s.dev.port || 18 ≤ x.port || x.dom != s.dev.pdom then .next s
  else .next (modDev s (fun d => ptpTake (w64 s.now) d x.kind))

/-! Staging and attestation (R410, R411). -/

/-- Bytes of storage at physical addresses as the device reads them at their home. -/
def physBytes (s : State) (pa n : Nat) : List Byte := (upto n).map (fun i => BitVec.ofNat 8 (peekNum s (pa + i) 1))

/-- n bytes of storage that an access can reach. -/
def physOk (s : State) (pa n : Nat) : Bool := (upto n).all (fun i => isStorage s (pa + i) && !departed s (pa + i))

/-- FWGO: the staged image is checked at once and takes effect at the next device reset. -/
def checkImage (s : State) : State :=
  let img := physBytes s s.dev.fwaddr.toNat s.dev.fwlen.toNat
  let ok := physOk s s.dev.fwaddr.toNat s.dev.fwlen.toNat && fwOk s.dev img
  modDev s (fun d => { d with fwok := ok, staged := if ok then some img else none })

/-- A write of word 40. -/
def writeFw (s : State) (v : Nat) : State :=
  let s1 := modDev s (fun d => { d with fwaddr := w64 (v / 64 * 64) })
  let s2 := if bit v 1 then checkImage s1 else s1
  if bit v 2 then modDev s2 (fun d => { d with svnMin := max d.svnMin (svnOf (fwOf d)) }) else s2

/-- A write of word 42: a request begins unless one is in progress; AGO reads its nonce. (DEDUCED, log entry 27) -/
def writeAtt (s : State) (v : Nat) : State :=
  let s1 := modDev s (fun d => { d with raddr := w64 (v / 64 * 64) })
  let pa := s1.dev.raddr.toNat
  if s1.dev.att.isSome then s1
  else if bit v 0 then
    modDev s1 (fun d => { d with att := some (.report (if physOk s1 pa 48 then physBytes s1 pa 48 else [])) })
  else if bit v 2 then modDev s1 (fun d => { d with att := some .chain })
  else s1

/-- The first n bytes of a string, zeros after its end. -/
def fitBytes (n : Nat) (l : List Byte) : List Byte := (upto n).map (fun i => l.getD i 0)

/-- A signature of the device's identity key, made with the secret number of the machine's count of free values (R410). (DESIGN
CHOICE, log entry 12) -/
def deviceSign (s : State) (body : List Byte) : List Byte := ecdsaSign Config.identityPriv (Config.signSecret s.fresh) body

/-- The machine's count of free values has advanced. -/
def freshNext (s : State) : State := { s with fresh := s.fresh + 1 }

/-- The report over a nonce (R411). (DESIGN CHOICE, log entry 12; log entry 27) -/
def report (s : State) (nonce : List Byte) : List Byte :=
  let d := s.dev
  let body := nonce ++ (upto 3).flatMap (fun i => sha384 (Config.fwPart (fwOf d) i))
    ++ (if d.roster.isSome then sha384 d.rosterRaw else List.replicate 48 0)
    ++ [d.devnum, BitVec.ofNat 8 d.stepping] ++ bytesOf 2 (svnOf (fwOf d)) ++ bytesOf 4 0 ++ bytesOf 8 s.now
  body ++ deviceSign s body

/-- ATTESTATION_COMPLETE (R410, R411): the report or the chain is written at RADDR, and BUSY clears. (DEDUCED, log entry 27) -/
def execAttestationComplete (s : State) : Out :=
  let d := s.dev
  let pa := d.raddr.toNat
  match d.att with
  | none => .next s
  | some (.report nonce) =>
    if nonce.length != 48 || !physOk s pa 352 then .next (modDev s (fun d => { d with att := none, aerr := 1 }))
    else .next (modDev (freshNext (engineWrite s pa (report s nonce)).1) (fun d => { d with
      att := none, aerr := if d.roster.isSome then 0 else 2 }))
  | some .chain =>
    let c := Config.certChain.take 4096
    if !physOk s pa c.length then .next (modDev s (fun d => { d with att := none, aerr := 1 }))
    else .next (modDev (engineWrite s pa c).1 (fun d => { d with att := none, aerr := 0, clen := c.length }))

/-! The roster and binding sets (R347, R412, R413). -/

/-- The entries of a roster as copied. -/
def rosterOf (n : Nat) (raw : List Byte) : List RosterEnt :=
  (upto n).map (fun i => ⟨(raw.getD (128 * i) 0).toNat, (raw.drop (128 * i + 8)).take 96⟩)

/-- The check of a roster: RERR. (DEDUCED, log entry 26) -/
def rosterErr (d : Dev) (es : List RosterEnt) : Nat :=
  let ds := es.map (·.dev)
  if ds.eraseDups.length != ds.length || ds.any (fun n => !(tgetD d.member (n / 64) 0).getLsbD (n % 64)) then 1
  else if es.any (fun e => e.dev == d.devnum.toNat && e.key == identityKey) then 0
  else 2

/-- RLOAD: one that passes replaces the roster in force. An RCOUNT above 256 acts as 256. (DEDUCED, log entry 26; DESIGN CHOICE,
log entry 53) -/
def loadRoster (s : State) : State :=
  let n := min 256 s.dev.rcount
  let raw := physBytes s s.dev.rostaddr.toNat (128 * n)
  let es := rosterOf n raw
  match rosterErr s.dev es with
  | 0 => modDev s (fun d => { d with rerr := 0, roster := some es, rosterRaw := raw })
  | e => modDev s (fun d => { d with rerr := e })

/-- A write of word 18. (DEDUCED, log entry 26) -/
def writeRoster (s : State) (v : Nat) : State :=
  let s1 := modDev s (fun d => { d with rostaddr := w64 (v / 4096 * 4096), rcount := bits v 11 3 })
  if bit v 0 then loadRoster s1 else s1

/-- The texts that were loaded with pod sharing, in the order of their contexts. -/
def podTexts (s : State) : List PodText := s.ctxs.flatMap (fun e => e.2.pods)

/-- A binding set held for an image: the first that is verified or built stays. -/
def keepSet (d : Dev) (ihash set_ : List Byte) : Dev :=
  if d.bindings.any (fun e => e.1 == ihash) then d else { d with bindings := d.bindings ++ [(ihash, set_)] }

/-- ANNOUNCEMENT_RECEIVE (R347, R413): the announcement is verified against the roster in force. (DESIGN CHOICE, log entry 12; log
entry 26) -/
def execAnnouncementReceive (msg bset : List Byte) (s : State) : Out :=
  let d := s.dev
  let ihash := msg.take 48
  let dev := (msg.getD 96 0).toNat
  if d.domsize == 0 || dev == d.devnum.toNat then .next s
  else
    let ok := (d.roster.bind (fun r => r.find? (fun e => e.dev == dev))).elim false (fun e =>
      msg.length == 200 && ecdsaOk ((msg.drop 104).take 96) (msg.take 104) e.key
        && sha384 bset == (msg.drop 48).take 48 && (podTexts s).any (fun p => sha384 p.image == ihash))
    .next (modDev s (fun d => if ok then keepSet d ihash bset else { d with adrop := satInc d.adrop }))

/-- The announcement of a binding set. -/
def announcement (s : State) (ihash set_ : List Byte) : List Byte :=
  let body := ihash ++ sha384 set_ ++ [s.dev.devnum] ++ List.replicate 7 0
  body ++ deviceSign s body

/-- BINDING_SET_ANNOUNCE (R347): a device of a domain that has no set for an image loaded with pod sharing, named by its number
among the loaded ones, builds it and multicasts it. (DESIGN CHOICE, log entry 12) -/
def execBindingSetAnnounce (image : Nat) (s : State) : Out :=
  match (podTexts s)[image]? with
  | none => .next s
  | some p =>
    let ihash := sha384 p.image
    let set_ := Config.bindingSet p.image
    if s.dev.domsize == 0 || s.dev.bindings.any (fun e => e.1 == ihash) then .next s
    else .next (freshNext (modDev s (fun d => { keepSet d ihash set_ with
      announced := d.announced ++ [announcement s ihash set_] })))

/-! Writes of the block (R403). -/

/-- A write of a word of the device block by the physical function. -/
def dblkWrite (s : State) (n v : Nat) : State :=
  match n with
  | 1 => if bit v 0 then resetDevice s else s
  | 2 => modDev s (fun d => { d with localNext := min 64 (bits v 6 0) })
  | 3 => modDev s (fun d => { d with ebase := w64 (v / 4096 * 4096), elog := bits v 4 0 })
  | 4 => modDev s (fun d => { d with eridx := BitVec.ofNat 32 (v >>> 32) })
  | 5 => modDev s (fun d => { d with edrop := BitVec.ofNat 32 v })
  | 8 => writeTime s v
  | 10 => writeHostadj s (w64 v)
  | 11 => modDev s (fun d => { d with tinit := w64 v })
  | 16 => writeDomain s v
  | 17 => if s.dev.domsize == 0 then modDev s (fun d => { d with devnum := BitVec.ofNat 8 v }) else s
  | 18 => writeRoster s v
  | 19 => modDev s (fun d => { d with adrop := BitVec.ofNat 32 v })
  | 20 => writeMember s 0 v
  | 21 => writeMember s 1 v
  | 22 => writeMember s 2 v
  | 23 => writeMember s 3 v
  | 40 => writeFw s v
  | 41 => modDev s (fun d => { d with fwlen := BitVec.ofNat 32 v })
  | 42 => writeAtt s v
  | _ =>
    if 64 ≤ n && n < 192 && (ctxOf s (n - 64)).st == 0 then
      modDev s (fun d => { d with fn := tset 0 d.fn (n - 64) (bits v 7 0) })
    else s

/-- A write by a function: only the physical function reaches the block, and only words that answer (R402, R410). -/
def fnDblkWrite (s : State) (fn n v : Nat) : State := if fn == 0 && dblkAnswers s n then dblkWrite s n v else s

/-! The events that are one write of the block. -/

/-- DRESET (R405): word 1. -/
def execDreset (fn : Nat) (s : State) : Out := .next (fnDblkWrite s fn 1 1)

/-- DOMAIN_JOIN (R406): word 16 with a DOMSIZE that is not 0. -/
def execDomainJoin (fn : Nat) (v : W64) (s : State) : Out :=
  if bits v.toNat 40 32 == 0 then .next s else .next (fnDblkWrite s fn 16 v.toNat)

/-- DOMAIN_LEAVE (R406, R407): word 16 with DOMSIZE 0. -/
def execDomainLeave (fn : Nat) (v : W64) (s : State) : Out := .next (fnDblkWrite s fn 16 (setBits v.toNat 40 32 0))

/-- HOSTADJ (R408, R409): word 10. -/
def execHostadj (fn : Nat) (v : W64) (s : State) : Out := .next (fnDblkWrite s fn 10 v.toNat)

/-- TIME_SOURCE_SELECT (R408, R409): word 8. -/
def execTimeSourceSelect (fn : Nat) (v : W64) (s : State) : Out := .next (fnDblkWrite s fn 8 v.toNat)

/-- FWGO (R410): word 40 with FWGO. -/
def execFwgo (fn : Nat) (v : W64) (s : State) : Out := .next (fnDblkWrite s fn 40 (v ||| 2).toNat)

/-- FWCOMMIT (R410): word 40 with FWCOMMIT. -/
def execFwcommit (fn : Nat) (v : W64) (s : State) : Out := .next (fnDblkWrite s fn 40 (v ||| 4).toNat)

/-- AGO (R410, R411): word 42 with AGO. -/
def execAgo (fn : Nat) (v : W64) (s : State) : Out := .next (fnDblkWrite s fn 42 (v ||| 1).toNat)

/-- CGO (R410): word 42 with CGO, without AGO. -/
def execCgo (fn : Nat) (v : W64) (s : State) : Out := .next (fnDblkWrite s fn 42 ((v ||| 4) &&& ~~~1).toNat)

/-- RLOAD (R412): word 18 with RLOAD. -/
def execRload (fn : Nat) (v : W64) (s : State) : Out := .next (fnDblkWrite s fn 18 (v ||| 1).toNat)

end Sys2Proof.Machine
end

