-- ==== Sys2Proof/Machine/Regs.lean ====
section
/-! DEFINITION. The register pages: the sampling block, thermal, power and slice registers, the episode record, and the read
and write of any register by an agent (R321, R350, R364, R365, R384, R386, R388, R391, R402). -/

namespace Sys2Proof.Machine

/-! The sampling block (R391). -/

/-- Word n of a context's sampling block. -/
def sampWord (now : Nat) (x : Ctx) (n : Nat) : Nat :=
  match n with
  | 0 => x.speriod
  | 1 => ringWord x.sring
  | 2 => ringIdx now x.sring
  | 3 => ringWord x.lring
  | 4 => ringIdx now x.lring
  | 5 => x.sdrop.toNat * 2 ^ 32 + flag x.lovf 1 + flag x.logen 0
  | 6 => x.rpblock.toNat * 2 ^ 32 + flag x.rpen 0
  | 7 => x.rppos.toNat
  | _ => 0

/-- A write of a word of the sampling block. (DEDUCED, log entry 49) -/
def sampWrite (x : Ctx) (n v : Nat) : Ctx :=
  match n with
  | 0 => { x with speriod := if v == 0 then 0 else clamp 10000 (2 ^ 40) v }
  | 1 => { x with sring := setRing x.sring 20 v }
  | 2 => { x with sring := setRidx x.sring v }
  | 3 => { x with lring := setRing x.lring 24 v }
  | 4 => { x with lring := setRidx x.lring v }
  | 5 => { x with sdrop := BitVec.ofNat 32 (v >>> 32), lovf := x.lovf && !bit v 1, logen := bit v 0 }
  | 6 => { x with rpblock := BitVec.ofNat 32 (v >>> 32), rpen := bit v 0 }
  | _ => x

/-! Thermal, power and slice registers (R384, R386, R388). -/

def thermalWord (s : State) (rope : Nat) : Nat :=
  let r := ropeOf s rope
  r.entries.toNat * 2 ^ 48 + r.tj.toNat * 2 ^ 32 + ropeHint s rope * 64 + r.point * 16 + flag r.settleEnd.isSome 3
    + flag r.throttled 2

def powerWord (r : Rope) : Nat := r.withheld.toNat * 2 ^ 32 + r.allow
def powerWrite (r : Rope) (v : Nat) : Rope := { r with allow := clamp 2000 20000 (bits v 15 0) }

def sliceWord (g : Slice) : Nat := g.ways * 2 ^ 32 + flag g.nogate 16 + g.minways * 256
def sliceWrite (g : Slice) (v : Nat) : Slice := { g with nogate := bit v 16, minways := bits v 11 8 }

/-! The episode record (R364, R365). -/

def windowOf (x : Episode) (k : Nat) : Window := tgetD x.windows k {}

/-- Word n of an episode's record. -/
def epWord (x : Episode) (n : Nat) : Nat :=
  match n with
  | 0 => x.startver.toNat * 2 ^ 16 + flag x.svv 15 + flag x.lagen 12 + x.estate * 1024 + flag x.bound 7 + x.owner
  | 1 => x.entry.toNat
  | 2 => x.deadline.toNat
  | 3 => x.lag
  | 4 => x.truncs.toNat * 2 ^ 48 + x.timeouts.toNat * 2 ^ 32 + x.steps.toNat
  | 5 => flag x.werr 0
  | _ =>
    if 8 ≤ n && n < 24 then
      let w := windowOf x ((n - 8) / 2)
      if n % 2 == 0 then w.base * 4096 + flag w.x 3 + flag w.w 2 + flag w.rd 1 + flag w.v 0 else w.limit * 4096
    else 0

/-- The bytes of a window: first and one past the last. -/
def windowLo (w : Window) : Nat := w.base * 4096
def windowHi (w : Window) : Nat := (w.limit + 1) * 4096

/-- Where the stack-local memory that holds an offset of its window ends: with LOCAL 64 the stacks lie end to end (R297, R298). -/
def localEnd (s : State) (o : Nat) : Nat :=
  if 64 ≤ s.dev.localGiB then 8 * 2 ^ 36 else o / 2 ^ 36 * 2 ^ 36 + s.dev.localGiB * gib

/-- Bytes lo up to hi lie in the device-memory rows of R297. -/
def inDevMem (s : State) (lo hi : Nat) : Bool :=
  decide (hi ≤ 8 * (64 - s.dev.localGiB) * gib)
    || (decide (0x010000000000 ≤ lo) && decide ((lo - 0x010000000000) / 2 ^ 36 < 8)
      && decide (hi - 0x010000000000 ≤ localEnd s (lo - 0x010000000000)))

/-- A window that would be valid is refused. -/
def windowBad (s : State) (e : Nat) (w : Window) : Bool :=
  decide (w.limit < w.base) || !inDevMem s (windowLo w) (windowHi w)
    || s.eps.any (fun f => f.1 != e && f.2.bound && f.2.windows.any (fun u =>
      u.2.v && decide (windowLo u.2 < windowHi w) && decide (windowLo w < windowHi u.2)))

/-- A write of a word of a window, checked when the window would be valid. -/
def writeWindow (s : State) (e n v : Nat) : State :=
  let k := (n - 8) / 2
  let w := windowOf (epOf s e) k
  let w1 : Window := if n % 2 == 0 then
      { w with base := bits v 51 12, x := bit v 3, w := bit v 2, rd := bit v 1, v := bit v 0 }
    else { w with limit := bits v 51 12 }
  if w1.v && windowBad s e w1 then
    modEp s e (fun x => { x with windows := tset {} x.windows k { w with v := false }, werr := true })
  else modEp s e (fun x => { x with windows := tset {} x.windows k w1 })

/-- A write of word 0 beyond OWNER and BOUND. (DEDUCED, log entry 29) -/
def writeEpCtl (s : State) (e v : Nat) : State :=
  let st := (epOf s e).estate
  let s1 := modEp s e (fun x => { x with lagen := bit v 12 })
  if bit v 8 && st == 0 then startEp s1 e
  else if bit v 9 && (st == 1 || st == 2) then resetEp s1 e 4 0
  else s1

/-- The fields of a word that the owner's function writes. -/
def writeEpField (s : State) (e n v : Nat) : State :=
  let idle := (epOf s e).estate == 0
  match n with
  | 0 => writeEpCtl s e v
  | 1 => if idle then modEp s e (fun x => { x with entry := w64 v }) else s
  | 2 => modEp s e (fun x => { x with deadline := w64 v })
  | 3 => modEp s e (fun x => { x with lag := bits v 7 0 })
  | 4 => modEp s e (fun x => { x with truncs := BitVec.ofNat 16 (v >>> 48), timeouts := BitVec.ofNat 16 (v >>> 32),
                                      steps := BitVec.ofNat 32 v })
  | 5 => modEp s e (fun x => { x with werr := x.werr && !bit v 0 })
  | _ => if 8 ≤ n && n < 24 && idle then writeWindow s e n v else s

/-- A write of a word of an episode's record by a function: OWNER and BOUND by the physical function, the other fields by the
function that owns OWNER, once BOUND was 1 (R364). -/
def epWrite (s : State) (fn e n v : Nat) : State :=
  let x := epOf s e
  if Config.episodes ≤ e || !s.dev.answering || !s.dev.bootOk then s else
  let s1 := if n == 0 && fn == 0 then modEp s e (fun x => { x with owner := bits v 6 0, bound := bit v 7 }) else s
  if x.bound && ownerFn s x.owner == fn then writeEpField s1 e n v else s1

/-! Any register (R402). -/

/-- The owner's accesses reach a context's sampling block while the context is not free. -/
def sampReach (s : State) (who : Who) (c : Nat) : Bool := isOwner s who c && (ctxOf s c).st != 0

/-- A read of a register by an agent: its value and the state that the read leaves. -/
def regRead (s : State) (who : Who) (id : RegId) : Nat × State :=
  let phys := who.fn == 0
  match id with
  | .device n => (if phys && dblkAnswers s n then dblkWord s n else 0, s)
  | _ =>
    if !s.dev.answering || !s.dev.bootOk then (0, s)
    else match id with
      | .device n => (dblkWord s n, s)
      | .ctx c n => (if isOwner s who c then ctxWord s c n else 0, s)
      | .queue c q n => (if isOwner s who c then queueWord s c q n else 0, s)
      | .samp c n => (if sampReach s who c then sampWord s.now (ctxOf s c) n else 0, s)
      | .debug core n => dbgRead s core n who
      | .thermal r => (if phys then thermalWord s r else 0, s)
      | .power r => (if phys then powerWord (ropeOf s r) else 0, s)
      | .slice g => (if phys then sliceWord (sliceOf s g) else 0, s)
      | .episode e n => (epWord (epOf s e) n, s)

/-- A 64-bit write of a register by an agent. -/
def regWrite (s : State) (who : Who) (id : RegId) (v : Nat) : State :=
  let phys := who.fn == 0
  match id with
  | .device n => fnDblkWrite s who.fn n v
  | _ =>
    if !s.dev.answering || !s.dev.bootOk then s
    else match id with
      | .device _ => s
      | .ctx c n => if isOwner s who c then ctxWrite s c n v else s
      | .queue c q n => if isOwner s who c then queueWrite s c q n v else s
      | .samp c n => if sampReach s who c then modCtx s c (fun x => sampWrite x n v) else s
      | .debug core n => dbgWrite s core n who v
      | .thermal _ => s
      | .power r => if phys then modRope s r (fun x => powerWrite x v) else s
      | .slice g => if phys then modSlice s g (fun x => sliceWrite x v) else s
      | .episode e n => epWrite s who.fn e n v

/-- A 32-bit write, which only a queue register takes (R335). -/
def regWrite32 (s : State) (who : Who) (pa v : Nat) : State :=
  match regAt pa with
  | some (.queue c q n) =>
    if isOwner s who c && s.dev.answering && s.dev.bootOk then queueWrite32 s c q n (pa % 8 == 4) v else s
  | _ => s

/-- A read of n bytes of the register pages: 64 bits, or 32 at a queue register; elsewhere 0. (DEDUCED, log entry 48) -/
def regReadAt (s : State) (who : Who) (pa n : Nat) : Nat × State :=
  match regAt pa with
  | none => (0, s)
  | some id =>
    if n == 8 then (if pa % 8 == 0 then regRead s who id else (0, s))
    else match id with
      | .queue .. => if n == 4 && pa % 4 == 0 then
          let r := regRead s who id
          (r.1 / 2 ^ (8 * (pa % 8)) % 2 ^ 32, r.2)
        else (0, s)
      | _ => (0, s)

/-- A write of n bytes of the register pages. (DEDUCED, log entry 48) -/
def regWriteAt (s : State) (who : Who) (pa n v : Nat) : State :=
  match regAt pa with
  | none => s
  | some id =>
    if n == 8 then (if pa % 8 == 0 then regWrite s who id (v % 2 ^ 64) else s)
    else if n == 4 && pa % 4 == 0 then regWrite32 s who pa (v % 2 ^ 32)
    else s

/-- The agent that a wave of a context is at the register pages. (DEDUCED, log entry 48) -/
def waveWho (s : State) (ctx : Nat) : Who := ⟨ownerFn s ctx, true⟩

/-- A function's host reaches an address through its BARs: the physical function all of them, a virtual function the context
pages it holds and the debug windows (R402). (DEDUCED, log entry 24) -/
def barReach (s : State) (fn pa : Nat) : Bool :=
  fn == 0 || (match regAt pa with
    | some (.ctx c _) => ownerFn s c == fn
    | some (.queue c _ _) => ownerFn s c == fn
    | some (.samp c _) => ownerFn s c == fn
    | some (.debug ..) => true
    | _ => false)

/-- A host read of the register pages by a function. -/
def hostRegRead (s : State) (fn pa n : Nat) : State :=
  if !barReach s fn pa then { s with hostData := 0 }
  else
    let r := regReadAt s ⟨fn, false⟩ pa n
    { r.2 with hostData := w64 r.1 }

/-- REGISTER_WRITE (R402): a host write of the register pages by a function. -/
def execRegisterWrite (fn addr size : Nat) (v : W64) (s : State) : Out :=
  .next (if barReach s fn addr then regWriteAt s ⟨fn, false⟩ addr size v.toNat else s)

/-! The events that are one write of an episode's record. -/

/-- START (R365): word 0 with START; LAGEN, OWNER and BOUND as the word gives them. (DEDUCED, log entry 29) -/
def execStart (fn ep : Nat) (v : W64) (s : State) : Out := .next (epWrite s fn ep 0 (v ||| 0x100).toNat)

/-- RESET (R372): word 0 with RESET. (DEDUCED, log entry 29) -/
def execReset (fn ep : Nat) (v : W64) (s : State) : Out := .next (epWrite s fn ep 0 (v ||| 0x200).toNat)

/-- WINDOW_WRITE (R365): a word of the window table. -/
def execWindowWrite (fn ep word : Nat) (v : W64) (s : State) : Out :=
  .next (if 8 ≤ word && word < 24 then epWrite s fn ep word v.toNat else s)

end Sys2Proof.Machine
end

