-- ==== Sys2Proof/Machine/MemEvents.lean ====
section
/-! DEFINITION. What memory does after a word has issued: loads and atomics performed, writes performed at their homes, write
completion times, leases and evictions, walks (R154 to R159, R179 to R182, R265 to R267, R299 to R303, R316). -/

namespace Sys2Proof.Machine

/-! Loads (R157, R159, R161). -/

/-- The core of an operation's wave. -/
def opCore (s : State) (o : Op) : Nat := (opBlock s o).elim 0 (·.core)

/-- An operation's access waits for an earlier access of its wave to the bytes, or a write of its L1 to the line. -/
def accessHeld (s : State) (op : Nat) (o : Op) (pa n : Nat) : Bool :=
  earlierTouches s op o.wid pa n || hwBusy s (cacheOf s (opCore s o) pa) (lineOf pa)

/-- One lane of a load performed: its bytes, and whether a unit of them is poisoned; none when a replay has no record. -/
def loadLane (o : Op) (size order scope : Nat) (s : State) (a : LaneAcc) : Option (List Byte × State × Bool) :=
  let core := opCore s o
  match tget s.waves o.wid with
  | none => none
  | some w =>
    if regionOf s a.pa == .regs then
      if replayOf s w then some (bytesOf size 0, s, false)
      else
        let r := regReadAt s (waveWho s w.ctx) (canonPa s a.pa) size
        some (bytesOf size r.1, r.2, false)
    else
      let home := order == 2 && decide (reachOf s core < scope)
      readFor (reachOp s o.wid o.orig (readLevel s core a.pa size home)) o.wid core o.orig a.va a.pa size home

/-- The lanes of a load in ascending order: their bytes and the poisoned ones. -/
def loadLanes (o : Op) (size order scope : Nat) : List LaneAcc → State → List (LaneAcc × List Byte × Bool) →
    Option (State × List (LaneAcc × List Byte × Bool))
  | [], s, done => some (s, done)
  | a :: rest, s, done =>
    match loadLane o size order scope s a with
    | none => none
    | some (bs, s1, p) => loadLanes o size order scope rest s1 (done ++ [(a, bs, p)])

/-- Values that come from outside the block and are not line reads, one per lane, logged or replayed as 8 bytes each
(R394). (DESIGN CHOICE, log entry 45) -/
def laneReceive (s : State) (o : Op) (va : Nat) (vals : List (Nat × Nat)) : Option (State × List (Nat × Nat)) :=
  (receive s o.wid 2 va o.orig (vals.flatMap (fun v => bytesOf 8 v.2))).map (fun r =>
    (r.1, vals.zipIdx.map (fun e => (e.1.1, ofBytes ((r.2.drop (8 * e.2)).take 8)))))

/-- The results of a load written: the symbols, the poison marks, the acquire side. -/
def loadDone (s : State) (op : Nat) (o : Op) (size order scope : Nat) (sx : Bool) (d : Nat)
    (got : List (LaneAcc × List Byte × Bool)) : State :=
  let n := max 1 (size / 4)
  let vs := got.flatMap (fun g => (loadWords size sx g.2.1).zipIdx.map (fun x => (d + x.2, g.1.lane, w32 x.1)))
  let pm : List PoisonMark := match got.find? (fun g => g.2.2) with
    | none => []
    | some g => (upto n).map (fun i => ⟨.v, d + i, 1, o.orig, g.1.va⟩)
  let s1 := modWave (endOp s op) o.wid (fun w => addPois (fillAll w vs) pm)
  if order == 2 then acquireBy s1 o.wid (opCore s o) scope else s1

/-- A load is performed at one instant. (DEDUCED, log entry 42) -/
def loadPerform (s : State) (op : Nat) (o : Op) (size order scope : Nat) (sx : Bool) (d : Nat) (lanes : List LaneAcc) : State :=
  match loadLanes o size order scope lanes s [] with
  | none => replayFail s o.wid
  | some (s1, got) =>
    if !lanes.any (fun a => regionOf s a.pa == .regs) then loadDone s1 op o size order scope sx d got
    else match laneReceive s1 o ((lanes.map (·.va)).headD 0) (got.map (fun g => (g.1.lane, ofBytes g.2.1))) with
      | none => replayFail s1 o.wid
      | some (s2, vals) => loadDone s2 op o size order scope sx d (got.map (fun g =>
          if regionOf s g.1.pa == .regs then (g.1, bytesOf size (tgetD vals g.1.lane 0), false) else g))

/-- Values known at issue are written: symbols, scalars, buffer bytes, poison. -/
def valsDone (s : State) (op : Nat) (o : Op) (blk : Nat) (vs : List (Nat × Nat × W32)) (ss : List (Nat × W64))
    (bs : List (Nat × Nat × Byte)) (pm : List PoisonMark) (bp : List (Nat × BufMark)) : State :=
  let s1 := modWave (endOp s op) o.wid (fun w =>
    addPois (ss.foldl (fun w e => unPoison (scPut w e.1 e.2) .s e.1) (fillAll w vs)) pm)
  modBlock s1 blk (fun b =>
    let b1 := bufPutAll b bs
    { b1 with bufPois := b1.bufPois ++ bp.map (fun e => { e.2 with off := bufAt b.var.info e.1 + e.2.off }) })

/-- A redeem in a replay is given its bytes by the record (R396). (DEDUCED, log entry 37) -/
def rdmReplay (s : State) (op : Nat) (o : Op) (w : Wave) (dst : RdmDest) (size : Nat) : State :=
  match receive s o.wid 3 0 o.orig (List.replicate size 0) with
  | none => replayFail s o.wid
  | some (s1, data) =>
    match dst with
    | .vec d => valsDone s1 op o w.blk (rdmVals w.width d data) [] [] [] []
    | .buf b off => valsDone s1 op o w.blk [] [] (data.zipIdx.map (fun x => (b, off + x.2, x.1))) [] []

/-- LOAD_RESULT (R157, R161): a load is performed and its destinations are full; a redeem's bytes arrive. A block that is away
gets them once it is back (R256). (DEDUCED, log entry 42) -/
def execLoadResult (op : Nat) (s : State) : Out :=
  match tget s.ops op with
  | none => .next s
  | some o => match tget s.waves o.wid with
    | none => .next s
    | some w =>
      if awayWave s o.wid then .next s else
      match o.body with
      | .load size order scope sx d lanes =>
        if lanes.any (fun a => accessHeld s op o a.pa size) || notTurn s o.wid o.orig (some op) [false, true] then .next s
        else .next (loadPerform s op o size order scope sx d lanes)
      | .vals vs ss bs pm bp => .next (valsDone s op o w.blk vs ss bs pm bp)
      | .rdm dst _ size =>
        if !replayOf s w || notTurn s o.wid o.orig (some op) [false, true] then .next s
        else .next (rdmReplay s op o w dst size)
      | _ => .next s

/-! ATOM (R180, R182). -/

/-- A write of a wave completes at T, its own store or atomic or a write-back of its L1 (R162, R226). -/
def raiseT (s : State) (wid t : Nat) (own : Bool) : State :=
  modWave s wid (fun w => { w with lastT := max w.lastT t, ownT := if own then max w.ownT t else w.ownT })

/-- One update at its home, indivisibly: the old value, whether it is poisoned, and the completion time. A poisoned unit is
not updated (R399). -/
def homeUpdate (s : State) (pa size code y y2 : Nat) : State × Nat × Bool × Nat :=
  let r := homeRead s pa size
  let m := ofBytes r.1
  if (upto size).any (fun i => unitPois r.2 (pa + i)) then (r.2, m, true, r.2.now)
  else
    let p := performBytes r.2 ((bytesOf size (atomVal code (8 * size) m y y2)).zipIdx.map (fun e => (pa + e.2, e.1)))
    (p.1, m, false, p.2)

/-- The next lane of an atomic is applied; the issuing L1 drops a clean copy of its line (R301). -/
def atomLane (s : State) (o : Op) (code size : Nat) (a : AtomLane) : State × Nat × Bool :=
  let cid := cacheOf s (opCore s o) a.pa
  let s1 := dropClean s cid (lineOf a.pa)
  let r := homeUpdate (reachOp s1 o.wid o.orig (homeLevel s (opCore s o) a.pa)) a.pa size code a.y a.y2
  (raiseT r.1 o.wid r.2.2.2 true, r.2.1, r.2.2.1)

/-- The old values are written to v_d; an .acq takes its acquire side. -/
def atomDone (s : State) (op : Nat) (o : Op) (size order scope d : Nat) (lanes : List AtomLane) (old : List (Nat × Nat))
    (pm : List PoisonMark) : State :=
  match laneReceive s o ((lanes.map (·.va)).headD 0) old with
  | none => replayFail s o.wid
  | some (s1, vals) =>
    let vs := vals.flatMap (fun v => (upto (size / 4)).map (fun i => (d + i, v.1, w32 (v.2 >>> (32 * i)))))
    let s2 := modWave (endOp s1 op) o.wid (fun w => addPois (fillAll w vs) pm)
    if order == 2 then acquireBy s2 o.wid (opCore s o) scope else s2

/-- ATOM_HOME_UPDATE (R180): the next lane in ascending order is applied at its home; after the last, v_d is written. What a wave
of the core has stored into the line since the ATOM issued is written back first (R275, R301). -/
def execAtomHomeUpdate (op : Nat) (s : State) : Out :=
  match tget s.ops op with
  | none => .next s
  | some o => match o.body, tget s.waves o.wid with
    | .atom code size order scope d lanes old pm, some _ =>
      match lanes[old.length]? with
      | none =>
        if awayWave s o.wid || notTurn s o.wid o.orig (some op) [false, true] then .next s
        else .next (atomDone s op o size order scope d lanes old pm)
      | some a =>
        let cid := cacheOf s (opCore s o) a.pa
        if accessHeld s op o a.pa size then .next s
        else if lineOwn s cid (lineOf a.pa) then .next (evictLine s cid (lineOf a.pa))
        else
          let r := atomLane s o code size a
          let mark : List PoisonMark := if r.2.2 && pm.isEmpty then
              (upto (size / 4)).map (fun i => ⟨.v, d + i, 1, o.orig, a.va⟩)
            else []
          .next (setBody r.1 op (.atom code size order scope d lanes (old ++ [(a.lane, r.2.1)]) (pm ++ mark)))
    | _, _ => .next s

/-! Writes at their homes (R154, R158, R181, R266, R267). -/

/-- The lines that a write on its way touches. -/
def hwLines (h : HomeWrite) : List Nat :=
  ((h.bytes.map (fun b => lineOf b.1)) ++ (match h.red with | some (pa, _, _, _) => [lineOf pa] | none => [])).eraseDups

/-- An earlier write from the same L1 to one of the lines has not been performed. -/
def hwBehind (s : State) (id : Nat) (h : HomeWrite) : Bool :=
  s.hw.any (fun e => decide (e.1 < id) && e.2.cache == h.cache && (hwLines e.2).any (hwLines h).contains)

/-- The write performed at its home, its register, or its combine unit, with its completion time. -/
def hwPerform (s : State) (h : HomeWrite) : State × Nat :=
  match h.red, h.bytes with
  | some (pa, code, size, y), _ =>
    let r := homeUpdate s pa size code y 0
    (r.1, r.2.2.2)
  | none, [] => (s, s.now)
  | none, (pa, _) :: _ =>
    if regionOf s pa == .regs then
      (regWriteAt s (waveWho s h.ctx) (canonPa s pa) h.bytes.length (ofBytes (h.bytes.map (·.2))), s.now)
    else performBytes ((hwLines h).foldl recallLine s) h.bytes

/-- What a write leaves in its own L1 once it is performed: the line of a write-back is clean, unless it has been written anew or
another write to it is on its way (R266); a RED's line holds no clean copy (R301). -/
def cleanAfter (s : State) (h : HomeWrite) : State :=
  match h.red, h.wb, h.bytes with
  | some (pa, _, _, _), _, _ => dropClean s h.cache (lineOf pa)
  | none, some sc, (pa, _) :: _ =>
    if (getLine s h.cache (lineOf pa)).isNone && !hwBusy s h.cache (lineOf pa) then fillLine s h.cache h.ctx (lineOf pa) (sc + 1)
    else s
  | _, _, _ => s

/-- The last of a store's writes into a unit that they cover together clears its poison (R399). -/
def coverDone (s : State) (h : HomeWrite) : State :=
  if h.cover.isEmpty then s
  else cleanUnits s (h.cover.filter (fun u => !s.hw.any (fun e => e.2.op == h.op && e.2.cover.contains u)))

/-- HOME_WRITE_PERFORM: writes of one L1 to one line are performed in their order; a write-through store updates a clean copy
of its own L1. -/
def execHomeWritePerform (hw : Nat) (s : State) : Out :=
  match tget s.hw hw with
  | none => .next s
  | some h =>
    if hwBehind s hw h then .next s
    else
      let p := hwPerform { s with hw := tdel s.hw hw } h
      let s1 := raiseT (raiseCacheT (coverDone p.1 h) h.cache h.ctx hw p.2) h.wid p.2 h.wb.isNone
      let s2 := cleanAfter (updateCopy s1 h.cache h.bytes h.scope) h
      match h.op with
      | none => .next s2
      | some id => match tget s2.ops id with
        | some ⟨_, _, _, _, .store left t⟩ => .next (setBody s2 id (.store (left.filter (· ≠ hw)) (max t p.2)))
        | _ => .next s2

/-- WRITE_COMPLETION_TIME (R158, R267): every write of a store is performed and its T has been reached; its count falls. -/
def execWriteCompletionTime (op : Nat) (s : State) : Out :=
  match tget s.ops op with
  | some ⟨_, _, _, _, .store left t⟩ => if left.isEmpty && t ≤ s.now then .next (endOp s op) else .next s
  | _ => .next s

/-! Leases, evictions, walks (R265, R266, R303, R316, R414). -/

/-- L1_LEASE_EXPIRY (R265): a clean copy whose lease has ended goes. -/
def execL1LeaseExpiry (cache line : Nat) (s : State) : Out :=
  match getLine s cache line with
  | some ⟨.clean _ le _ _, _, _⟩ => .next (if le ≤ s.now then dropLine s cache line else s)
  | _ => .next s

/-- L1_EVICTION (R266, R303, R414): a line leaves an L1. -/
def execL1Eviction (cache line : Nat) (s : State) : Out :=
  .next (evictLine s cache line)

/-- TRANSLATION_WALK_COMPLETE (R316): the slot that waits learns the leaf; a valid translation enters the TLBs. -/
def execTranslationWalkComplete (walk : Nat) (s : State) : Out :=
  match tget s.walks walk with
  | none => .next s
  | some k =>
    let va := k.page * 65536
    let leaf := walkTable s k.ctx va
    let s1 := modWave { s with walks := tdel s.walks walk } k.wid (fun w =>
      modSlot w k.slotB (fun x => { x with walked := ⟨k.page, leaf⟩ :: x.walked }))
    .next (match leaf, tget s1.waves k.wid with
      | some l, some w => tlbFill s1 (coreOfWave s1 w) k.ctx va l
      | _, _ => s1)

end Sys2Proof.Machine
end

