-- ==== Sys2Proof/Machine/TicketEvents.lean ====
section
/-! DEFINITION. The ticket tables at work: line reads, tickets written, fetches complete, state words, lease ends; the answer to a
mailbox's poll (R169 to R178, R217, R306). -/

namespace Sys2Proof.Machine

/-- The L1 of a fetch's issuing wave at a line: it may still hold bytes or updates of the line, or have them on their way. -/
inductive Issuer where
  | none | holds (cid : Nat) | sends
  | free (cid : Nat)
deriving DecidableEq, Repr

def issuerOf (s : State) (e : Ticket) (pa : Nat) : Issuer :=
  match tget s.waves e.wid with
  | .none => .none
  | some w =>
    let cid := cacheOf s (coreOfWave s w) pa
    if lineOwn s cid (lineOf pa) then .holds cid else if hwBusy s cid (lineOf pa) then .sends else .free cid

/-- One line of a fetch read at its home. -/
def lineRead (s : State) (slice idx line : Nat) (e : Ticket) (pa n : Nat) : State :=
  let r := homeRead s pa n
  let bad := ((upto (n / 64)).filter (fun u => unitPois r.2 (pa + 64 * u))).map (fun u => 2 * line + u)
  putTicket r.2 slice idx { e with lines := tput e.lines line r.1, pois := e.pois ++ bad }

/-- LDT_LINE_READ (R170): one 128-byte line of a pending fetch is read at its home at one instant, behind the earlier reads of
its wave of the line (R275, R291); what the issuing wave's L1 has of the line is written back first, and its clean copy goes, so
that neither an earlier load nor a later one sees what this read misses. (DEDUCED, log entry 21) -/
def execLdtLineRead (slice idx line : Nat) (s : State) : Out :=
  let e := ticketAt s slice idx
  let pa := e.pa + 128 * line
  let n := min 128 e.size
  if e.st != .pending || decide (tkLines e ≤ line) || (tget e.lines line).isSome || earlierTouches s e.op e.wid pa n then .next s
  else match issuerOf s e pa with
    | .none => .next (lineRead s slice idx line e pa n)
    | .holds cid => .next (evictLine s cid (lineOf pa))
    | .sends => .next s
    | .free cid => .next (lineRead (dropClean s cid (lineOf pa)) slice idx line e pa n)

/-- A free entry takes a fetch (R168, R306). -/
def newEntry (s : State) (g idx ctx va pa size op : Nat) (o : Op) (flt : Option Nat) : Ticket :=
  let e := ticketAt s g idx
  { gen := e.gen, expired := e.expired, st := if flt.isSome then .faulted else .pending, ctx := ctx, size := size, va := va, pa := pa,
    orig := o.orig, cause := flt.getD 0, leaseEnd := o.t0 + (ctxOf s ctx).tlease, wid := o.wid, op := op }

/-- A scalar result of an operation is delivered, logged or replayed (R394). -/
def scalarDone (s : State) (op : Nat) (o : Op) (d : Nat) (v : W64) : State :=
  match receive s o.wid 4 0 o.orig (bytesOf 8 v.toNat) with
  | none => replayFail s o.wid
  | some (s1, bs) => modWave (endOp s1 op) o.wid (fun w => unPoison (scPut w d (w64 (ofBytes bs))) .s d)

/-- LDT_TICKET_WRITTEN (R169 to R171): a free entry of the slice is allocated, and the ticket is written to s_d. A replay
touches no table (R396). -/
def execLdtTicketWritten (op idx : Nat) (s : State) : Out :=
  match tget s.ops op with
  | none => .next s
  | some o => match o.body, tget s.waves o.wid with
    | .ldt d va pa size _ flt g, some w =>
      if awayWave s o.wid || notTurn s o.wid o.orig (some op) [false, true] then .next s
      else if replayOf s w then .next (scalarDone s op o d 0)
      else if decide (16384 ≤ idx) || (ticketAt s g idx).st != .free
          || (flt.isNone && decide (1048576 < lineBytes s g + size)) then .next s
      else
        let e := newEntry s g idx w.ctx va pa size op o flt
        .next (scalarDone (putTicket s g idx e) op o d (mkTicket s.dev.devnum.toNat g idx e.gen w.ctx))
    | _, _ => .next s

/-- A fetch that a wave's redeem has claimed is delivered to it, logged as the payload it is, and its entry moves on (R174, R394;
DESIGN CHOICE, log entry 53). -/
def deliverWave (s : State) (g i : Nat) (e : Ticket) (op : Nat) : State :=
  let s1 := putTicket s g i (moveOn e false)
  match tget s.ops op with
  | none => s1
  | some o => match o.body, tget s.waves o.wid with
    | .rdm dst _ _, some w =>
      let s2 := logRec s1 o.wid 3 e.va o.orig (tkData e)
      setBody s2 op (rdmBody w.width dst e (tkData e))
    | _, _ => s1

/-- A fetch that an episode's port has claimed goes to its redeem (R374). -/
def deliverPort (s : State) (g i : Nat) (e : Ticket) (ep : Nat) : State :=
  let t := mkTicket s.dev.devnum.toNat g i e.gen e.ctx
  modEp (putTicket s g i (moveOn e false)) ep (fun x => { x with redeems := x.redeems.map (fun r =>
    if r.ticket == t && r.data.isNone then { r with data := some (tkData e), pois := e.pois } else r) })

/-- TICKET_FETCH_COMPLETE (R168, R174): every line is read; the ticket is ready, or its data goes to its claim. -/
def execTicketFetchComplete (slice idx : Nat) (s : State) : Out :=
  let e := ticketAt s slice idx
  if e.st != .pending || decide (e.lines.length < tkLines e) then .next s
  else match e.claim with
    | none => .next (putTicket s slice idx { e with st := .ready })
    | some (.wave op) => .next (deliverWave s slice idx e op)
    | some (.port ep) => .next (deliverPort s slice idx e ep)

/-- The fetch size code of a size in bytes. -/
def sizeCode (n : Nat) : Nat := Nat.log2 (n / 64)

/-- The state word of TKQ (R177). -/
def tkqWord (s : State) (ctx : Nat) (t : W64) : W64 :=
  let st := claimState s ctx t
  let e := ticketAt s (tkSlice t) (tkIndex t)
  if st ≤ 2 then
    w64 (min (e.leaseEnd - s.now) 0xFFFFFF * 2 ^ 24 + (if st == 2 then e.cause * 2 ^ 16 else 0) + sizeCode e.size * 2 ^ 12 + st)
  else w64 st

/-- TICKET_STATE_RETURN (R177): the state word of a TKQ is delivered. -/
def execTicketStateReturn (op : Nat) (s : State) : Out :=
  match tget s.ops op with
  | none => .next s
  | some o => match o.body, tget s.waves o.wid with
    | .tkq d t, some w =>
      if awayWave s o.wid || notTurn s o.wid o.orig (some op) [false, true] then .next s
      else .next (scalarDone s op o d (tkqWord s w.ctx t))
    | _, _ => .next s

/-- The answer to an MBPOLL: its state word is read and delivered at one instant (R217, R256). -/
def pollDone (s : State) (op : Nat) : State :=
  match tget s.ops op with
  | none => s
  | some o => match o.body, tget s.waves o.wid with
    | .mbpoll e d, some _ =>
      if awayWave s o.wid || notTurn s o.wid o.orig (some op) [false, true] then s
      else scalarDone s op o d (pollWord s e)
    | _, _ => s

/-- TICKET_LEASE_END (R178): the lease of a live ticket that nothing has claimed ends. -/
def execTicketLeaseEnd (slice idx : Nat) (s : State) : Out :=
  let e := ticketAt s slice idx
  if e.st == .free || e.claim.isSome || decide (s.now < e.leaseEnd) then .next s else .next (reclaimTicket s slice idx)

end Sys2Proof.Machine
end

