-- ==== Sys2Proof/Machine/Camp.lean ====
section
/-! DEFINITION. Base Camp's side of the mailboxes: the mailbox page, the redemption port, the watchdog (R366 to R374). -/

namespace Sys2Proof.Machine

/-! Windows (R366). -/

/-- A valid window holds a range of bytes and grants what p asks. -/
def inWindow (x : Episode) (pa n : Nat) (p : Window → Bool) : Bool :=
  x.windows.any (fun w => w.2.v && p w.2 && decide (windowLo w.2 ≤ pa) && decide (pa + n ≤ windowHi w.2))

/-! The private L2 (R283, R363). -/

/-- The cache of an episode's environment core, after the cores' L1s. -/
def campCache (e : Nat) : Nat := Config.cores + envCoreOfEp e

/-- The copy of the counter that a hart reads: its cluster's (R17). -/
def hartClock (e : Nat) : Nat := campClock (clusterOfEnv (envCoreOfEp e))

/-- An acquire at device scope by a hart: its L2's copies go, and its later reads of the counter are ordered behind what it has
acquired (R18). -/
def hartAcquire (s : State) (e : Nat) : State :=
  modEp { s with l1 := s.l1.filter (fun c => c.1 != campCache e) } e (fun x => { x with hart := { x.hart with tmin := max x.hart.tmin s.readMax } })

/-- A hart has read the counter. -/
def hartSaw (s : State) (e v : Nat) : State :=
  modEp { s with readMax := max s.readMax v } e (fun x => { x with hart := { x.hart with tmin := max x.hart.tmin v } })

/-- A hart's writes are performed at device scope: T has passed (R267). -/
def hartReleased (s : State) (e : Nat) : Bool := decide ((epOf s e).hart.lastT ≤ s.now)

/-- A hart's episode runs, and its step timer has not been reached (R371, R378). -/
def hartRuns (s : State) (e : Nat) : Bool :=
  (epOf s e).estate == 1 && (epOf s e).timer.elim true (fun t => decide (s.now < t)) && s.dev.answering && s.dev.bootOk

/-! The mailbox (R368, R371). -/

/-- A read of APOP: the head action is popped; its SEQ, 0 when there is none. -/
def apop (s : State) (e : Nat) : Nat × State :=
  match (epOf s e).actions with
  | [] => (0, s)
  | m :: rest =>
    (m.seq.toNat, hartAcquire (modEp s e (fun x => { x with
      actions := rest, actbuf := (msgBytes m).zipIdx.foldl (fun t b => tset 0 t b.2 b.1) [], aver := m.ver, steps := satInc x.steps
      startver := if x.svv then x.startver else m.ver, svv := true
      timer := if x.deadline == 0 then x.timer else some (s.now + x.deadline.toNat) })) e)

/-- LEN of OBSBUF. -/
def obsLen (x : Episode) : Nat := ofBytes ((upto 4).map (fun i => tgetD x.obsbuf (12 + i) 0))

/-- A read of OSEND: OBSBUF is sent; its SEQ, 0 when the queue is full. -/
def osend (s : State) (e : Nat) : Nat × State :=
  let x := epOf s e
  if mbDepth ≤ x.obs.length then (0, s)
  else
    (x.obsSeq % 2 ^ 64, modEp s e (fun x =>
      let y := putObs x x.aver (if x.fault then 2 else 0) (min 240 (obsLen x)) ((upto 240).map (fun i => tgetD x.obsbuf (16 + i) 0))
      { y with timer := none, svv := y.svv && !x.done, fault := false, done := false }))

/-- APOP (R368): the mailbox's side of a hart's read of APOP. -/
def execApop (ep : Nat) (s : State) : Out := .next (if hartRuns s ep then (apop s ep).2 else s)

/-- OSEND (R368): the mailbox's side of a hart's read of OSEND; its release waits for the hart's writes. -/
def execOsend (ep : Nat) (s : State) : Out := .next (if hartRuns s ep && hartReleased s ep then (osend s ep).2 else s)

/-- EPISODE_WATCHDOG_FIRE (R371). -/
def execEpisodeWatchdogFire (ep : Nat) (s : State) : Out :=
  let x := epOf s ep
  if x.estate != 1 || !x.timer.elim false (fun t => decide (t ≤ s.now)) then .next s
  else .next (modEp s ep (fun x => { x with estate := 2, timer := none, timeouts := satInc x.timeouts, timeoutDue := true }))

/-- TIMEOUT_OBSERVATION_ENQUEUE (R371): as soon as an entry is free. -/
def execTimeoutObservationEnqueue (ep : Nat) (s : State) : Out :=
  let x := epOf s ep
  if !x.timeoutDue || decide (mbDepth ≤ x.obs.length) then .next s
  else .next (modEp s ep (fun x => { putObs x x.aver 1 0 noPayload with timeoutDue := false }))

/-! The redemption port (R374). -/

/-- A write of TKVAL: the ticket is classified and claimed. (DEDUCED, log entry 28) -/
def tkval (s : State) (e : Nat) (t : W64) : State :=
  let x := epOf s e
  let st := claimState s x.owner t
  let g := tkSlice t
  let i := tkIndex t
  let en := ticketAt s g i
  if x.busy then s
  else if 3 ≤ st then modEp s e (fun x => { x with result := st - 2 })
  else if (st != 2 && !inWindow x x.tkdst.toNat en.size (·.w)) || x.tkdst.toNat % 64 != 0 then modEp s e (fun x => { x with result := 7 })
  else if st == 2 then modEp (putTicket s g i (moveOn en false)) e (fun x => { x with result := 4, fcause := en.cause })
  else
    let r : Redeem := { ticket := t, dst := x.tkdst.toNat, code := sizeCode en.size }
    if st == 1 then modEp (putTicket s g i (moveOn en false)) e (fun x => { x with
      busy := true, redeems := x.redeems ++ [{ r with data := some (tkData en), pois := en.pois }] })
    else modEp (putTicket s g i { en with claim := some (.port e) }) e (fun x => { x with busy := true, redeems := x.redeems ++ [r] })

/-- TKVAL (R374). -/
def execTkval (ep : Nat) (v : W64) (s : State) : Out := .next (if hartRuns s ep then tkval s ep v else s)

/-- A redeem's bytes written at its destination; poisoned units stay poisoned (R399). (DEDUCED, log entry 28) -/
def redeemWrite (s : State) (r : Redeem) (data : List Byte) : State × Nat :=
  let p := engineWrite s r.dst data
  ({ p.1 with poison := p.1.poison ++ ((r.pois.map (fun u => unitOf (canonPa s (r.dst + 64 * u)))).filter (fun u => !p.1.poison.contains u)) }, p.2)

/-- A redeem is over: its result is given, unless it is discarded; a reset that waited for it goes on. (DEDUCED, log entry 28) -/
def redeemOver (s : State) (e : Nat) (r : Redeem) (rest : List Redeem) : State :=
  let s1 := modEp s e (fun x =>
    if r.discard || x.restart.isSome then { x with redeems := rest }
    else { x with redeems := rest, result := 0, busy := false })
  match (epOf s1 e).restart with
  | some m => if rest.isEmpty then finishReset s1 e m else s1
  | none => s1

/-- PORT_REDEEM_COMPLETE (R374): the data is written at TKDST and SIZE set; once that is performed at device scope the
redeem ends. -/
def execPortRedeemComplete (ep : Nat) (s : State) : Out :=
  match (epOf s ep).redeems with
  | [] => .next s
  | r :: rest =>
    match r.data, r.tDone with
    | none, _ => .next s
    | some data, none =>
      let p := redeemWrite s r data
      .next (modEp p.1 ep (fun x => { x with
        redeems := { r with tDone := some p.2 } :: rest
        tksize := if r.discard || x.restart.isSome then x.tksize else r.code }))
    | some _, some t => .next (if t ≤ s.now then redeemOver s ep r rest else s)

/-! The mailbox page (R367). -/

/-- Physical address of the mailbox page of every hart. -/
def mbPage : Nat := 0x00F800000000

/-- MSTAT and TKST as they read. -/
def mstat (s : State) (x : Episode) : Nat :=
  (ctxOf s x.owner).policy.toNat * 2 ^ 48 + x.aver.toNat * 2 ^ 32 + (mbDepth - x.obs.length) * 256 + x.actions.length
def tkst (x : Episode) : Nat := flag x.busy 63 + x.fcause * 65536 + x.tksize * 4096 + x.result

/-- The little-endian number of n bytes of a message area. -/
def areaNum (t : Tbl Byte) (off n : Nat) : Nat := ofBytes ((upto n).map (fun i => tgetD t (off + i) 0))

/-- A read of the page, aligned to its size; none raises an access fault. -/
def pageRead (s : State) (e off n : Nat) : Option (Nat × State) :=
  let x := epOf s e
  if off < 0x100 then some (areaNum x.actbuf off n, s)
  else if off < 0x200 then some (areaNum x.obsbuf (off - 0x100) n, s)
  else if n != 8 then none
  else match off with
    | 0x200 => some (mstat s x, s)
    | 0x208 => some (apop s e)
    | 0x210 => some (flag x.fault 1 + flag x.done 0, s)
    | 0x218 => some (osend s e)
    | 0x220 => some (flag x.mbie 0, s)
    | 0x228 => some (x.tkdst.toNat, s)
    | 0x230 => some (0, s)
    | 0x238 => some (tkst x, if x.busy then s else hartAcquire s e)
    | _ => none

/-- A write of the page; read-only registers ignore it, none raises an access fault. -/
def pageWrite (s : State) (e off n v : Nat) : Option State :=
  if off < 0x100 then some s
  else if off < 0x200 then
    some (modEp s e (fun x => { x with obsbuf := (bytesOf n v).zipIdx.foldl (fun t b => tset 0 t (off - 0x100 + b.2) b.1) x.obsbuf }))
  else if n != 8 then none
  else match off with
    | 0x200 => some s
    | 0x208 => some s
    | 0x210 => some (modEp s e (fun x => { x with fault := bit v 1, done := bit v 0 }))
    | 0x218 => some s
    | 0x220 => some (modEp s e (fun x => { x with mbie := bit v 0 }))
    | 0x228 => some (modEp s e (fun x => { x with tkdst := w64 v }))
    | 0x230 => some (tkval s e (w64 v))
    | 0x238 => some s
    | _ => none

end Sys2Proof.Machine
end

