-- ==== Sys2Proof/Machine/Sched.lean ====
section
/-! DEFINITION. Scheduling within a core, the start of handlers, the retirement of waves, interrupt messages (R117, R233,
R257 to R261, R353). -/

namespace Sys2Proof.Machine

/-! Retirement (R117, R261). -/

/-- A retired wave's contents are gone. -/
def emptyWave (w : Wave) : Wave :=
  { w with
    st := .retired, a := {}, b := {}, shared := [], spills := [], sc := [], ve := [], empty := [], pois := [], cnt := {},
    trap := none, defer := [], halted := false, stepping := 0, tag := none }

/-- A wave leaves its core's sets. -/
def leaveSets (s : State) (wid core : Nat) : State :=
  modCore s core (fun c => { c with active := c.active.filter (· ≠ wid), pending := c.pending.filter (· ≠ wid) })

/-- The retirement of a drained wave: open latch entries that list it break, it leaves its barriers, its block may retire,
its launch may complete. -/
def retireWave (s : State) (wid : Nat) (w : Wave) (b : Block) : State :=
  let rope := ropeOfCore b.core
  let s1 := (latchOf s rope b.grp (blockSlot b) w.idx).foldl (fun s k => latchBreak s rope k 4) s
  let s2 := leaveSets (modWave (leaveBars s1 w.blk wid) wid emptyWave) wid b.core
  finishLaunch (retireBlock s2 w.blk) b.lid

/-- WAVE_RETIRE (R117, R261): no lane is left and every counter is zero. A handler that ends without ERESUME is killed with
its parked wave (R224, R352). (DEDUCED, log entry 36) -/
def execWaveRetire (wid : Nat) (s : State) : Out :=
  match tget s.waves wid with
  | none => .next s
  | some w =>
    if w.st != .draining || !cntZero w.cnt then .next s
    else match w.parent, blockOf s w with
      | some pid, some b =>
        .next (killWave (faultLog s w.ctx (((tget s.waves pid).bind (·.trap)).elim [] (·.words)) b.idx w.idx 4) pid)
      | none, some b => .next (retireWave s wid w b)
      | _, none => .next s

/-! Handlers (R233, R234). -/

/-- The time that a taken trap's record holds. -/
def trapTime (t : Trap) : Nat := (t.words.getD 13 0).toNat

/-- The traps of a core that wait for its handler slot, first to start first: TIME, then BLOCK, then WAVE. -/
def queuedTraps (s : State) (core : Nat) : List (Nat × Wave × Block × Trap) :=
  let all := s.waves.filterMap (fun e =>
    match e.2.trap, blockOf s e.2 with
    | some t, some b =>
      if e.2.st == .live && !e.2.halted && t.handler.isNone && b.core == core && b.res == .resident then some (e.1, e.2, b, t)
      else none
    | _, _ => none)
  let key := fun (e : Nat × Wave × Block × Trap) => (trapTime e.2.2.2, e.2.2.1.idx, e.2.1.idx)
  let lt := fun (a b : Nat × Nat × Nat) => a.1 < b.1 || (a.1 == b.1 && (a.2.1 < b.2.1 || (a.2.1 == b.2.1 && a.2.2 < b.2.2)))
  sortBy (fun a b => !lt (key b) (key a)) all

/-- A handler wave starts in the handler slot for a parked wave. (DEDUCED, log entry 36) -/
def startHandler (s : State) (core pid : Nat) (w : Wave) (b : Block) (t : Trap) (v : Variant) : State :=
  let bid := s.nextId
  let hid := s.nextId + 1
  let hb : Block := { ctx := w.ctx, lid := 0, grp := 0, idx := b.idx, core := core, budget := 32, width := w.width, waves := [hid],
                      handler := true, var := v, placedAt := s.now }
  let h : Wave := { blk := bid, idx := w.idx, width := w.width, ctx := w.ctx, parent := some pid, readyAt := s.now, tmin := s.readMax,
                    a := { used := true, pc := v.text, mask := allLanes w.width } }
  let s1 := { s with nextId := s.nextId + 2, blocks := tput s.blocks bid hb, waves := tput s.waves hid h }
  modCore (setWave s1 pid { w with trap := some { t with handler := some hid } }) core (fun c => { c with handler := some hid })

/-- HANDLER_START (R233): the handler slot is free; the first queued trap's handler starts, or, when none is registered any
more, its wave is killed. -/
def execHandlerStart (core : Nat) (s : State) : Out :=
  if (coreOf s core).handler.isSome || (coreOf s core).dbg.frozen then .next s
  else match queuedTraps s core with
    | [] => .next s
    | (pid, w, b, t) :: _ =>
      match handlerOf s w.ctx w.width with
      | none => .next (killWave (faultLog s w.ctx t.words b.idx w.idx 1) pid)
      | some v => .next (startHandler s core pid w b t v)

/-! The active set (R257 to R259). -/

/-- The counter that a word of a class and opcode counts in (R56). -/
def wordCounter (cls op : Nat) : Option CntK :=
  match cls with
  | 2 => some .special
  | 3 => if [0, 1, 4, 5, 10, 11, 12, 13, 19, 35, 37].contains op then some .load
         else if [2, 3, 6, 7, 21, 30, 31].contains op then some .store
         else if [8, 9, 16].contains op then some .ticket else none
  | 4 => if 2 ≤ op then some .matrix else none
  | 5 => if op ≤ 3 || (6 ≤ op && op ≤ 11) then some .copy else none
  | _ => none

/-- A counter is one of the four that make a wave replaceable (R258). -/
def longCounter : CntK → Bool
  | .load => true
  | .ticket => true
  | .matrix => true
  | .copy => true
  | _ => false

/-- An operation counts in one of the four. -/
def longOp (s : State) (op : Nat) : Bool := (tget s.ops op).elim false (fun o => longCounter o.cnt)

/-- The word waits on an empty slot whose producer counts in one of the four. -/
def waitsLong (s : State) (wid : Nat) (w : Wave) (b : Block) (x : Slot) : Bool :=
  (emptyOpnds w wid b x).any (fun o =>
    if o.cls == .q then b.qempty.any (fun e => (opNums x o).contains e.num && longOp s e.op)
    else w.empty.any (fun e => e.cls == o.cls && (opNums x o).contains e.num && longOp s e.op))

/-- A wait mask or a WAITCNT that selects one of the four (their bits 0 and 2 to 4) is not met. -/
def selectsLong (sel : Nat) : Bool := bit sel 0 || bit sel 2 || bit sel 3 || bit sel 4

/-- A class-4 word finds no entry: of the belay latch, if it is ganged and opens one; of the reservation table, if it is not
ganged or completes its latch entry (R198, R201). -/
def noEntry (s : State) (k : IC) (op : Nat) : Bool :=
  let rope := ropeOfCore k.core
  if gangN k.w.gang == 0 || 8 ≤ op then resFull s rope
  else match gangEntry k s with
    | none => (gangOther k s).isNone && decide (8 ≤ (ropeOf s rope).latch.length)
    | some e => decide (e.2.issued.length + 1 = gangN k.w.gang) && resFull s rope

/-- The word finds no free entry of a table that R258 names: reservations and latch, a mailbox's actions, the signal queue. -/
def tableFull (s : State) (k : IC) (cls op : Nat) : Bool :=
  match cls with
  | 4 => decide (2 ≤ op) && noEntry s k op
  | 5 => (op == 6 || op == 7) && !mbNb k && decide (mbDepth ≤ actsUsed s (mbNum k))
  | 6 => (op == 20 || op == 21) && ringFull (ctxOf s k.w.ctx).sigq
  | _ => false

/-- The scope of a word's release side (R162, R215, R217, R228, R331). -/
def releaseScope (s : State) (k : IC) (cls op : Nat) : Option Nat :=
  match cls with
  | 0 => if op == 98 || op == 102 then (barOf s k.b k.u.a).map (fun x => barScope x.rope) else none
  | 3 => if [2, 3, 19, 21].contains op then (if k.u.order == 3 then some (scopeK k) else none)
         else if (op == 24 || op == 25) && !bit k.u.card 0 then some (scopeK k) else none
  | 5 => if op == 6 || op == 7 || op == 12 || op == 13 then some 5 else none
  | 6 => if op == 20 || op == 21 then some 7 else none
  | _ => none

/-- The word has been offered the slot and waits in its release side, which reaches beyond its L1 (R162, R258). -/
def inRelease (s : State) (k : IC) (cls op : Nat) : Bool :=
  (k.x.stuck || k.x.phase ≥ 1) && (releaseScope s k cls op).elim false (fun x =>
    decide (reachOf s k.core < x) && !releaseDone s k.wid k.core x)

/-- The word at which a slot stands waits for something of which `sel` holds, a counter or a set of them, or for what R258 lists
besides. A word that its guard leaves out waits for nothing. -/
def wordWaits (s : State) (wid : Nat) (slotB : Bool) (w : Wave) (b : Block) (x : Slot) (sel : CntK → Bool) (mask : Nat → Bool) : Bool :=
  let cls := (hdrClass x.hdrW).toNat
  let w1 := rawWord x x.idx
  let op := (opOf w1).toNat
  let v := viewOf (hdrClass x.hdrW) w1 (rawWord x (x.idx + 1))
  let u := (v.map (·.u)).getD (ucw (cwOf w1))
  let lanes := match v.map (·.kind) with | some (.lane _) => true | _ => false
  let k : IC := ⟨wid, slotB, w, x, b, b.core, liveLanes lanes w x.mask u.g, u⟩
  let runs := lanes || guardWave w x.mask u.g
  (cls == 0 && op == 90 && mask (bits (iwOf w1).imm.toNat 5 0) && !waitcntMet w (iwOf w1).imm.toNat)
    || (runs && ((wordCounter cls op).elim false (fun c => sel c && decide (63 ≤ cntGet w.cnt c))
      || tableFull s k cls op || inRelease s k cls op || (cls == 6 && op == 16 && (memBusy s wid || ownOwed s wid))))

/-- The word at which a slot stands waits for what R258 lists. -/
def wordReplaceable (s : State) (wid : Nat) (slotB : Bool) (w : Wave) (b : Block) (x : Slot) : Bool :=
  waitsLong s wid w b x || wordWaits s wid slotB w b x longCounter selectsLong

/-- A slot is parked, or waits at a wait mask or a word that R258 lists. (DEDUCED, log entry 22) -/
def slotReplaceable (s : State) (wid : Nat) (slotB : Bool) (w : Wave) (b : Block) : Bool :=
  let x := slotOf w slotB
  if !x.used || x.park != .run || ldtHeld s x then true
  else if x.inClause then wordReplaceable s wid slotB w b x
  else match fetchWord s b.core w.ctx x x.pc with
    | .got _ h => marked h && selectsLong (bits h.toNat 27 22) && !maskClear w h
    | _ => false

/-- A wave is replaceable: each of its slots waits so; one that drains waits at its counters (R117, R258). (DEDUCED, log entry 22) -/
def replaceable (s : State) (wid : Nat) (w : Wave) (b : Block) : Bool :=
  if w.st == .draining then [CntK.load, .ticket, .matrix, .copy].any (fun c => decide (0 < cntGet w.cnt c))
  else w.st != .live || w.trap.isSome || holdsWave w.a || holdsWave w.b
    || (slotReplaceable s wid false w b && slotReplaceable s wid true w b)

/-- A slot of a pending wave could issue, were the wave active: at a broken barrier; at a header whose wait mask is met and where
its block need not stop; at a word that waits on no empty slot, no counter and nothing that R258 lists. (DEDUCED, log entry 22) -/
def slotReady (s : State) (wid : Nat) (slotB : Bool) (w : Wave) (b : Block) : Bool :=
  let x := slotOf w slotB
  (brokenPark s wid slotB).isSome || (x.used && x.park == .run && !ldtHeld s x && (!w.defer.isEmpty ||
    (if x.inClause then
      !seamHeld b x && !waitsEmpty w wid b x && !wordWaits s wid slotB w b x (fun _ => true) (fun _ => true)
    else match fetchWord s b.core w.ctx x x.pc with
      | .got _ h => !marked h || (maskClear w h && !stopsHere b h)
      | _ => true)))

/-- A pending wave is ready. (DEDUCED, log entry 22) -/
def pendingReady (s : State) (wid : Nat) : Bool :=
  match tget s.waves wid with
  | none => false
  | some w => match blockOf s w with
    | none => false
    | some b => w.st == .live && !w.halted && w.trap.isNone && !holdsWave w.a && !holdsWave w.b && b.res == .resident
        && (slotReady s wid false w b || slotReady s wid true w b)

/-- The rank of a wave: effective priority number, age of its block, BLOCK, WAVE (R257). -/
def waveRank (s : State) (wid : Nat) : Nat × Nat × Nat × Nat :=
  match tget s.waves wid with
  | none => (0, 0, 0, 0)
  | some w => match blockOf s w with
    | none => (0, 0, 0, 0)
    | some b => (effPrio s w b, b.placedAt, b.idx, w.idx)

/-- Ranks in order. -/
def rankLe (a b : Nat × Nat × Nat × Nat) : Bool :=
  a.1 < b.1 || (a.1 == b.1 && (a.2.1 < b.2.1 || (a.2.1 == b.2.1 && (a.2.2.1 < b.2.2.1 || (a.2.2.1 == b.2.2.1 && a.2.2.2 ≤ b.2.2.2)))))

/-- The wave that the scheduler swaps in: the ready pending wave of best rank. -/
def bestPending (s : State) (core inn : Nat) : Bool :=
  (coreOf s core).pending.contains inn && pendingReady s inn
    && (coreOf s core).pending.all (fun i => !pendingReady s i || rankLe (waveRank s inn) (waveRank s i))

/-- ACTIVE_SET_SWAP (R258): a ready pending wave takes the place of a replaceable active one, or a vacant place. (DEDUCED, log entry 36) -/
def execActiveSetSwap (core out inn : Nat) (s : State) : Out :=
  let c := coreOf s core
  if !bestPending s core inn then .next s
  else if c.active.length < 8 then
    .next (modCore s core (fun c => { c with active := c.active ++ [inn], pending := c.pending.filter (· ≠ inn) }))
  else match tget s.waves out with
    | none => .next s
    | some w => match blockOf s w with
      | none => .next s
      | some b =>
        if !c.active.contains out || !replaceable s out w b then .next s
        else .next (modCore s core (fun c => { c with
          active := c.active.filter (· ≠ out) ++ [inn], pending := c.pending.filter (· ≠ inn) ++ [out] }))

/-! Interrupts (R353). -/

/-- INTERRUPT_SEND (R353): the write that raises it has been performed. (DESIGN CHOICE, log entry 35) -/
def execInterruptSend (irq : Nat) (s : State) : Out :=
  match (s.irqs.zipIdx.find? (fun e => e.2 == irq)).map (·.1) with
  | none => .next s
  | some q =>
    if s.now < q.after then .next s
    else .next { s with irqs := s.irqs.eraseIdx irq, irqSent := s.irqSent ++ [(q.fn, q.vec)] }

end Sys2Proof.Machine
end

