-- ==== Sys2Proof/Machine/Bind.lean ====
section
/-! DEFINITION. Bindings: quad allotments, live sets and moves, how a block stops, and how it leaves a core and returns
(R245 to R256, R357, R358). -/

namespace Sys2Proof.Machine

/-! Quads (R245, R247, R375). -/

/-- The physical quads of a rope that a context's rope groups hold. -/
def heldQuads (s : State) (rope ctx : Nat) : List Nat :=
  (s.groups.filter (fun e => e.2.rope == rope && e.2.ctx == ctx && !e.2.retired)).flatMap (·.2.quads)

/-- The allotment of a rope group of n blocks: QA physical quads that no other rope group of the context holds. (DEDUCED, log entry 18) -/
def allotQuads (s : State) (rope ctx n : Nat) (m : Meta) : List Nat :=
  let held := heldQuads s rope ctx
  ((upto 32).filter (fun p => !held.contains p)).take (min (m.quadsLive * n) (32 - held.length))

/-- The quad symbols of the i-th block of a rope group that are bound, with their physical quads. -/
def quadBinding (m : Meta) (i : Nat) (quads : List Nat) : Tbl Nat :=
  (quadSlots m).zipIdx.filterMap (fun e =>
    if e.1 < m.quadsLive then (quads[i * m.quadsLive + e.1]?).map (fun p => (e.2, p)) else none)

/-- An allotted quad holds nothing of an earlier rope group (R46). (DEDUCED, log entry 18) -/
def clearQuad (rope ctx : Nat) (s : State) (p : Nat) : State :=
  let q := tgetD (ropeOf s rope).quads p {}
  let s1 := if q.owner == some ctx then
      modRope s rope (fun r => { r with quads := tset {} r.quads p { q with data := [] } })
    else s
  modCtx s1 ctx (fun c => { c with saveValid := c.saveValid.filter (· ≠ saveSlot rope p) })

/-- What a context's quad holds: the accumulator store, while the context owns it, else its slot of the save area. -/
def quadContents (s : State) (rope ctx p : Nat) : Tbl W32 :=
  let q := tgetD (ropeOf s rope).quads p {}
  let c := ctxOf s ctx
  if q.owner == some ctx then q.data
  else if c.saveValid.contains (saveSlot rope p) then
    (upto 1024).filterMap (fun i =>
      let v := w32 (peekNum s (saveAddr c rope p + 4 * i) 4)
      if v == 0 then none else some (i, v))
  else []

/-- A context's quad takes contents: in the accumulator store, or, for an owner's first use, in the save area. -/
def putContents (s : State) (rope ctx p : Nat) (t : Tbl W32) : State :=
  let q := tgetD (ropeOf s rope).quads p {}
  if q.owner == some ctx then modRope s rope (fun r => { r with quads := tset {} r.quads p { q with data := t } })
  else
    modCtx (engineWrite s (saveAddr (ctxOf s ctx) rope p) ((upto 1024).flatMap (fun i => bytesOf 4 (quadGet t i).toNat))).1 ctx
      (fun c => { c with saveValid := saveSlot rope p :: c.saveValid.filter (· ≠ saveSlot rope p) })

/-! Live sets and moves (R251, R252). -/

/-- The image offsets at which a wave stands: its slots and the entries of its divergence stack. -/
def standOffs (b : Block) (w : Wave) : List Nat :=
  (if w.a.used then [imgOff b.var (standAddr w.a)] else []) ++ (if w.b.used then [imgOff b.var (standAddr w.b)] else [])
    ++ w.spills.map (fun p => imgOff b.var p.pc)

/-- A symbol is live at one of some offsets. (DESIGN CHOICE, log entry 7) -/
def liveAt (m : Meta) (cls : SymCls) (n : Nat) (offs : List Nat) : Bool :=
  m.lives.any (fun l => l.cls == cls && l.num == n && offs.any (fun o => decide (l.lo ≤ o) && decide (o < l.hi)))

/-- The values of the units of a block, by their numbers, that a unit which is not live may take: of those whose recorded intervals
do not meet its own, so that they may share its slot (R247). -/
def sharing {α : Type} (m : Meta) (scalar : Bool) (k : Nat) (vals : List (Nat × α)) : List α :=
  (vals.filter (fun e => !livesMeet (unitLives m scalar e.1) (unitLives m scalar k))).map (·.2)

/-- What a symbol outside its live intervals holds after a move: zero, its own value, or a value of another symbol of the block that may
share its slot; which one is open (R42, R46, R247, DESIGN CHOICE, log entry 7). -/
def openValue {α : Type} (zero : α) (vals : List α) (k : Nat) : α :=
  (zero :: vals).getD ((Config.freeValue k).toNat % (vals.length + 1)) zero

/-- The symbols of a vector pair, which is bound as a unit (R247). -/
def vecPair (w : Wave) (k : Nat) : List W32 × List W32 := (tgetD w.ve (2 * k) [], tgetD w.ve (2 * k + 1) [])
/-- One half of a pair. -/
def halfOf (p : List W32 × List W32) (n : Nat) : List W32 := if n % 2 == 0 then p.1 else p.2

/-- A wave's vector and scalar symbols after a move: the live ones keep their values; a pair that is not live takes a pair's.
(DESIGN CHOICE, log entry 7) -/
def movedWave (fresh : Nat) (b : Block) (vs : List (Nat × List W32 × List W32)) (ss : List (Nat × W64)) (w : Wave) : Wave :=
  let m := b.var.info
  let offs := standOffs b w
  { w with
    ve := (upto m.nV).foldl (fun t n =>
      if liveAt m .v n offs then t
      else tset [] t n (halfOf (openValue ([], []) (vecPair w (n / 2) :: sharing m false (n / 2) vs) (fresh + n / 2)) n)) w.ve
    sc := (upto m.nS).foldl (fun t n =>
      if liveAt m .s n offs then t
      else tset 0 t n (openValue 0 (scGet w n :: sharing m true n ss) (fresh + m.nV + n))) w.sc }

/-- The waves of a block that have not ended. -/
def blockWaves (s : State) (b : Block) : List (Nat × Wave) :=
  b.waves.filterMap (fun i => (tget s.waves i).bind (fun w => if waveOver w then none else some (i, w)))

/-- The vector and scalar symbols of a block are moved to another binding, or to and from its spill area. (DESIGN CHOICE, log entry 7) -/
def moveSymbols (s : State) (b : Block) : State :=
  let ws := blockWaves s b
  let vs := ws.flatMap (fun e => (upto ((b.var.info.nV + 1) / 2)).map (fun k => (k, vecPair e.2 k)))
  let ss := ws.flatMap (fun e => e.2.sc)
  let n := b.var.info.nV + b.var.info.nS
  ws.foldl (fun s e => setWave { s with fresh := s.fresh + n } e.1 (movedWave s.fresh b vs ss e.2)) s

/-- A scalar symbol, or a vector pair, is live where its wave stands. -/
def unitLive (b : Block) (w : Wave) (scalar : Bool) (k : Nat) : Bool :=
  let live := fun cls n => liveAt b.var.info cls n (standOffs b w)
  if scalar then live .s k else live .v (2 * k) || live .v (2 * k + 1)

/-- A slot that symbols of a block share: a scalar symbol, or a vector pair, that is not live where its wave stands takes what
another of the block holds whose recorded intervals do not meet its own (R42, R46, R247). (DESIGN CHOICE, log entry 7) -/
def shareSlot (s : State) (wid : Nat) (scalar : Bool) (num wid2 num2 : Nat) : State :=
  match tget s.waves wid, tget s.waves wid2 with
  | some w, some w2 =>
    match blockOf s w with
    | none => s
    | some b =>
      if w.blk != w2.blk || waveOver w || unitLive b w scalar num
          || livesMeet (unitLives b.var.info scalar num) (unitLives b.var.info scalar num2) then s
      else if scalar then setWave s wid { w with sc := tset 0 w.sc num (tgetD w2.sc num2 0) }
      else
        let p := vecPair w2 num2
        setWave s wid { w with ve := tset [] (tset [] w.ve (2 * num) p.1) (2 * num + 1) p.2 }
  | _, _ => s

/-! Stopping (R251, R357). -/

/-- A slot has stopped: it is free, parked or joining, or it stands at a seam header, before the first word of the seam's
clause. (DEDUCED, log entry 22) -/
def slotStopped (s : State) (b : Block) (w : Wave) (x : Slot) : Bool :=
  !x.used || x.park != .run || seamHeld b x ||
    (!x.inClause && (match fetchWord s b.core w.ctx x x.pc with
      | .got _ h => marked h && hdrSeam h
      | _ => false))

/-- A wave has stopped. One whose handler runs has not; one parked on a page request has (R319). For a pre-emption one whose
handler is queued has not either, and one that drains has (R251, R357). (DEDUCED, log entry 22) -/
def waveStopped (s : State) (b : Block) (preempt : Bool) (w : Wave) : Bool :=
  waveOver w ||
    (if w.st == .draining then preempt
    else match w.trap with
    | some t => !preempt && t.handler.isNone
    | none => holdsWave w.a || holdsWave w.b || (slotStopped s b w w.a && slotStopped s b w w.b))

/-- Every wave of a block has stopped, and no stop of its core is under way (R324). (DEDUCED, log entry 22) -/
def blockStopped (s : State) (b : Block) (preempt : Bool) : Bool :=
  !stopHolds s b.core && (blockWaves s b).all (fun e => waveStopped s b preempt e.2)

/-- A copy of the block, or a class-4 word of it, is outstanding; for a pre-emption one held in a latch is not waited for
(R254, R357). -/
def engineBusy (s : State) (b : Block) (preempt : Bool) : Bool :=
  b.copies.any (fun e => e.2.st ≤ 1 || e.2.st == 4 || e.2.st == 3)
    || s.ops.any (fun e => b.waves.contains e.2.wid && match e.2.body with
      | .mat m => !(preempt && m.latched)
      | .cpy _ => true
      | _ => false)

/-! Leaving and returning (R255, R256, R358). -/

/-- An L1 gives up what reads elsewhere would miss: dirty lines leave for their homes, update-only lines are combined. -/
def drainCache (s : State) (cid : Nat) : State :=
  (l1Of s cid).foldl (fun (s : State) (e : Nat × Line) =>
    match e.2.st with
    | .dirty .. => writeBack s 0 e.2.ctx cid e.1
    | .upd .. => recallLine s e.1
    | .clean .. => s) s

/-- A block leaves its core; what it stored there goes to its home, so that it finds it wherever it returns (R256). -/
def leaveCore (s0 : State) (blk : Nat) (b : Block) (how : Residence) : State :=
  let s := (cachesOf s0 b.core).foldl drainCache s0
  let s1 := b.waves.foldl (fun s i => leaveSets s i b.core) (moveSymbols s b)
  let s2 := modBlock { s1 with away := s1.away ++ [blk] } blk (fun b => { b with res := how, mark := false, preMark := false })
  repoint (shareDueOn s2 [b.core]) (ropeOfCore b.core)

/-- A rope group has a block on a core. -/
def groupHere (s : State) (g : Group) : Bool := g.blocks.any (fun k => (tget s.blocks k).elim false (fun b => b.res == .resident))

/-- The quad symbols of a block beyond its rope group's allotment of so many quads. -/
def beyond (g : Group) (blk : Nat) (m : Meta) (quads : Nat) : Nat := quadsBeyond m (g.blocks.findIdx (· == blk)) quads

/-- The quads of a rope group that has left its rope are saved with the last block, symbol by symbol (R255). (DESIGN CHOICE, log entry 19) -/
def saveQuads (s : State) (gid : Nat) (g : Group) : State :=
  let s1 := g.blocks.foldl (fun s k => modBlock s k (fun b => { b with
    qspill := b.qbind.foldl (fun t e => tput t e.1 (quadContents s g.rope g.ctx e.2)) b.qspill, qbind := [] })) s
  modGroup s1 gid (fun g => { g with quads := [] })

/-- A block's saved quads go to the physical quads that it is bound to; of the symbols that share one, the live one's. (DESIGN CHOICE,
log entry 19) -/
def loadQuads (s : State) (rope blk : Nat) : State :=
  match tget s.blocks blk with
  | none => s
  | some b =>
    let offs := (blockWaves s b).flatMap (fun e => standOffs b e.2)
    let s1 := ((b.qbind.map (·.2)).eraseDups).foldl (fun s p =>
      let ns := (b.qbind.filter (fun e => e.2 == p)).map (·.1)
      let n := (ns.find? (fun n => liveAt b.var.info .q n offs)).getD (ns.headD 0)
      putContents s rope b.ctx p (tgetD b.qspill n [])) s
    modBlock s1 blk (fun b => { b with qspill := b.qspill.filter (fun e => (tget b.qbind e.1).isNone) })

/-- A rope group that holds no quads is allotted quads on its rope, and its saved quads go there. (DESIGN CHOICE, log entry 19) -/
def returnQuads (s : State) (gid : Nat) (g : Group) (rope : Nat) (m : Meta) : State :=
  if !g.quads.isEmpty || m.quadsLive == 0 then s
  else
    let qs := allotQuads s rope g.ctx g.blocks.length m
    let s1 := modGroup (qs.foldl (clearQuad rope g.ctx) s) gid (fun g => { g with quads := qs })
    let s2 := g.blocks.zipIdx.foldl (fun s e => modBlock s e.1 (fun b => { b with qbind := quadBinding m e.2 qs })) s1
    g.blocks.foldl (fun s k => loadQuads s rope k) s2

/-- A block's waves enter the sets of a core: the active set while it has room, else the pending set (R257). -/
def enterSets (s : State) (core : Nat) (ws : List Nat) : State :=
  ws.foldl (fun s i => modCore s core (fun c =>
    if c.active.length < 8 then { c with active := c.active ++ [i] } else { c with pending := c.pending ++ [i] })) s

/-- Placing a block performs FENCE.I on its core (R348). -/
def dropICache (s : State) (core : Nat) : State := { s with icache := tdel s.icache core, fetches := tdel s.fetches core }

/-! The mode and the point of a rope (R300, R340, R341). -/

/-- A rope is, or can be switched to be, in a mode: no rope group is resident in the other. -/
def modeFits (s : State) (rope : Nat) (fuse : Bool) : Bool := (ropeOf s rope).fused == fuse || (residentGroups s rope).isEmpty

/-- A switch of mode empties the four L1s: dirty lines leave for their homes, update-only lines are recalled, and no line that is
on its way there comes back clean (R300). -/
def setMode (s : State) (rope : Nat) (fuse : Bool) : State :=
  if (ropeOf s rope).fused == fuse then s
  else
    let caches := (upto 4).map (fun i => 4 * rope + i)
    let s1 := caches.foldl drainCache s
    modRope { s1 with
      l1 := s1.l1.filter (fun e => !caches.contains e.1)
      hw := s1.hw.map (fun e => if caches.contains e.2.cache then (e.1, { e.2 with wb := none }) else e) } rope (fun r => { r with fused := fuse })

/-- The point that a hint asks for. -/
def hintPoint (h : Nat) : Nat := if h == 0 then 2 else h

/-- A placement on a rope changes its point, and the rope does not yet hold the new one, settled (R340). -/
def pointHeld (s : State) (rope lid : Nat) : Bool :=
  let r := ropeOf s rope
  let here := ropeHint s rope
  let all := max (max here (wantedHint s rope)) (hintOf s lid)
  !r.throttled && hintPoint (max here (hintOf s lid)) != hintPoint here && (r.point != hintPoint all || r.settleEnd.isSome)

end Sys2Proof.Machine
end

