-- ==== Sys2Proof/Machine/Harness.lean ====
section
/-! DEFINITION. The Harness: placement of rope groups, shares and rebinds, swap-out, pre-emption and return (R241 to R256,
R339 to R341, R354 to R358). The events name its choices; one that the rules do not allow changes nothing. -/

namespace Sys2Proof.Machine

/-! Shares and rebinds (R250, R251, R355). -/

/-- SHARE_RECOMPUTE (R250, R355): blocks bound above their context's share are marked, each with its new budget. -/
def execShareRecompute (core : Nat) (s : State) : Out :=
  if !(coreOf s core).shareDue then .next s
  else .next (modCore { s with blocks := s.blocks.map (fun e =>
      let sh := shareOf s e.2.ctx core
      if e.2.core == core && e.2.res == .resident && !e.2.handler && !e.2.mark && decide (sh < e.2.budget) then
        (e.1, { e.2 with mark := true, newBudget := budgetOf sh })
      else e) } core (fun c => { c with shareDue := false }))

/-- The Harness marks a block for a larger budget that its share and its core now allow (R250). It may, at any time. (DESIGN CHOICE,
log entry 53) -/
def rebindUp (s : State) (blk : Nat) : State :=
  match tget s.blocks blk with
  | none => s
  | some b =>
    if b.handler || b.mark || b.res != .resident then s
    else match bindAt s b.core blk b.ctx b.width 256 b.var.info [] with
      | some v => if b.budget < v then modBlock s blk (fun b => { b with mark := true, newBudget := v }) else s
      | none => s

/-- The spill area of a block at a budget: its own place is free to it. (DESIGN CHOICE, log entry 19) -/
def blockArea (s : State) (blk : Nat) (b : Block) (g : Group) (quads v : Nat) : Option (Nat × Nat) :=
  areaFor s b.ctx (areasOf s b.ctx blk) (areaNeed b.var.info b.width v (beyond g blk b.var.info quads))

/-- A block takes the spill area of a new budget, or keeps its own where the pool has no room for that (R249). (DESIGN CHOICE, log
entry 19) -/
def newArea (s : State) (blk : Nat) (b : Block) : Nat × Nat :=
  ((tget s.groups b.grp).bind (fun g => blockArea s blk b g g.quads.length b.newBudget)).getD b.area

/-- REBIND_MOVE (R251, R252): the marked block has stopped; its live symbols move to its new budget. The shares are looked
at again, for one that changed meanwhile (R253). -/
def execRebindMove (blk : Nat) (s : State) : Out :=
  match tget s.blocks blk with
  | none => .next s
  | some b =>
    if !b.mark || b.handler || b.res != .resident || !blockStopped s b false then .next s
    else .next (shareDueOn (modCtx (modBlock (moveSymbols s b) blk (fun x => { x with
        budget := x.newBudget, mark := false, area := newArea s blk b })) b.ctx
      (fun c => { c with rebind := satInc c.rebind })) [b.core])

/-! Swap-out and pre-emption (R254 to R256, R356, R357). -/

/-- A slot is parked at WAITC, MBRECV or a rope barrier, or is free. -/
def waitsOutside (x : Slot) : Bool :=
  !x.used || match x.park with
    | .monitor _ => true
    | .mbrecv _ => true
    | .barrier rope _ _ => rope
    | _ => false

/-- Every wave of a block that has not retired is parked so. -/
def mayLeave (s : State) (b : Block) : Bool :=
  (blockWaves s b).all (fun e => e.2.st == .live && e.2.trap.isNone && waitsOutside e.2.a && waitsOutside e.2.b)

/-- A running copy writes a buffer of the block. -/
def receivesCopy (s : State) (blk core : Nat) : Bool := (ropeOf s (ropeOfCore core)).locks.any (fun l => l.2.blk == blk)

/-- A wait of R358 names a rope group: of a launch, by its number, or by its own name. -/
def waitNames (gid : Nat) (g : Group) (o : SliceWait) : Bool :=
  if o.launch then g.lid == o.id && g.num == o.num else gid == o.id

/-- A rope group's slice as a pre-empted block waits for it: the TSLICE of the group's context, or else the block's own (R358). -/
def sliceTime (s : State) (g : Group) (own : Nat) : Nat :=
  let t := (ctxOf s g.ctx).tslice.toNat
  if t == 0 then own else t

/-- A wait's slice counts and is over. -/
def sliceRun (s : State) (g : Group) (own : Nat) (o : SliceWait) : Bool :=
  o.start.elim false (fun t => decide (t + sliceTime s g own ≤ s.now))

/-- A rope group is placed, or a block of it returns: its slice counts from now for the blocks that wait for it (R358). -/
def sliceStarts (s : State) (gid : Nat) : State :=
  match tget s.groups gid with
  | none => s
  | some g => { s with blocks := s.blocks.map (fun e => (e.1, { e.2 with sliceFor := e.2.sliceFor.map (fun o =>
      if waitNames gid g o && o.start.isNone then { o with start := some s.now } else o) })) }

/-- A block of a rope group leaves: the blocks that wait until the group has had its slice wait no longer, if it is pre-empted or
its slice is over (R358). -/
def hadSlice (s : State) (gid : Nat) (preempt : Bool) : State :=
  match tget s.groups gid with
  | none => s
  | some g => { s with blocks := s.blocks.map (fun e => match e.2.sliceFor with
      | some o => if waitNames gid g o && (preempt || sliceRun s g (ctxOf s e.2.ctx).tslice.toNat o) then
          (e.1, { e.2 with sliceFor := none }) else e
      | none => e) }

/-- BLOCK_SWAP_OUT (R254, R255): the block leaves its core; the rope group's quads are saved with its last block. (DESIGN CHOICE, log
entry 19) -/
def execBlockSwapOut (blk : Nat) (s : State) : Out :=
  match tget s.blocks blk with
  | none => .next s
  | some b =>
    if b.handler || b.res != .resident || stopHolds s b.core || !mayLeave s b || engineBusy s b false || receivesCopy s blk b.core then .next s
    else
      let s1 := modCtx (leaveCore (hadSlice s b.grp false) blk b .swapped) b.ctx (fun c => { c with swap := satInc c.swap })
      match tget s1.groups b.grp with
      | none => .next s1
      | some g => .next (if groupHere s1 g then s1 else saveQuads s1 b.grp g)

/-- BLOCK_PREEMPT (R311, R357): the block has stopped, its engine work is done, and no copy writes its buffers; it leaves its core,
its quads stay. -/
def execBlockPreempt (blk : Nat) (s : State) : Out :=
  match tget s.blocks blk with
  | none => .next s
  | some b =>
    if b.handler || b.res != .resident || !b.preMark || !blockStopped s b true || engineBusy s b true || receivesCopy s blk b.core then .next s
    else .next (modCtx (leaveCore (hadSlice s b.grp true) blk b .preempted) b.ctx (fun c => { c with preempted := satInc c.preempted }))

/-- The number and the blocks of a launch's next rope group; a replay has one group, of one block (R396). -/
def nextGroup (l : Launch) (v : Variant) : Nat × List Nat :=
  match l.replay with
  | some b => (b / v.info.perRope, [b])
  | none => (l.placed, (upto (min v.info.perRope (l.nblocks - l.placed * v.info.perRope))).map (fun i => l.placed * v.info.perRope + i))

/-- A rope group of another context waits for room on a rope: of a launch, by its number, or with a block that is away. -/
def waitingOther (s : State) (rope ctx : Nat) : Option SliceWait :=
  (upto 4).findSome? (fun i =>
    let c := coreOf s (4 * rope + i)
    match (c.wantL.filterMap (fun l => (tget s.launches l).map (fun x => (l, x)))).find? (fun e => e.2.st == .offered && e.2.ctx != ctx) with
    | some (l, x) => some ⟨true, l, x.var.elim x.placed (fun v => (nextGroup x v).1), none⟩
    | none => ((c.wantB.filterMap (tget s.blocks)).find? (fun b => (b.res == .swapped || b.res == .preempted) && b.ctx != ctx)).map
        (fun b => ⟨false, b.grp, 0, none⟩))

/-- TIME_SLICE_EXPIRY (R356): a rope group that has been resident for its TSLICE gives way to one of another context. -/
def execTimeSliceExpiry (grp : Nat) (s : State) : Out :=
  match tget s.groups grp with
  | none => .next s
  | some g =>
    let t := (ctxOf s g.ctx).tslice.toNat
    if g.retired || !groupHere s g || t == 0 || s.now < g.since + t then .next s
    else match waitingOther s g.rope g.ctx with
      | none => .next s
      | some o => .next (g.blocks.foldl (fun s k => modBlock s k (fun b =>
          if b.res == .resident then { b with preMark := true, sliceFor := some o } else b)) s)

/-! Return (R256, R358). -/

/-- The rope group for which a block gave way has had its slice, has retired, or comes no more; `own` is the returning block's
TSLICE. A group that has left before its slice was over has had it only if it was pre-empted (`hadSlice`). -/
def sliceOver (s : State) (own : Nat) : Option SliceWait → Bool
  | none => true
  | some o =>
    match (s.groups.find? (fun e => waitNames e.1 e.2 o)) with
    | some e => e.2.retired || (groupHere s e.2 && sliceRun s e.2 own o)
    | none => !o.launch || (tget s.launches o.id).elim true (fun l => l.st != .offered)

/-- A slot of a block that is away can go on: it is woken, its MBRECV is next for an observation, or the rope barrier that it waits
at is broken (R234, R262). -/
def slotWoken (s : State) (wid : Nat) (slotB : Bool) (x : Slot) : Bool :=
  (brokenPark s wid slotB).isSome || x.used && match x.park with
    | .run => true
    | .mbrecv op => (tget s.ops op).elim false (fun o => match o.body with
        | .mbrecv mbox _ _ _ _ => !(epOf s mbox).obs.isEmpty && (epOf s mbox).waiters.head? == some op
        | _ => false)
    | _ => false

/-- What a block wrote where it left is still on its way home. -/
def leftBehind (s : State) (b : Block) : Bool :=
  s.hw.any (fun e => e.2.ctx == b.ctx && ropeOfCore e.2.cache == ropeOfCore b.core)

/-- A block that is away may return: a swapped one once woken, a pre-empted one once its slice rule allows. -/
def mayReturn (s : State) (b : Block) : Bool :=
  (ctxOf s b.ctx).st == 1 && !leftBehind s b && (match b.res with
    | .swapped => (blockWaves s b).any (fun e => slotWoken s e.1 false e.2.a || slotWoken s e.1 true e.2.b || e.2.trap.isSome)
    | .preempted => sliceOver s (ctxOf s b.ctx).tslice.toNat b.sliceFor
    | _ => false)

/-- Rope barrier slots in use on a rope by rope groups that have not retired, apart from one. -/
def ropeBarUse (s : State) (rope skip : Nat) : Nat :=
  (s.groups.filter (fun e => e.1 != skip && e.2.rope == rope && !e.2.retired)).foldl (fun n e =>
    n + ((tget s.launches e.2.lid).bind (·.var)).elim 0 (fun v => barSlots v.info true)) 0

/-- The rope takes a block's return: the rope of its group while the group holds quads or has a block there. -/
def ropeTakes (s : State) (b : Block) (rope : Nat) : Bool :=
  match tget s.groups b.grp with
  | none => false
  | some g => rope < Config.ropes && ((g.rope == rope) || (g.quads.isEmpty && !groupHere s g &&
      decide (ropeBarUse s rope b.grp + barSlots b.var.info true ≤ 32)))

/-- Physical quads that a rope group holds on its rope, or would be allotted on a rope. -/
def groupQuads (s : State) (g : Group) (rope : Nat) (m : Meta) : Nat :=
  if g.quads.isEmpty then (allotQuads s rope g.ctx g.blocks.length m).length else g.quads.length

/-- The budget and the spill area at which a block that is away would be bound on a core now (R244, R249, R351). -/
def returnPlace (s : State) (blk : Nat) (b : Block) (core : Nat) : Option (Nat × Nat × Nat) :=
  let rope := ropeOfCore core
  let fuse := (tget s.launches b.lid).elim false (·.fuse)
  if !mayReturn s b || !ropeTakes s b rope || !modeFits s rope fuse || pointHeld s rope b.lid then none
  else (bindAt s core 0 b.ctx b.width 256 b.var.info []).bind (fun v =>
    (tget s.groups b.grp).bind (fun g =>
      (blockArea s blk b g (groupQuads s g rope b.var.info) v).map (fun a => (v, a))))

/-- A core takes a block: its L1 gives up clean copies as for an acquire at host scope, its instruction cache all words (R256,
R331, R339, R348). -/
def freshCore (s : State) (core : Nat) : State := acquireL1 (dropICache s core) core 7

/-- A block returns to a core at a budget, with a spill area. -/
def enterBlock (s : State) (blk : Nat) (b : Block) (g : Group) (core v : Nat) (area : Nat × Nat) : State :=
  let rope := ropeOfCore core
  let s1 := returnQuads (setMode s rope ((tget s.launches b.lid).elim false (·.fuse))) b.grp g rope b.var.info
  let s2 := modGroup s1 b.grp (fun x => { x with rope := rope, since := if groupHere s g then x.since else s.now })
  let s3 := modBlock { s2 with
      away := s2.away.filter (· ≠ blk)
      cores := s2.cores.map (fun e => (e.1, { e.2 with wantB := e.2.wantB.filter (· ≠ blk) })) } blk (fun b => { b with
    res := .resident, core := core, budget := v, area := area, sliceFor := none })
  let live := (b.waves.filter (fun i => (tget s.waves i).elim false (fun w => w.st == .live)))
  repointAll (repoint (shareDueOn (freshCore (enterSets (sliceStarts s3 b.grp) core live) core) [core]) rope)

/-- BLOCK_SWAP_IN (R256, R358): the Harness brings a block back to a core, or the block waits there for room. (DESIGN CHOICE, log entry 19) -/
def execBlockSwapIn (blk core : Nat) (s : State) : Out :=
  match tget s.blocks blk with
  | none => .next s
  | some b => match tget s.groups b.grp with
    | none => .next s
    | some g =>
      if !mayReturn s b || !ropeTakes s b (ropeOfCore core) then .next s
      else match returnPlace s blk b core with
        | some (v, area) => .next (enterBlock s blk b g core v area)
        | none => .next (repoint (shareDueOn (modCore s core (fun c => { c with wantB := c.wantB.filter (· ≠ blk) ++ [blk] })) [core])
            (ropeOfCore core))

/-! Placement (R241 to R246, R339 to R341). -/

/-- The blocks of a rope group bound one after another on their cores, none above a cap. -/
def bindGroup (s : State) (l : Launch) (v : Variant) (cap : Nat) : List (Nat × Nat) → List (Nat × Nat × Nat) → Option (List (Nat × Nat × Nat))
  | [], done => some done
  | (blk, core) :: rest, done =>
    let others := (done.filter (fun e => e.2.1 == core)).map (fun e => loadOf l.ctx l.width e.2.2 v.info)
    match bindAt s core 0 l.ctx l.width cap v.info others with
    | none => none
    | some n => bindGroup s l v cap rest (done ++ [(blk, core, n)])

/-- The spill areas of the blocks of a rope group that is placed, in their order; none where the context's pool has no room for
them (R249, R351). -/
def groupAreas (s : State) (l : Launch) (v : Variant) (rope : Nat) (ps : List (Nat × Nat × Nat)) : Option (List (Nat × Nat)) :=
  let quads := (allotQuads s rope l.ctx ps.length v.info).length
  areasFor s l.ctx (ps.zipIdx.map (fun e => areaNeed v.info l.width e.1.2.2 (quadsBeyond v.info e.2 quads))) (areasOf s l.ctx 0)

/-- Where a launch's next rope group goes on some cores of a rope, all at once: block, core and budget of each; none when
there is no room, or the rope's mode or point does not allow it yet. -/
def groupPlaces (s : State) (lid : Nat) (l : Launch) (v : Variant) (rope : Nat) (cores : List Nat) : Option (List (Nat × Nat × Nat)) :=
  let blks := (nextGroup l v).2
  if !modeFits s rope l.fuse || pointHeld s rope lid || decide (32 < ropeBarUse s rope 0 + barSlots v.info true) then none
  else budgets.findSome? (fun cap => (bindGroup s l v cap (blks.zip cores) []).filter (fun ps => (groupAreas s l v rope ps).isSome))

/-- A pre-empted block could return to one of some cores now: it goes first (R358). -/
def awayFirst (s : State) (cores : List Nat) : Bool :=
  s.away.any (fun k => (tget s.blocks k).elim false (fun b =>
    b.res == .preempted && cores.any (fun c => (returnPlace s k b c).isSome)))

/-- A launch offered earlier could have its next rope group placed on the same cores: it goes first (R339). -/
def offeredFirst (s : State) (lid rope : Nat) (cores : List Nat) : Bool :=
  (s.offers.takeWhile (· ≠ lid)).any (fun i => match tget s.launches i with
    | none => false
    | some l => match l.var with
      | none => false
      | some v =>
        let n := (nextGroup l v).2.length
        l.st == .offered && (ctxOf s l.ctx).st == 1 && decide (0 < n) &&
          (groupPlaces s i l v rope ((upto n).map (fun j => cores.getD (j % max 1 cores.length) 0))).isSome)

/-- SEED of a lane (R246). -/
def seedOf (s0 : W32) (blk wave lane : Nat) : W32 :=
  let x := s0 ^^^ w32 ((blk % 2 ^ 20) <<< 12) ^^^ w32 (wave <<< 6) ^^^ w32 lane
  if x == 0 then 1 else x

/-- A wave at launch (R46, R47, R105, R246). -/
def newWave (l : Launch) (v : Variant) (blk bid idx now tmin : Nat) : Wave :=
  { blk := bid, idx := idx, width := l.width, ctx := l.ctx, readyAt := now, tmin := tmin
    a := { used := true, pc := v.text, mask := allLanes l.width, ctl := { mode := l.mode } }
    seed := (upto l.width).map (seedOf l.seed blk idx) }

/-- The barriers of a scope at launch, each expecting `less` fewer than declared (R118, R242). -/
def newBars (m : Meta) (rope : Bool) (less : Nat) : List Barrier :=
  (m.bars.zipIdx.filter (fun e => e.1.rope == rope)).map (fun e =>
    { rope := rope, num := e.2, all := e.1.all, exp := e.1.count - less })

/-- A block of a rope group at launch, with its waves. -/
def addBlock (gid : Nat) (lid : Nat) (l : Launch) (v : Variant) (quads : List Nat) (areas : List (Nat × Nat)) (s : State)
    (e : (Nat × Nat × Nat) × Nat) : State :=
  let bid := s.nextId
  let wids := (upto v.info.waves).map (fun i => bid + 1 + i)
  let b : Block := { ctx := l.ctx, lid := lid, grp := gid, idx := e.1.1, core := e.1.2.1, budget := e.1.2.2, width := l.width,
                     waves := wids, bars := newBars v.info false 0, qbind := quadBinding v.info e.2 quads, var := v, placedAt := s.now,
                     area := areas.getD e.2 (0, 0) }
  let s1 := { s with nextId := bid + 1 + v.info.waves, blocks := tput s.blocks bid b }
  let s2 := wids.zipIdx.foldl (fun s w => setWave s w.1 (newWave l v e.1.1 bid w.2 s.now s.readMax)) s1
  modGroup (freshCore (enterSets s2 e.1.2.1 wids) e.1.2.1) gid (fun g => { g with blocks := g.blocks ++ [bid] })

/-- A rope group is placed. -/
def placeGroup (s : State) (lid : Nat) (l : Launch) (v : Variant) (rope : Nat) (places : List (Nat × Nat × Nat)) : State :=
  let gid := s.nextId
  let num := (nextGroup l v).1
  let here := min v.info.perRope (l.nblocks - num * v.info.perRope)
  let quads := allotQuads s rope l.ctx places.length v.info
  let s1 := quads.foldl (clearQuad rope l.ctx) (setMode s rope l.fuse)
  let g : Group := { lid := lid, num := num, ctx := l.ctx, rope := rope, blocks := [], quads := quads, since := s.now,
                     bars := newBars v.info true (v.info.waves * (v.info.perRope - here)) }
  let areas := (groupAreas s l v rope places).getD []
  let s2 := places.zipIdx.foldl (addBlock gid lid l v quads areas) { s1 with groups := tput s1.groups gid g, nextId := gid + 1 }
  let s3 := modLaunch { s2 with
      cores := s2.cores.map (fun e => (e.1, { e.2 with wantL := e.2.wantL.filter (· ≠ lid) })) } lid (fun l => { l with
    placed := l.placed + 1, st := if l.placed + 1 == launchGroups l then .placed else l.st })
  let s4 := if (tget s3.launches lid).elim false (fun l => l.st == .placed) then
      { s3 with offers := s3.offers.filter (· ≠ lid) } else s3
  repointAll (repoint (shareDueOn (sliceStarts s4 gid) ((places.map (·.2.1)).eraseDups)) rope)

/-- The Harness chooses cores on which a rope group waits for room: its context is in demand there (R354). -/
def wantCores (s : State) (lid rope : Nat) (cores : List Nat) : State :=
  repoint (shareDueOn (cores.foldl (fun s c => modCore s c (fun x => { x with wantL := x.wantL.filter (· ≠ lid) ++ [lid] })) s) cores) rope

/-- ROPE_GROUP_PLACEMENT (R241, R339): the Harness places a launch's next rope group on cores of one rope, one per block, or
the group waits there for room. -/
def execRopeGroupPlacement (lid rope : Nat) (cores : List Nat) (s : State) : Out :=
  match tget s.launches lid with
  | none => .next s
  | some l => match l.var with
    | none => .next s
    | some v =>
      if l.st != .offered || (ctxOf s l.ctx).st != 1 || Config.ropes ≤ rope || cores.length != (nextGroup l v).2.length
        || cores.any (fun c => ropeOfCore c != rope) then .next s
      else if awayFirst s cores || offeredFirst s lid rope cores then .next s
      else match groupPlaces s lid l v rope cores with
        | some ps => .next (placeGroup s lid l v rope ps)
        | none => .next (wantCores s lid rope cores.eraseDups)

end Sys2Proof.Machine
end

