-- ==== Sys2Proof/Machine/RvForm.lean ====
section
/-! DEFINITION. RISC-V encodings of a hart: fields, immediates, the expansion of the C extension (R363, PRESUMED, log entry 20). -/

namespace Sys2Proof.Machine

/-! Formats of a 32-bit instruction. -/

def rvR (op f3 f7 rd rs1 rs2 : Nat) : Nat := op + rd * 2 ^ 7 + f3 * 2 ^ 12 + rs1 * 2 ^ 15 + rs2 * 2 ^ 20 + f7 * 2 ^ 25
def rvI (op f3 rd rs1 imm : Nat) : Nat := op + rd * 2 ^ 7 + f3 * 2 ^ 12 + rs1 * 2 ^ 15 + (imm % 4096) * 2 ^ 20
def rvS (op f3 rs1 rs2 imm : Nat) : Nat := rvR op f3 (bits imm 11 5) (bits imm 4 0) rs1 rs2
def rvB (f3 rs1 rs2 imm : Nat) : Nat :=
  rvR 0x63 f3 (bits imm 12 12 * 64 + bits imm 10 5) (bits imm 4 1 * 2 + bits imm 11 11) rs1 rs2
def rvU (op rd imm : Nat) : Nat := op + rd * 2 ^ 7 + (imm % 2 ^ 20) * 2 ^ 12
def rvJ (rd imm : Nat) : Nat :=
  rvU 0x6F rd (bits imm 20 20 * 2 ^ 19 + bits imm 10 1 * 2 ^ 9 + bits imm 11 11 * 2 ^ 8 + bits imm 19 12)

/-- The signed immediates of a 32-bit instruction. -/
def rvImmI (w : Nat) : Int := sextI (bits w 31 20) 12
def rvImmS (w : Nat) : Int := sextI (bits w 31 25 * 32 + bits w 11 7) 12
def rvImmB (w : Nat) : Int := sextI (bit w 31).toNat 1 * 4096 + (bits w 7 7 * 2048 + bits w 30 25 * 32 + bits w 11 8 * 2 : Nat)
def rvImmU (w : Nat) : Int := sextI (bits w 31 12) 20 * 4096
def rvImmJ (w : Nat) : Int :=
  sextI (bit w 31).toNat 1 * 2 ^ 20 + (bits w 19 12 * 4096 + bits w 20 20 * 2048 + bits w 30 21 * 2 : Nat)

/-- The low n bits of two's complement. -/
def imm12 (x n : Nat) : Nat := wrapI 12 (sextI x n)

/-! The C extension: a halfword as the 32-bit instruction it stands for; none is illegal. -/

/-- Six-bit immediate of quadrants 1 and 2. -/
def cImm6 (h : Nat) : Nat := bits h 12 12 * 32 + bits h 6 2
/-- Offsets of word and doubleword accesses. -/
def cOffW (h : Nat) : Nat := bits h 12 10 * 8 + bits h 6 6 * 4 + bits h 5 5 * 64
def cOffD (h : Nat) : Nat := bits h 12 10 * 8 + bits h 6 5 * 64

/-- Quadrant 0. -/
def cQuad0 (h : Nat) : Option Nat :=
  let rd := 8 + bits h 4 2
  let r1 := 8 + bits h 9 7
  match bits h 15 13 with
  | 0 =>
    let imm := bits h 12 11 * 16 + bits h 10 7 * 64 + bits h 6 6 * 4 + bits h 5 5 * 8
    if imm = 0 then none else some (rvI 0x13 0 rd 2 imm)
  | 1 => some (rvI 0x07 3 rd r1 (cOffD h))
  | 2 => some (rvI 0x03 2 rd r1 (cOffW h))
  | 3 => some (rvI 0x03 3 rd r1 (cOffD h))
  | 5 => some (rvS 0x27 3 r1 rd (cOffD h))
  | 6 => some (rvS 0x23 2 r1 rd (cOffW h))
  | 7 => some (rvS 0x23 3 r1 rd (cOffD h))
  | _ => none

/-- The arithmetic of quadrant 1, funct3 4. -/
def cArith (h : Nat) : Option Nat :=
  let rd := 8 + bits h 9 7
  let r2 := 8 + bits h 4 2
  match bits h 11 10, bit h 12, bits h 6 5 with
  | 0, _, _ => some (rvI 0x13 5 rd rd (cImm6 h))
  | 1, _, _ => some (rvI 0x13 5 rd rd (0x400 + cImm6 h))
  | 2, _, _ => some (rvI 0x13 7 rd rd (imm12 (cImm6 h) 6))
  | _, false, 0 => some (rvR 0x33 0 0x20 rd rd r2)
  | _, false, 1 => some (rvR 0x33 4 0 rd rd r2)
  | _, false, 2 => some (rvR 0x33 6 0 rd rd r2)
  | _, false, _ => some (rvR 0x33 7 0 rd rd r2)
  | _, true, 0 => some (rvR 0x3B 0 0x20 rd rd r2)
  | _, true, 1 => some (rvR 0x3B 0 0 rd rd r2)
  | _, true, _ => none

/-- Offset of C.J, and of C.BEQZ and C.BNEZ. -/
def cOffJ (h : Nat) : Nat :=
  wrapI 21 (sextI (bits h 12 12 * 2048 + bits h 11 11 * 16 + bits h 10 9 * 256 + bits h 8 8 * 1024 + bits h 7 7 * 64
    + bits h 6 6 * 128 + bits h 5 3 * 2 + bits h 2 2 * 32) 12)
def cOffB (h : Nat) : Nat :=
  wrapI 13 (sextI (bits h 12 12 * 256 + bits h 11 10 * 8 + bits h 6 5 * 64 + bits h 4 3 * 2 + bits h 2 2 * 32) 9)

/-- Quadrant 1. -/
def cQuad1 (h : Nat) : Option Nat :=
  let rd := bits h 11 7
  let i := imm12 (cImm6 h) 6
  match bits h 15 13 with
  | 0 => some (rvI 0x13 0 rd rd i)
  | 1 => if rd = 0 then none else some (rvI 0x1B 0 rd rd i)
  | 2 => some (rvI 0x13 0 rd 0 i)
  | 3 =>
    if cImm6 h = 0 then none
    else if rd = 2 then
      some (rvI 0x13 0 2 2 (imm12 (bits h 12 12 * 512 + bits h 6 6 * 16 + bits h 5 5 * 64 + bits h 4 3 * 128 + bits h 2 2 * 32) 10))
    else some (rvU 0x37 rd (wrapI 20 (sextI (cImm6 h) 6)))
  | 4 => cArith h
  | 5 => some (rvJ 0 (cOffJ h))
  | 6 => some (rvB 0 (8 + bits h 9 7) 0 (cOffB h))
  | _ => some (rvB 1 (8 + bits h 9 7) 0 (cOffB h))

/-- Quadrant 2. -/
def cQuad2 (h : Nat) : Option Nat :=
  let rd := bits h 11 7
  let r2 := bits h 6 2
  let offW := bits h 12 12 * 32 + bits h 6 4 * 4 + bits h 3 2 * 64
  let offD := bits h 12 12 * 32 + bits h 6 5 * 8 + bits h 4 2 * 64
  let stW := bits h 12 9 * 4 + bits h 8 7 * 64
  let stD := bits h 12 10 * 8 + bits h 9 7 * 64
  match bits h 15 13 with
  | 0 => some (rvI 0x13 1 rd rd (cImm6 h))
  | 1 => some (rvI 0x07 3 rd 2 offD)
  | 2 => if rd = 0 then none else some (rvI 0x03 2 rd 2 offW)
  | 3 => if rd = 0 then none else some (rvI 0x03 3 rd 2 offD)
  | 4 =>
    if r2 = 0 then
      if rd = 0 then (if bit h 12 then some (rvI 0x73 0 0 0 1) else none)
      else some (rvI 0x67 0 (if bit h 12 then 1 else 0) rd 0)
    else some (rvR 0x33 0 0 rd (if bit h 12 then rd else 0) r2)
  | 5 => some (rvS 0x27 3 2 r2 stD)
  | 6 => some (rvS 0x23 2 2 r2 stW)
  | _ => some (rvS 0x23 3 2 r2 stD)

/-- A halfword of the C extension expanded. (PRESUMED, log entry 20) -/
def rvExpand (h : Nat) : Option Nat :=
  match h % 4 with
  | 0 => cQuad0 h
  | 1 => cQuad1 h
  | _ => cQuad2 h

/-! Integer arithmetic. -/

/-- Quotient and remainder of the M extension: a zero divisor gives all ones and the dividend. -/
def rvDiv (a b : Int) : Int := if b = 0 then -1 else a.tdiv b
def rvRem (a b : Int) : Int := a.tmod b

/-- The M extension on w-bit values given signed and unsigned. -/
def rvMul (f3 w : Nat) (a b : Int) (ua ub : Nat) : Int :=
  match f3 with
  | 0 => a * b
  | 1 => (a * b) / (2 ^ w : Nat)
  | 2 => (a * (ub : Int)) / (2 ^ w : Nat)
  | 3 => ((ua * ub) / 2 ^ w : Nat)
  | 4 => rvDiv a b
  | 5 => rvDiv ua ub
  | 6 => rvRem a b
  | _ => rvRem ua ub

/-- OP at 64 bits; none is illegal. -/
def rvAlu (f3 f7 : Nat) (a b : W64) : Option W64 :=
  let sh := b.toNat % 64
  match f7, f3 with
  | 0, 0 => some (a + b)
  | 0, 1 => some (a <<< sh)
  | 0, 2 => some (if a.toInt < b.toInt then 1 else 0)
  | 0, 3 => some (if a.toNat < b.toNat then 1 else 0)
  | 0, 4 => some (a ^^^ b)
  | 0, 5 => some (a >>> sh)
  | 0, 6 => some (a ||| b)
  | 0, _ => some (a &&& b)
  | 0x20, 0 => some (a - b)
  | 0x20, 5 => some (a.sshiftRight sh)
  | 1, _ => some (BitVec.ofInt 64 (rvMul f3 64 a.toInt b.toInt a.toNat b.toNat))
  | _, _ => none

/-- A 32-bit result sign-extended. -/
def rvSext (x : W32) : W64 := BitVec.ofInt 64 x.toInt

/-- OP-32; none is illegal. -/
def rvAluW (f3 f7 : Nat) (a b : W32) : Option W64 :=
  let sh := b.toNat % 32
  match f7, f3 with
  | 0, 0 => some (rvSext (a + b))
  | 0, 1 => some (rvSext (a <<< sh))
  | 0, 5 => some (rvSext (a >>> sh))
  | 0x20, 0 => some (rvSext (a - b))
  | 0x20, 5 => some (rvSext (a.sshiftRight sh))
  | 1, 0 => some (rvSext (a * b))
  | 1, _ => if f3 < 4 then none else some (rvSext (BitVec.ofInt 32 (rvMul f3 32 a.toInt b.toInt a.toNat b.toNat)))
  | _, _ => none

/-- The condition of a branch; none is illegal. -/
def rvCond (f3 : Nat) (a b : W64) : Option Bool :=
  match f3 with
  | 0 => some (a == b)
  | 1 => some (a != b)
  | 4 => some (decide (a.toInt < b.toInt))
  | 5 => some (decide (b.toInt ≤ a.toInt))
  | 6 => some (decide (a.toNat < b.toNat))
  | 7 => some (decide (b.toNat ≤ a.toNat))
  | _ => none

end Sys2Proof.Machine
end

