-- ==== Sys2Proof/Machine/RvFloat.lean ====
section
/-! DEFINITION. The F and D extensions of a hart: NaN boxing, quotients and roots, conversions, the operations of OP-FP
(R363, PRESUMED, log entry 20). A result is a value with its fflags: NX 1, UF 2, OF 4, DZ 8, NV 16. -/

namespace Sys2Proof.Machine

/-- The model's number of a RISC-V rounding mode: RNE, RTZ, RDN, RUP, RMM; none is illegal. -/
def rvRm (rm frm : Nat) : Option Nat :=
  match if rm = 7 then frm else rm with
  | 0 => some 0
  | 1 => some 1
  | 2 => some 3
  | 3 => some 2
  | 4 => some 9
  | _ => none

/-- fflags of the exceptions of an operation. -/
def rvFlags (x : Exc) : Nat := x.nx.toNat + x.uf.toNat * 2 + x.ovf.toNat * 4 + x.dz.toNat * 8 + x.nv.toNat * 16

/-- The canonical NaN. -/
def rvNan (f : Fmt) : Nat := f.inf.getD 0 + 2 ^ (f.fb - 1)

/-- A computed result: every NaN is the canonical one. -/
def rvRes (f : Fmt) (r : Nat × Exc) : Nat × Nat := (if isNan (unpack f r.1) then rvNan f else r.1, rvFlags r.2)

/-- A single in a 64-bit register is boxed in ones; an operand that is not boxed is the canonical NaN. -/
def rvBox (f : Fmt) (x : Nat) : W64 := if f.w = 32 then w64 (0xFFFFFFFF * 2 ^ 32 + x) else w64 x
def rvUnbox (f : Fmt) (x : W64) : Nat :=
  if f.w = 32 then (if bits x.toNat 63 32 = 0xFFFFFFFF then bits x.toNat 31 0 else rvNan f) else x.toNat

/-- x / y rounded once. -/
def rvFdiv (f : Fmt) (rm x y : Nat) : Nat × Exc :=
  let a := unpack f x
  let b := unpack f y
  let s := fvNeg a != fvNeg b
  match propNan f [(f, a), (f, b)] with
  | some r => r
  | none => match a, b with
    | .inf _, .inf _ => invalid f 5
    | .inf _, _ => (packInf f s, {})
    | _, .inf _ => (packMag f s 0, {})
    | .fin _ m e, .fin _ n g =>
      if n = 0 then (if m = 0 then invalid f 5 else (packInf f s, { dz := true }))
      else
        let k := f.fb + 5 + Nat.log2 n
        let q := (m <<< k) / n
        roundFin f rm false false s (2 * q + (if (m <<< k) % n = 0 then 0 else 1)) (e - g - k - 1)
    | _, _ => invalid f 5

/-- The square root rounded once. -/
def rvFsqrt (f : Fmt) (rm x : Nat) : Nat × Exc :=
  let a := unpack f x
  match propNan f [(f, a)] with
  | some r => r
  | none => match a with
    | .inf false => (x, {})
    | .fin neg m e =>
      if m = 0 then (x, {})
      else if neg then invalid f 5
      else
        let k := 2 * (f.fb + 4) + (e % 2).toNat
        let r := isqrt (m <<< k)
        roundFin f rm false false false (2 * r + (if r * r = m <<< k then 0 else 1)) ((e - k) / 2 - 1)
    | _ => invalid f 5

/-- FMIN and FMAX: a NaN gives way to a number, -0 is below +0. -/
def rvMinMax (f : Fmt) (mx : Bool) (x y : Nat) : Nat × Nat :=
  let a := unpack f x
  let b := unpack f y
  let nv := if isSNan a || isSNan b then 16 else 0
  if isNan a && isNan b then (rvNan f, nv)
  else if isNan a then (y, nv)
  else if isNan b then (x, nv)
  else
    let lt := match cmpFV a b with
      | .lt => true
      | .eq => fvNeg a && !fvNeg b
      | .gt => false
    (if lt != mx then x else y, nv)

/-- FLE, FLT, FEQ by funct3. -/
def rvCmp (f : Fmt) (f3 x y : Nat) : Nat × Nat :=
  let a := unpack f x
  let b := unpack f y
  if isNan a || isNan b then (0, if f3 != 2 || isSNan a || isSNan b then 16 else 0)
  else
    let c := cmpFV a b
    let r : Bool := match f3 with | 0 => c != .gt | 1 => c == .lt | _ => c == .eq
    (r.toNat, 0)

/-- FSGNJ, FSGNJN, FSGNJX by funct3. -/
def rvSgnj (f : Fmt) (f3 x y : Nat) : Nat :=
  let sx := bit x (f.w - 1)
  let sy := bit y (f.w - 1)
  packMag f (match f3 with | 0 => sy | 1 => !sy | _ => sx != sy) (x % 2 ^ (f.w - 1))

/-- FCLASS. -/
def rvClass (f : Fmt) (x : Nat) : Nat :=
  match unpack f x with
  | .nan _ _ sig => if sig then 256 else 512
  | .inf n => if n then 1 else 128
  | .fin n m _ =>
    if m = 0 then (if n then 8 else 16)
    else if m < 2 ^ f.fb then (if n then 4 else 32)
    else if n then 2 else 64

/-- A float to an integer: W, WU, L, LU by code; out of range saturates, NaN is the largest value. -/
def rvToInt (f : Fmt) (rm code x : Nat) : W64 × Nat :=
  let w := if code < 2 then 32 else 64
  let sg := code % 2 == 0
  let ext := fun n => if w = 32 then rvSext (w32 n) else w64 n
  match unpack f x with
  | .nan .. => (ext (if sg then 2 ^ (w - 1) - 1 else 2 ^ w - 1), 16)
  | v => let r := fToInt v rm w sg false
    (ext r.1, rvFlags r.2)

/-- An integer register as the number that W, WU, L, LU name. -/
def rvIntOf (code : Nat) (x : W64) : Int :=
  match code with
  | 0 => sextI x.toNat 32
  | 1 => (x.toNat % 2 ^ 32 : Nat)
  | 2 => x.toInt
  | _ => (x.toNat : Int)

/-- What OP-FP and the fused forms give: whether the destination is a floating register, its value, its fflags. -/
structure RvF where
  toF : Bool
  val : W64
  flags : Nat
deriving DecidableEq, Repr

/-- A floating result of a format. -/
def rvF (f : Fmt) (r : Nat × Nat) : RvF := ⟨true, rvBox f r.1, r.2⟩

/-- FMADD, FMSUB, FNMSUB, FNMADD by opcode. -/
def rvFused (f : Fmt) (op rm a b c : Nat) : RvF :=
  let a1 := if op = 0x4B || op = 0x4F then flipSign f a else a
  let c1 := if op = 0x47 || op = 0x4F then flipSign f c else c
  rvF f (rvRes f (fFma f rm false a1 b c1))

/-- OP-FP without a rounding mode: funct5, funct3, the rs2 field, the floating operands, rs1's integer. -/
def rvOpFpPlain (f : Fmt) (f5 f3 r2 a b : Nat) (fx : W64) (x : W64) : Option RvF :=
  match f5 with
  | 0x04 => if 3 ≤ f3 then none else some (rvF f (rvSgnj f f3 a b, 0))
  | 0x05 => if 2 ≤ f3 then none else some (rvF f (rvMinMax f (f3 == 1) a b))
  | 0x14 =>
    if 3 ≤ f3 then none
    else let r := rvCmp f f3 a b
      some ⟨false, w64 r.1, r.2⟩
  | 0x1C =>
    if r2 != 0 then none
    else if f3 = 0 then some ⟨false, if f.w = 32 then rvSext (w32 fx.toNat) else fx, 0⟩
    else if f3 = 1 then some ⟨false, w64 (rvClass f a), 0⟩
    else none
  | 0x1E => if r2 != 0 || f3 != 0 then none else some (rvF f (x.toNat % 2 ^ f.w, 0))
  | _ => none

/-- OP-FP that rounds; a rounding mode that is reserved is illegal. -/
def rvOpFpRound (f : Fmt) (f5 f3 frm r2 a b : Nat) (fx x : W64) : Option RvF :=
  match rvRm f3 frm with
  | none => none
  | some rm => match f5 with
    | 0x00 => some (rvF f (rvRes f (fAdd f rm false a b)))
    | 0x01 => some (rvF f (rvRes f (fSub f rm false a b)))
    | 0x02 => some (rvF f (rvRes f (fMul f rm false a b)))
    | 0x03 => some (rvF f (rvRes f (rvFdiv f rm a b)))
    | 0x0B => if r2 != 0 then none else some (rvF f (rvRes f (rvFsqrt f rm a)))
    | 0x08 =>
      let g := if f.w = 32 then f64 else f32
      if r2 != (if f.w = 32 then 1 else 0) then none
      else some (rvF f (rvRes f (fConv g f rm false false 0 (rvUnbox g fx))))
    | 0x18 =>
      if 4 ≤ r2 then none
      else let r := rvToInt f rm r2 a
        some ⟨false, r.1, r.2⟩
    | 0x1A => if 4 ≤ r2 then none else some (rvF f (rvRes f (fOfInt f rm false 0 (rvIntOf r2 x))))
    | _ => none

/-- OP-FP: none is illegal. -/
def rvOpFp (f : Fmt) (f5 f3 frm r2 : Nat) (fx fy x : W64) : Option RvF :=
  let a := rvUnbox f fx
  let b := rvUnbox f fy
  if [0x04, 0x05, 0x14, 0x1C, 0x1E].contains f5 then rvOpFpPlain f f5 f3 r2 a b fx x
  else rvOpFpRound f f5 f3 frm r2 a b fx x

end Sys2Proof.Machine
end

