-- ==== Sys2Proof/Machine/HartMem.lean ====
section
/-! DEFINITION. The hart of an episode: its registers, CSRs, exceptions, Sv48 translation and accesses, what R363 to R367
say of them and what they leave to the RISC-V specifications (PRESUMED, log entry 20), its integer arithmetic, loads and stores. -/

namespace Sys2Proof.Machine

/-! Registers. -/

def hartOf (s : State) (e : Nat) : Hart := (epOf s e).hart
def modHart (s : State) (e : Nat) (f : Hart → Hart) : State := modEp s e (fun x => { x with hart := f x.hart })

/-- An integer register; x0 reads 0 and discards writes. -/
def rvX (h : Hart) (i : Nat) : W64 := if i = 0 then 0 else tgetD h.x i 0
def rvPutX (s : State) (e rd : Nat) (v : W64) : State :=
  if rd = 0 then s else modHart s e (fun h => { h with x := tset 0 h.x rd v })

/-- A CSR as it is stored, by number; fcsr is whole under 0x003. -/
def rvCsr (h : Hart) (n : Nat) : Nat := (tgetD h.csr n 0).toNat
def setCsr (h : Hart) (n v : Nat) : Hart := { h with csr := tset 0 h.csr n (w64 v) }

/-- The M-mode registers as the firmware has set them at an episode start: every exception delegated to S-mode but the ECALLs of
S and M, every S-mode interrupt delegated, its trap vector, the counters open (R363, PRESUMED, log entry 20). -/
def rvFw (n : Nat) : Nat :=
  match n with
  | 0x302 => 0xB1FF
  | 0x303 => 0x222
  | 0x305 => Config.firmwareVec.toNat / 4 * 4
  | 0x306 => 7
  | _ => 0
/-- An M-mode register: it is stored as its difference from what the firmware has set. -/
def mCsr (h : Hart) (n : Nat) : Nat := rvCsr h n ^^^ rvFw n
def setMCsr (h : Hart) (n v : Nat) : Hart := setCsr h n (v ^^^ rvFw n)

/-- The privilege of an access: a load or store under mstatus.MPRV has that of MPP. -/
def hPriv (h : Hart) (kind : Nat) : Nat :=
  if kind != 0 && bit (mCsr h 0x300) 17 then bits (mCsr h 0x300) 12 11 else h.priv

/-- Fields of sstatus: SIE, SPP, the FS and VS states, SUM, MXR. -/
def hSie (h : Hart) : Bool := bit (rvCsr h 0x100) 1
def hFs (h : Hart) : Nat := bits (rvCsr h 0x100) 14 13
def hVs (h : Hart) : Nat := bits (rvCsr h 0x100) 10 9
def hSum (h : Hart) : Bool := bit (rvCsr h 0x100) 18
def hMxr (h : Hart) : Bool := bit (rvCsr h 0x100) 19

/-- A floating register written; FS becomes dirty. -/
def rvPutF (s : State) (e rd : Nat) (v : W64) : State :=
  modHart s e (fun h => setCsr { h with f := tset 0 h.f rd v } 0x100 (setBits (rvCsr h 0x100) 14 13 3))
/-- fflags accrued. -/
def rvAccrue (s : State) (e fl : Nat) : State :=
  if fl = 0 then s
  else modHart s e (fun h => setCsr (setCsr h 3 (rvCsr h 3 ||| fl)) 0x100 (setBits (rvCsr h 0x100) 14 13 3))

/-! Exceptions and interrupts. -/

/-- A trap is delegated to S-mode: medeleg or mideleg says so, and it is not taken in M-mode. -/
def rvDelegated (h : Hart) (int : Bool) (cause : Nat) : Bool :=
  h.priv != 3 && bit (mCsr h (if int then 0x303 else 0x302)) cause

/-- The address of a trap's handler by a vector register. -/
def rvVector (tv : Nat) (int : Bool) (cause : Nat) : W64 :=
  w64 (tv / 4 * 4 + (if int && tv % 4 == 1 then 4 * cause else 0))

/-- A trap taken in S-mode, or in M-mode where it is not delegated. (PRESUMED, log entry 20) -/
def rvTrap (s : State) (e : Nat) (int : Bool) (cause : Nat) (tval : W64) : State :=
  modHart s e (fun h =>
    if rvDelegated h int cause then
      let st := rvCsr h 0x100
      let st1 := setBits (setBits (setBits st 8 8 h.priv) 5 5 (bit st 1).toNat) 1 1 0
      let h1 := setCsr (setCsr (setCsr (setCsr h 0x100 st1) 0x141 h.pc.toNat) 0x142 (flag int 63 + cause)) 0x143 tval.toNat
      { h1 with priv := 1, pc := rvVector (rvCsr h 0x105) int cause }
    else
      let st := mCsr h 0x300
      let st1 := setBits (setBits (setBits st 12 11 h.priv) 7 7 (bit st 3).toNat) 3 3 0
      let h1 := setMCsr (setMCsr (setMCsr (setMCsr h 0x300 st1) 0x341 h.pc.toNat) 0x342 (flag int 63 + cause)) 0x343 tval.toNat
      { h1 with priv := 3, pc := rvVector (mCsr h 0x305) int cause })

/-- mip: SSIP by software, STIP and SEIP by M-mode, SEIP also while MBIE = 1 and actions wait (R367). -/
def rvMip (x : Episode) : Nat :=
  (bits (rvCsr x.hart 0x144) 1 1 * 2) ||| (mCsr x.hart 0x344 &&& 0x220) ||| flag (x.mbie && !x.actions.isEmpty) 9
/-- mie: the S-mode bits of sie and its own. -/
def rvMie (h : Hart) : Nat := rvCsr h 0x104 ||| mCsr h 0x304
/-- sip: the delegated bits of mip. -/
def rvSip (x : Episode) : Nat := rvMip x &&& mCsr x.hart 0x303

/-- The interrupts pending and enabled. -/
def rvPend (x : Episode) : Nat := rvMip x &&& rvMie x.hart
/-- The interrupt of a set that comes first: external, software, timer. -/
def rvFirst (p : Nat) : Option Nat := [9, 1, 5].find? (fun n => bit p n)
/-- The interrupt that is taken: one for M-mode before one for S-mode. -/
def rvTake (x : Episode) : Option Nat :=
  let h := x.hart
  let m := rvFirst (rvPend x &&& (rvPend x ^^^ mCsr h 0x303))
  let s := rvFirst (rvPend x &&& mCsr h 0x303)
  if m.isSome && (h.priv < 3 || bit (mCsr h 0x300) 3) then m
  else if s.isSome && (h.priv == 0 || h.priv == 1 && hSie h) then s
  else none

/-! Translation and the window check (R363, R366). An access has a kind: 0 fetch, 1 load, 2 store. -/

/-- The causes of an access fault, a page fault and a misaligned address of a kind. -/
def accFault (kind : Nat) : Nat := match kind with | 0 => 1 | 1 => 5 | _ => 7
def pageFault (kind : Nat) : Nat := match kind with | 0 => 12 | 1 => 13 | _ => 15
def misFault (kind : Nat) : Nat := match kind with | 0 => 0 | 1 => 4 | _ => 6

/-- A window grants a kind of access. -/
def kindOk (kind : Nat) (w : Window) : Bool := match kind with | 0 => w.x | 1 => w.rd | _ => w.w

/-- A leaf permits the access: page permissions, U against the privilege, A and D already set. -/
def leafOk (h : Hart) (kind p : Nat) : Bool :=
  (match kind with | 0 => bit p 3 | 1 => bit p 1 || (hMxr h && bit p 3) | _ => bit p 2 && bit p 7) && bit p 6
    && (if bit p 4 then hPriv h kind == 0 || (hSum h && kind != 0) else hPriv h kind == 1)

/-- The walk from a table through the levels listed, the highest first. -/
def rvWalk (s : State) (x : Episode) (kind va : Nat) : List Nat → Nat → Except Nat Nat
  | [], _ => .error (pageFault kind)
  | level :: rest, table =>
    let a := table + 8 * bits va (20 + 9 * level) (12 + 9 * level)
    if !inWindow x a 8 (·.rd) || unitPois s a then .error (accFault kind)
    else
      let p := peekNum s a 8
      let ppn := bits p 53 10
      if !bit p 0 || (!bit p 1 && bit p 2) || bits p 63 54 != 0 then .error (pageFault kind)
      else if bit p 1 || bit p 3 then
        if !leafOk x.hart kind p || ppn % 2 ^ (9 * level) != 0 then .error (pageFault kind)
        else .ok (ppn * 4096 + va % 2 ^ (12 + 9 * level))
      else if bit p 4 || bit p 6 || bit p 7 then .error (pageFault kind)
      else rvWalk s x kind va rest (ppn * 4096)

/-- Bare, Sv39 or Sv48, and no translation in M-mode; an address that is not canonical gives a page fault. (PRESUMED, log entry 20) -/
def rvXlat (s : State) (e kind va : Nat) : Except Nat Nat :=
  let x := epOf s e
  let satp := rvCsr x.hart 0x180
  let root := bits satp 43 0 * 4096
  if bits satp 63 60 = 0 || hPriv x.hart kind == 3 then .ok va
  else
    let top := if bits satp 63 60 = 8 then 38 else 47
    if bits va 63 top != 0 && bits va 63 top != 2 ^ (64 - top) - 1 then .error (pageFault kind)
    else rvWalk s x kind va (if top = 38 then [2, 1, 0] else [3, 2, 1, 0]) root

/-- The physical address of an access of n bytes of memory: aligned, translated, inside a window. -/
def rvPa (s : State) (e kind va n : Nat) : Except Nat Nat :=
  if va % n != 0 then .error (misFault kind)
  else match rvXlat s e kind va with
    | .error c => .error c
    | .ok pa => if inWindow (epOf s e) pa n (kindOk kind) then .ok pa else .error (accFault kind)

/-! Accesses. -/

/-- What an access gives: done, an exception, or the instruction waits. -/
inductive RvMem where
  | ok (s : State) (v : Nat)
  | trap (s : State) (cause : Nat)
  | wait

/-- The mailbox page lies at its own address, outside the windows (R367). -/
def inMbPage (pa : Nat) : Bool := pa / 4096 == mbPage / 4096

/-- A load of n bytes: the mailbox page, or memory through the private L2 (R363, R367, R368). -/
def rvLoad (s : State) (e va n : Nat) : RvMem :=
  if va % n != 0 then .trap s 4
  else match rvXlat s e 1 va with
    | .error c => .trap s c
    | .ok pa =>
      if inMbPage pa then
        if pa % 4096 == 0x218 && n == 8 && !hartReleased s e then .wait
        else match pageRead s e (pa % 4096) n with
          | none => .trap s 5
          | some (v, t) => .ok t v
      else if !inWindow (epOf s e) pa n (·.rd) then .trap s 5
      else
        let r := cacheRead s (campCache e) (epOf s e).owner pa n false
        if r.2.2.1 then .trap r.2.1 5 else .ok r.2.1 (ofBytes r.1)

/-- A hart's own copy of a line goes; its writes complete at T. -/
def rvWrote (s : State) (e t : Nat) : State := modHart s e (fun h => { h with lastT := max h.lastT t })

/-- A store of n bytes, performed at its home (R363). -/
def rvStore (s : State) (e va n v : Nat) : RvMem :=
  if va % n != 0 then .trap s 6
  else match rvXlat s e 2 va with
    | .error c => .trap s c
    | .ok pa =>
      if inMbPage pa then
        match pageWrite s e (pa % 4096) n v with
        | none => .trap s 7
        | some t => .ok t 0
      else if !inWindow (epOf s e) pa n (·.w) then .trap s 7
      else
        let p := engineWrite s pa (bytesOf n v)
        .ok (updateCopy (rvWrote p.1 e p.2) (campCache e) ((bytesOf n v).zipIdx.map (fun b => (pa + b.2, b.1))) 4) 0

/-- funct5 of an AMO as a code of R179; none is illegal. -/
def amoCode (f5 : Nat) : Option Nat :=
  match f5 with
  | 0x00 => some 0
  | 0x01 => some 8
  | 0x04 => some 7
  | 0x08 => some 6
  | 0x0C => some 5
  | 0x10 => some 1
  | 0x14 => some 2
  | 0x18 => some 3
  | 0x1C => some 4
  | _ => none

/-- LR: read at the home under a reservation (R363). -/
def rvLr (s : State) (e va n : Nat) : RvMem :=
  match rvPa s e 1 va n with
  | .error c => .trap s c
  | .ok pa =>
    let r := homeRead (dropLine s (campCache e) (lineOf pa)) pa n
    if (upto n).any (fun i => unitPois r.2 (pa + i)) then .trap r.2 5
    else .ok (modHart r.2 e (fun h => { h with resv := some pa })) (ofBytes r.1)

/-- SC: 0 when the reservation still stands and the bytes are written, else 1. -/
def rvSc (s : State) (e va n v : Nat) : RvMem :=
  match rvPa s e 2 va n with
  | .error c => .trap s c
  | .ok pa =>
    let s1 := modHart s e (fun h => { h with resv := none })
    if (hartOf s e).resv == some pa then
      let p := engineWrite (dropLine s1 (campCache e) (lineOf pa)) pa (bytesOf n v)
      .ok (rvWrote p.1 e p.2) 0
    else .ok s1 1

/-- AMO: one update at its home (R363); a window must grant the read and the write. -/
def rvAmo (s : State) (e va n code v : Nat) : RvMem :=
  match rvPa s e 2 va n with
  | .error c => .trap s c
  | .ok pa =>
    if !inWindow (epOf s e) pa n (fun w => w.w && w.rd) then .trap s 7
    else
      let r := homeUpdate (dropLine s (campCache e) (lineOf pa)) pa n code v 0
      if r.2.2.1 then .trap r.1 7 else .ok (rvWrote r.1 e r.2.2.2) r.2.1

/-! CSRs. -/

/-- sstatus as it reads: UXL is 64 bits, SD sums FS and VS up. -/
def rvSstatus (h : Hart) : Nat :=
  let st := rvCsr h 0x100
  st + 2 ^ 33 + flag (bits st 14 13 == 3 || bits st 10 9 == 3) 63

/-- A counter is open below M-mode when its bit of mcounteren is set, to U-mode when that of scounteren is set too. -/
def rvCtrOk (h : Hart) (n : Nat) : Bool :=
  h.priv == 3 || (bit (mCsr h 0x306) (n % 32) && (h.priv == 1 || bit (rvCsr h 0x106) (n % 32)))

/-- The bits of an M-mode register that a write sets. -/
def rvMMask (n : Nat) : Nat :=
  match n with
  | 0x302 => 0xB3FF
  | 0x303 => 0x222
  | 0x305 => 0xFFFFFFFFFFFFFFFD
  | 0x306 => 7
  | 0x30A => 1
  | 0x341 => 0xFFFFFFFFFFFFFFFE
  | _ => 0xFFFFFFFFFFFFFFFF

/-- An M-mode register as it reads; mhartid is the episode, and no PMP entry is implemented. (PRESUMED, log entry 20) -/
def rvMRead (s : State) (e n : Nat) : Option Nat :=
  let h := hartOf s e
  match n with
  | 0x300 => some (rvSstatus h + mCsr h n + 2 ^ 35)
  | 0x301 => some (2 ^ 63 + 0x34112D)
  | 0x304 => some (rvMie h)
  | 0x344 => some (rvMip (epOf s e))
  | 0xB00 => some h.cycle.toNat
  | 0xB02 => some h.instret.toNat
  | 0xF14 => some e
  | _ =>
    if [0x302, 0x303, 0x305, 0x306, 0x30A, 0x340, 0x341, 0x342, 0x343].contains n then some (mCsr h n)
    else if n == 0x320 || (0x323 ≤ n && n ≤ 0x33F) || (0x3A0 ≤ n && n ≤ 0x3AF && n % 2 == 0) || (0x3B0 ≤ n && n ≤ 0x3EF)
      || (0xB03 ≤ n && n ≤ 0xB1F) || (0xF11 ≤ n && n ≤ 0xF15) then some 0
    else none

/-- A write of an M-mode register; an MPP that names no level is not taken; the value written to minstret stands in place of the
increment of the instruction that writes it. (PRESUMED, log entry 20) -/
def rvMWrite (h : Hart) (n v : Nat) : Hart :=
  match n with
  | 0x300 =>
    let old := mCsr h n
    let v1 := if bits v 12 11 == 2 then setBits v 12 11 (bits old 12 11) else v
    setMCsr (setCsr h 0x100 (v &&& 0xC6722)) n (v1 &&& 0x721888)
  | 0x304 => setMCsr (setCsr h 0x104 (v &&& 0x222)) n (v &&& 0x888)
  | 0x344 => setMCsr (setCsr h 0x144 (v &&& 2)) n (v &&& 0x220)
  | 0xB00 => { h with cycle := w64 v }
  | 0xB02 => { h with instret := w64 v - 1 }
  | _ => if [0x302, 0x303, 0x305, 0x306, 0x30A, 0x340, 0x341, 0x342, 0x343].contains n then setMCsr h n (v &&& rvMMask n) else h

/-- A CSR read; none is illegal. (PRESUMED, log entry 20) -/
def rvCsrRead (s : State) (e n : Nat) : Option Nat :=
  let h := hartOf s e
  if h.priv < bits n 9 8 then none
  else match n with
    | 0x001 => if hFs h = 0 then none else some (rvCsr h 3 % 32)
    | 0x002 => if hFs h = 0 then none else some (rvCsr h 3 / 32)
    | 0x003 => if hFs h = 0 then none else some (rvCsr h 3)
    | 0x100 => some (rvSstatus h)
    | 0x104 => some (rvMie h &&& mCsr h 0x303)
    | 0x105 => some (rvCsr h n)
    | 0x106 => some (rvCsr h n)
    | 0x10A => some (rvCsr h n)
    | 0x140 => some (rvCsr h n)
    | 0x141 => some (rvCsr h n)
    | 0x142 => some (rvCsr h n)
    | 0x143 => some (rvCsr h n)
    | 0x144 => some (rvSip (epOf s e))
    | 0x180 => if h.priv == 1 && bit (mCsr h 0x300) 20 then none else some (rvCsr h n)
    | 0xC00 => if rvCtrOk h n then some h.cycle.toNat else none
    | 0xC01 => if rvCtrOk h n then some (readClock s (hartClock e) h.tmin % 2 ^ 64) else none
    | 0xC02 => if rvCtrOk h n then some h.instret.toNat else none
    | _ =>
      if 0xC03 ≤ n && n ≤ 0xC1F then (if rvCtrOk h n then some 0 else none)
      else if bits n 9 8 == 3 then rvMRead s e n else none

/-- The bits of a CSR that a write sets. -/
def rvCsrMask (n : Nat) : Nat :=
  match n with
  | 0x100 => 0xC6722
  | 0x105 => 0xFFFFFFFFFFFFFFFD
  | 0x106 => 7
  | 0x10A => 1
  | 0x141 => 0xFFFFFFFFFFFFFFFE
  | 0x144 => 2
  | _ => 0xFFFFFFFFFFFFFFFF

/-- A CSR written; a satp of a mode that the hart lacks is ignored whole. (PRESUMED, log entry 20) -/
def rvCsrWrite (s : State) (e n v : Nat) : State :=
  modHart s e (fun h =>
    let dirty := fun h => setCsr h 0x100 (setBits (rvCsr h 0x100) 14 13 3)
    match n with
    | 0x001 => dirty (setCsr h 3 (setBits (rvCsr h 3) 4 0 v))
    | 0x002 => dirty (setCsr h 3 (setBits (rvCsr h 3) 7 5 v))
    | 0x003 => dirty (setCsr h 3 (v % 256))
    | 0x104 => setCsr h n ((rvCsr h n &&& (rvCsr h n ^^^ mCsr h 0x303)) ||| (v &&& 0x222 &&& mCsr h 0x303))
    | 0x144 => if bit (mCsr h 0x303) 1 then setCsr h n (v &&& rvCsrMask n) else h
    | 0x180 => if [0, 8, 9].contains (bits v 63 60) then setCsr h n v else h
    | _ => if bits n 9 8 == 3 then rvMWrite h n v else setCsr h n (v &&& rvCsrMask n))

/-! Instructions. -/

/-- What an instruction does: a state and the next pc, an exception, a wait, a wait within it. -/
inductive RvEnd where
  | done (s : State) (pc : W64)
  | trap (s : State) (cause : Nat) (tval : W64)
  | wait
  | hold (s : State)

/-- An instruction as it runs: its expanded word, its own bits, the address after it. -/
structure RvI where
  w : Nat
  raw : Nat
  pc : W64
  npc : W64
deriving DecidableEq, Repr

def RvI.op (i : RvI) : Nat := i.w % 128
def RvI.rd (i : RvI) : Nat := bits i.w 11 7
def RvI.f3 (i : RvI) : Nat := bits i.w 14 12
def RvI.r1 (i : RvI) : Nat := bits i.w 19 15
def RvI.r2 (i : RvI) : Nat := bits i.w 24 20
def RvI.f7 (i : RvI) : Nat := bits i.w 31 25

/-- The illegal-instruction exception. -/
def rvIllegal (s : State) (i : RvI) : RvEnd := .trap s 2 (w64 i.raw)

/-- A result in an integer register; none is illegal. -/
def rvResult (s : State) (e : Nat) (i : RvI) (v : Option W64) : RvEnd :=
  match v with
  | some v => .done (rvPutX s e i.rd v) i.npc
  | none => rvIllegal s i

/-- OP-IMM: shifts take a 6-bit amount under their funct6. -/
def rvOpImm (s : State) (e : Nat) (i : RvI) : RvEnd :=
  let a := rvX (hartOf s e) i.r1
  if i.f3 = 1 || i.f3 = 5 then rvResult s e i (rvAlu i.f3 (i.f7 / 2 * 2) a (w64 (bits i.w 25 20)))
  else rvResult s e i (rvAlu i.f3 0 a (BitVec.ofInt 64 (rvImmI i.w)))

/-- OP-IMM-32. -/
def rvOpImmW (s : State) (e : Nat) (i : RvI) : RvEnd :=
  let a := w32 (rvX (hartOf s e) i.r1).toNat
  if (i.f3 = 1 && i.f7 = 0) || (i.f3 = 5 && (i.f7 = 0 || i.f7 = 32)) then rvResult s e i (rvAluW i.f3 i.f7 a (w32 i.r2))
  else if i.f3 = 0 then rvResult s e i (rvAluW 0 0 a (BitVec.ofInt 32 (rvImmI i.w)))
  else rvIllegal s i

/-- The address of a load or store. -/
def rvEa (s : State) (e : Nat) (i : RvI) (imm : Int) : W64 := rvX (hartOf s e) i.r1 + BitVec.ofInt 64 imm

/-- An access's end as the instruction's, its value written by put. -/
def rvAccess (i : RvI) (va : W64) (r : RvMem) (put : State → Nat → State) : RvEnd :=
  match r with
  | .ok s v => .done (put s v) i.npc
  | .trap s c => .trap s c va
  | .wait => .wait

/-- LOAD: funct3 gives the size and whether it zero-extends. -/
def rvLoadI (s : State) (e : Nat) (i : RvI) : RvEnd :=
  if i.f3 = 7 then rvIllegal s i
  else
    let va := rvEa s e i (rvImmI i.w)
    let n := 2 ^ (i.f3 % 4)
    rvAccess i va (rvLoad s e va.toNat n) (fun t v =>
      rvPutX t e i.rd (if i.f3 < 4 then BitVec.ofInt 64 (sextI v (8 * n)) else w64 v))

/-- STORE. -/
def rvStoreI (s : State) (e : Nat) (i : RvI) : RvEnd :=
  if 4 ≤ i.f3 then rvIllegal s i
  else
    let va := rvEa s e i (rvImmS i.w)
    let n := 2 ^ i.f3
    rvAccess i va (rvStore s e va.toNat n ((rvX (hartOf s e) i.r2).toNat % 2 ^ (8 * n))) (fun t _ => t)

end Sys2Proof.Machine
end

