-- ==== Sys2Proof/Machine/RvVec.lean ====
section
/-! DEFINITION. The vector registers of a hart, the configuration in vtype and vl, register groups, masks and the one way in
which elements are written (R363: the V extension, PRESUMED, log entry 20). -/

namespace Sys2Proof.Machine

/-- VLEN: a power of two from 128 to 65,536. -/
def rvVlen : Nat := 2 ^ (7 + Config.vlenExp % 10)

/-- The configuration of a vector instruction: SEW in bits, LMUL in eighths, the agnostic bits, vl and vstart. -/
structure RvVCfg where
  vill : Bool
  sew : Nat
  l8 : Nat
  ta : Bool
  ma : Bool
  vl : Nat
  start : Nat
deriving DecidableEq, Repr

/-- LMUL in eighths by vlmul; 0 is reserved. -/
def lmul8 (m : Nat) : Nat :=
  match m with
  | 0 => 8
  | 1 => 16
  | 2 => 32
  | 3 => 64
  | 5 => 1
  | 6 => 2
  | 7 => 4
  | _ => 0

/-- VLMAX. -/
def rvVlmaxOf (sew l8 : Nat) : Nat := rvVlen * l8 / (8 * sew)

/-- A vtype that the hart supports: SEW up to 64, and within LMUL times 64 where LMUL is a fraction. -/
def rvVtypeOk (t : Nat) : Bool := bits t 63 8 == 0 && !bit t 5 && lmul8 (bits t 2 0) != 0 && 2 ^ (3 + bits t 4 3) ≤ 8 * lmul8 (bits t 2 0)

/-- The configuration that vtype, vl and vstart hold. -/
def rvVcfg (h : Hart) : RvVCfg :=
  let t := rvCsr h 0xC21
  ⟨bit t 63, 2 ^ (3 + bits t 4 3), lmul8 (bits t 2 0), bit t 6, bit t 7, rvCsr h 0xC20, rvCsr h 0x008⟩

/-- vxrm and vxsat, which vcsr holds. -/
def hVxrm (h : Hart) : Nat := bits (rvCsr h 0x00F) 2 1

/-! Elements. -/

def rvVReg (h : Hart) (r : Nat) : Nat := tgetD h.vreg r 0
/-- Element n of the group that starts at register r, at a width. -/
def rvVGet (h : Hart) (w r n : Nat) : Nat := (rvVReg h (r + n * w / rvVlen) >>> (n * w % rvVlen)) % 2 ^ w
def rvVPut (h : Hart) (w r n v : Nat) : Hart :=
  let k := r + n * w / rvVlen
  let p := n * w % rvVlen
  { h with vreg := tset 0 h.vreg k (setBits (rvVReg h k) (p + w - 1) p v) }
/-- Bit n of a mask register. -/
def rvVMask (h : Hart) (r n : Nat) : Bool := bit (rvVReg h r) n
/-- Element n is active: in the body and not masked off by v0. -/
def rvVActive (h : Hart) (c : RvVCfg) (vm : Bool) (n : Nat) : Bool := c.start ≤ n && n < c.vl && (vm || rvVMask h 0 n)

/-- An element that keeps its value or becomes ones. -/
def rvVAgn (h : Hart) (k w r n : Nat) : Hart := if Config.agnosticOnes (k + n) then rvVPut h w r n (2 ^ w - 1) else h

/-- The elements of a destination group of width w, LMUL in eighths d8: the active ones take f, the others are undisturbed
or agnostic, those of the body below `keep` undisturbed. Every element is computed from the registers before the instruction.
(PRESUMED, log entry 20) -/
def rvVElemsFrom (s : State) (e vd w d8 : Nat) (c : RvVCfg) (vm : Bool) (keep : Nat) (f : Nat → Nat) : State :=
  if c.vl ≤ c.start then s
  else
    let n := max (rvVlmaxOf w d8) (rvVlen / w)
    let h0 := hartOf s e
    let h1 := (upto n).foldl (fun h i =>
      if i < c.start || (i < keep && i < c.vl) then h
      else if i < c.vl then (if vm || rvVMask h0 0 i then rvVPut h w vd i (f i % 2 ^ w) else if c.ma then rvVAgn h s.fresh w vd i else h)
      else if c.ta then rvVAgn h s.fresh w vd i
      else h) h0
    { modHart s e (fun _ => h1) with fresh := s.fresh + n }

/-- The elements of a destination group, none of them kept. -/
def rvVElems (s : State) (e vd w d8 : Nat) (c : RvVCfg) (vm : Bool) (f : Nat → Nat) : State := rvVElemsFrom s e vd w d8 c vm 0 f

/-- A mask destination: its tail is always agnostic. -/
def rvVBits (s : State) (e vd : Nat) (c : RvVCfg) (vm : Bool) (f : Nat → Bool) : State :=
  rvVElems s e vd 1 8 { c with ta := true } vm (fun i => (f i).toNat)

/-- Element 0 of a register; the rest is tail. -/
def rvVScalar (s : State) (e vd w : Nat) (c : RvVCfg) (v : Nat) : State :=
  rvVElems s e vd w 8 { c with vl := 1, start := if c.start < c.vl then 0 else 1 } true (fun _ => v)

/-! Register groups. -/

/-- Registers of a group. -/
def rvVSpan (l8 : Nat) : Nat := max 1 (l8 / 8)
/-- A group is legal: LMUL from 1/8 to 8, its register aligned. -/
def rvVGrp (r l8 : Nat) : Bool := 1 ≤ l8 && l8 ≤ 64 && r % rvVSpan l8 == 0
def rvVMeets (a an b bn : Nat) : Bool := decide (a < b + bn && b < a + an)
/-- A destination group may meet a source group: equal widths, or the lowest part of a wider source, or the highest part of
a wider destination. -/
def rvVFits (vd dw d8 vs sw s8 : Nat) : Bool :=
  !rvVMeets vd (rvVSpan d8) vs (rvVSpan s8) || dw == sw || (dw < sw && vd == vs)
    || (sw < dw && 8 ≤ s8 && vs + rvVSpan s8 == vd + rvVSpan d8)

/-- A masked destination of elements may not hold v0. -/
def rvVDst (vd d8 : Nat) (vm : Bool) : Bool := rvVGrp vd d8 && (vm || vd != 0)

/-! What every vector instruction does besides. -/

/-- VS becomes dirty; vstart returns to 0. -/
def rvVEnd (s : State) (e : Nat) : State :=
  modHart s e (fun h => setCsr (setCsr h 0x008 0) 0x100 (setBits (rvCsr h 0x100) 10 9 3))

/-- vxsat set. -/
def rvVSat (s : State) (e : Nat) (b : Bool) : State :=
  if b then modHart s e (fun h => setCsr h 0x00F (rvCsr h 0x00F ||| 1)) else s

/-- The fields of a vector instruction. -/
def RvI.f6 (i : RvI) : Nat := bits i.w 31 26
def RvI.vm (i : RvI) : Bool := bit i.w 25

/-! vset (funct3 7). -/

/-- vsetvli, vsetivli, vsetvl: the new vtype and the application's vl, none where it keeps vl. -/
def rvVSetArgs (h : Hart) (i : RvI) : Option (Nat × Option Nat) :=
  let avl := if i.r1 != 0 then some (rvX h i.r1).toNat else if i.rd != 0 then some (2 ^ 64 - 1) else none
  if !bit i.w 31 then some (bits i.w 30 20, avl)
  else if bit i.w 30 then some (bits i.w 29 20, some i.r1)
  else if bits i.w 29 25 = 0 then some ((rvX h i.r2).toNat, avl)
  else none

def rvVSet (s : State) (e : Nat) (i : RvI) : RvEnd :=
  match rvVSetArgs (hartOf s e) i with
  | none => rvIllegal s i
  | some (t, avl) =>
    let old := rvVcfg (hartOf s e)
    let l8 := lmul8 (bits t 2 0)
    let vmax := rvVlmaxOf (2 ^ (3 + bits t 4 3)) l8
    let ok := rvVtypeOk t && (avl.isSome || (!old.vill && vmax == rvVlmaxOf old.sew old.l8))
    let vl := if ok then min (avl.getD old.vl) vmax else 0
    let s1 := modHart s e (fun h => setCsr (setCsr h 0xC20 vl) 0xC21 (if ok then t else 2 ^ 63))
    .done (rvPutX (rvVEnd s1 e) e i.rd (w64 vl)) i.npc

/-! Vector CSRs. -/

def rvVCsrRead (h : Hart) (n : Nat) : Option Nat :=
  match n with
  | 0x008 => some (rvCsr h 0x008)
  | 0x009 => some (rvCsr h 0x00F % 2)
  | 0x00A => some (hVxrm h)
  | 0x00F => some (rvCsr h 0x00F)
  | 0xC20 => some (rvCsr h 0xC20)
  | 0xC21 => some (rvCsr h 0xC21)
  | 0xC22 => some (rvVlen / 8)
  | _ => none

def rvVCsrWrite (s : State) (e n v : Nat) : State :=
  modHart s e (fun h0 =>
    let h := setCsr h0 0x100 (setBits (rvCsr h0 0x100) 10 9 3)
    match n with
    | 0x008 => setCsr h 0x008 (v % rvVlen)
    | 0x009 => setCsr h 0x00F (setBits (rvCsr h 0x00F) 0 0 v)
    | 0x00A => setCsr h 0x00F (setBits (rvCsr h 0x00F) 2 1 v)
    | _ => setCsr h 0x00F (v % 8))

end Sys2Proof.Machine
end

