-- ==== Sys2Proof/Machine/RvVecMem.lean ====
section
/-! DEFINITION. The vector loads and stores of a hart: unit-stride, strided, indexed, segments, whole registers, masks and
fault-only-first (R363: the V extension, PRESUMED, log entry 20). Every element is an access of its own. -/

namespace Sys2Proof.Machine

/-- How far a vector access has come: all elements, an exception at an element, a wait at one. -/
inductive RvVAcc where
  | all (s : State)
  | trap (s : State) (cause : Nat) (va : W64) (n : Nat)
  | wait (s : State) (n : Nat)

/-- The fields of one element, in order; f gives one field's access and put its value's place. -/
def rvVFields (n : Nat) (va : Nat → W64) (acc : State → Nat → RvMem) (put : State → Nat → Nat → State) : List Nat → State → RvVAcc
  | [], s => .all s
  | k :: r, s =>
    match acc s k with
    | .ok t v => rvVFields n va acc put r (put t k v)
    | .trap t c => .trap t c (va k) n
    | .wait => .wait s n

/-- The elements in order; one that is not active is passed over. -/
def rvVWalk (active : Nat → Bool) (one : Nat → State → RvVAcc) : List Nat → State → RvVAcc
  | [], s => .all s
  | n :: r, s =>
    if active n then
      match one n s with
      | .all t => rvVWalk active one r t
      | x => x
    else rvVWalk active one r s

/-- A vector access: element width, fields, LMUL of a field in eighths, elements, and the address of element n. -/
structure RvVMem where
  w : Nat
  nf : Nat
  l8 : Nat
  ff : Bool := false
  addr : Nat → Nat

/-- The address of field k of element n. -/
def RvVMem.at (m : RvVMem) (n k : Nat) : W64 := w64 (m.addr n + k * (m.w / 8))
/-- The first register of field k. -/
def RvVMem.reg (m : RvVMem) (i : RvI) (k : Nat) : Nat := i.rd + k * rvVSpan m.l8

/-- The end of an access: vstart names the element that took an exception or waits. -/
def rvVAccEnd (e : Nat) (i : RvI) (r : RvVAcc) (fin : State → State) : RvEnd :=
  let mark := fun s n => modHart (rvVEnd s e) e (fun h => setCsr h 0x008 n)
  match r with
  | .all s => .done (rvVEnd (fin s) e) i.npc
  | .trap s c va n => .trap (mark s n) c va
  | .wait s n => .hold (mark s n)

/-- A load: fault-only-first shortens vl instead of an exception beyond element 0. -/
def rvVLoadRun (s : State) (e : Nat) (i : RvI) (c : RvVCfg) (m : RvVMem) : RvEnd :=
  let h := hartOf s e
  let put := fun n t k v => modHart t e (fun h => rvVPut h m.w (m.reg i k) n v)
  let one := fun n => rvVFields n (m.at n) (fun t k => rvLoad t e (m.at n k).toNat (m.w / 8)) (put n) (upto m.nf)
  let settle := fun (c : RvVCfg) (t : State) => (upto m.nf).foldl (fun t k =>
    let g := hartOf t e
    rvVElems t e (m.reg i k) m.w m.l8 c true (fun n => if rvVActive h c i.vm n then rvVGet g m.w (m.reg i k) n
      else if c.ma && Config.agnosticOnes (t.fresh + n) then 2 ^ m.w - 1 else rvVGet g m.w (m.reg i k) n)) t
  match rvVWalk (rvVActive h c i.vm) one (upto c.vl) s with
  | .trap t cs va n =>
    if m.ff && n != 0 then
      let t1 := modHart t e (fun h => setCsr h 0xC20 n)
      .done (rvVEnd (settle { c with vl := n } t1) e) i.npc
    else rvVAccEnd e i (.trap t cs va n) id
  | r => rvVAccEnd e i r (settle c)

/-- A store. -/
def rvVStoreRun (s : State) (e : Nat) (i : RvI) (c : RvVCfg) (m : RvVMem) : RvEnd :=
  let h := hartOf s e
  let one := fun n => rvVFields n (m.at n)
    (fun t k => rvStore t e (m.at n k).toNat (m.w / 8) (rvVGet h m.w (m.reg i k) n)) (fun t _ _ => t) (upto m.nf)
  rvVAccEnd e i (rvVWalk (rvVActive h c i.vm) one (upto c.vl) s) id

/-- The width of an element or an index by funct3. -/
def rvVWidth (f3 : Nat) : Nat := match f3 with | 0 => 8 | 5 => 16 | 6 => 32 | _ => 64

/-- What an encoding asks for: its access and the configuration that governs it; none is reserved. -/
def rvVMemOf (h : Hart) (c : RvVCfg) (i : RvI) (store : Bool) : Option (RvVCfg × RvVMem) :=
  let ew := rvVWidth i.f3
  let nf := bits i.w 31 29 + 1
  let base := (rvX h i.r1).toNat
  let plain := fun (ff : Bool) (addr : Nat → Nat) =>
    let l8 := ew * c.l8 / c.sew
    if c.vill || ew * c.l8 % c.sew != 0 || !rvVGrp i.rd l8 || 64 < nf * l8 || 32 < i.rd + nf * rvVSpan l8
      || (!store && !i.vm && i.rd == 0) then none
    else some (c, (⟨ew, nf, l8, ff, addr⟩ : RvVMem))
  if bit i.w 28 then none
  else match bits i.w 27 26 with
    | 0 => match i.r2 with
      | 0 => plain false (fun n => base + n * nf * (ew / 8))
      | 8 =>
        if !i.vm || !([1, 2, 4, 8].contains nf) || i.rd % nf != 0 || (store && ew != 8) then none
        else some ({ c with vl := nf * rvVlen / ew }, ⟨ew, 1, 8 * nf, false, fun n => base + n * (ew / 8)⟩)
      | 11 =>
        if c.vill || !i.vm || nf != 1 || ew != 8 then none
        else some ({ c with vl := (c.vl + 7) / 8, ta := true }, ⟨8, 1, 8, false, fun n => base + n⟩)
      | 16 => if store then none else plain true (fun n => base + n * nf * (ew / 8))
      | _ => none
    | 2 => plain false (fun n => base + n * (rvX h i.r2).toNat)
    | _ =>
      let x8 := ew * c.l8 / c.sew
      let meets := if nf = 1 then !rvVFits i.rd c.sew c.l8 i.r2 ew x8 else rvVMeets i.rd (nf * rvVSpan c.l8) i.r2 (rvVSpan x8)
      if c.vill || ew * c.l8 % c.sew != 0 || !rvVGrp i.r2 x8 || !rvVGrp i.rd c.l8 || 64 < nf * c.l8 || 32 < i.rd + nf * rvVSpan c.l8
        || (!store && ((!i.vm && i.rd == 0) || meets)) then none
      else some (c, ⟨c.sew, nf, c.l8, false, fun n => base + rvVGet h ew i.r2 n⟩)

/-- A vector load or store; VS must not be off. (PRESUMED, log entry 20) -/
def rvVMemI (s : State) (e : Nat) (i : RvI) (store : Bool) : RvEnd :=
  let h := hartOf s e
  if hVs h = 0 then rvIllegal s i
  else match rvVMemOf h (rvVcfg h) i store with
    | none => rvIllegal s i
    | some (c, m) => if store then rvVStoreRun s e i c m else rvVLoadRun s e i c m

end Sys2Proof.Machine
end

