-- ==== Sys2Proof/Machine/RvVecInt.lean ====
section
/-! DEFINITION. The integer, fixed-point, mask and permutation instructions of the V extension (R363, PRESUMED, log entry 20). Each
answers none where the encoding is reserved. -/

namespace Sys2Proof.Machine

/-! Elements. w is the width; a comes from vs2, b from vs1, a register or the immediate. -/

/-- The operand of funct3 0 and 2 (vector), 3 (immediate), 4 and 6 (register) for element n; u takes the immediate
unsigned. -/
def rvVB (h : Hart) (i : RvI) (u : Bool) (w n : Nat) : Nat :=
  if i.f3 = 3 then (if u then i.r1 else wrapI w (sextI i.r1 5))
  else if 4 ≤ i.f3 then (rvX h i.r1).toNat % 2 ^ w
  else rvVGet h w i.r1 n

/-- The vector operand's group is legal and may be met by the destination. -/
def rvVBOk (i : RvI) (dw d8 w l8 : Nat) : Bool := 3 ≤ i.f3 || (rvVGrp i.r1 l8 && rvVFits i.rd dw d8 i.r1 w l8)

/-- v shifted right by d and rounded by vxrm: to nearest up, to nearest even, down, to odd. -/
def rvVRnd (xrm : Nat) (v : Int) (d : Nat) : Int :=
  let p : Int := (2 ^ d : Nat)
  let q := v / p
  let lo := v % p
  match xrm with
  | 0 => if 2 * lo ≥ p && d != 0 then q + 1 else q
  | 1 => if 2 * lo > p || (2 * lo = p && q % 2 = 1) then q + 1 else q
  | 2 => q
  | _ => if lo != 0 && q % 2 = 0 then q + 1 else q

/-- v as w bits, and whether it saturated: signed, unsigned. -/
def rvVSatS (w : Nat) (v : Int) : Nat × Bool :=
  let hi : Int := (2 ^ (w - 1) : Nat) - 1
  let lo : Int := -((2 ^ (w - 1) : Nat) : Int)
  (wrapI w (max lo (min hi v)), decide (v < lo ∨ hi < v))
def rvVSatU (w : Nat) (v : Int) : Nat × Bool :=
  let hi : Int := (2 ^ w : Nat) - 1
  (wrapI w (max 0 (min hi v)), decide (v < 0 ∨ hi < v))

/-- Which of VV 0, VI 3 and VX 4 an OPI funct6 of one width has. -/
def rvVOpiForms (f6 : Nat) : List Nat :=
  if [0x00, 0x09, 0x0A, 0x0B, 0x20, 0x21, 0x25, 0x28, 0x29, 0x2A, 0x2B].contains f6 then [0, 3, 4]
  else if [0x02, 0x04, 0x05, 0x06, 0x07, 0x22, 0x23].contains f6 then [0, 4]
  else if f6 = 0x03 then [3, 4]
  else if f6 = 0x27 then [0, 4]
  else []

/-- OPI of one width: the element and whether it saturated. -/
def rvVOpi (f6 w xrm a b : Nat) : Nat × Bool :=
  let sa := sextI a w
  let sb := sextI b w
  let m : Int → Nat × Bool := fun v => (wrapI w v, false)
  match f6 with
  | 0x00 => m (sa + sb)
  | 0x02 => m (sa - sb)
  | 0x03 => m (sb - sa)
  | 0x04 => (min a b, false)
  | 0x05 => m (min sa sb)
  | 0x06 => (max a b, false)
  | 0x07 => m (max sa sb)
  | 0x09 => (a &&& b, false)
  | 0x0A => (a ||| b, false)
  | 0x0B => (a ^^^ b, false)
  | 0x20 => rvVSatU w ((a : Int) + b)
  | 0x21 => rvVSatS w (sa + sb)
  | 0x22 => rvVSatU w ((a : Int) - b)
  | 0x23 => rvVSatS w (sa - sb)
  | 0x25 => (a <<< (b % w) % 2 ^ w, false)
  | 0x27 => rvVSatS w (rvVRnd xrm (sa * sb) (w - 1))
  | 0x28 => (a >>> (b % w), false)
  | 0x29 => m (sa / (2 ^ (b % w) : Nat))
  | 0x2A => m (rvVRnd xrm a (b % w))
  | _ => m (rvVRnd xrm sa (b % w))

/-- OPM of one width without an addend: averages, quotients, remainders, products. -/
def rvVOpm (f6 w xrm a b : Nat) : Option Nat :=
  let sa := sextI a w
  let sb := sextI b w
  let m : Int → Option Nat := fun v => some (wrapI w v)
  match f6 with
  | 0x08 => m (rvVRnd xrm ((a : Int) + b) 1)
  | 0x09 => m (rvVRnd xrm (sa + sb) 1)
  | 0x0A => m (rvVRnd xrm ((a : Int) - b) 1)
  | 0x0B => m (rvVRnd xrm (sa - sb) 1)
  | 0x20 => m (rvMul 5 w sa sb a b)
  | 0x21 => m (rvMul 4 w sa sb a b)
  | 0x22 => m (rvMul 7 w sa sb a b)
  | 0x23 => m (rvMul 6 w sa sb a b)
  | 0x24 => m (rvMul 3 w sa sb a b)
  | 0x25 => m (rvMul 0 w sa sb a b)
  | 0x26 => m (rvMul 2 w sa sb a b)
  | 0x27 => m (rvMul 1 w sa sb a b)
  | _ => none

/-- Multiply-add of one width; d is the destination's element. -/
def rvVOpmAdd (f6 w a b d : Nat) : Option Nat :=
  let m : Int → Option Nat := fun v => some (wrapI w v)
  match f6 with
  | 0x29 => m ((b : Int) * d + a)
  | 0x2B => m ((a : Int) - (b : Int) * d)
  | 0x2D => m ((b : Int) * a + d)
  | 0x2F => m ((d : Int) - (b : Int) * a)
  | _ => none

/-- Widening OPM at a source width w: a has w bits, or 2w under .w; d has 2w. -/
def rvVOpmWide (f6 f3 w a b d : Nat) : Option Nat :=
  let sa := sextI a w
  let sb := sextI b w
  let sA := sextI a (2 * w)
  let m : Int → Option Nat := fun v => some (wrapI (2 * w) v)
  match f6 with
  | 0x30 => m ((a : Int) + b)
  | 0x31 => m (sa + sb)
  | 0x32 => m ((a : Int) - b)
  | 0x33 => m (sa - sb)
  | 0x34 => m ((a : Int) + b)
  | 0x35 => m (sA + sb)
  | 0x36 => m ((a : Int) - b)
  | 0x37 => m (sA - sb)
  | 0x38 => m ((a : Int) * b)
  | 0x3A => m (sa * b)
  | 0x3B => m (sa * sb)
  | 0x3C => m ((a : Int) * b + d)
  | 0x3D => m (sa * sb + d)
  | 0x3E => if f3 = 6 then m (sa * b + d) else none
  | 0x3F => m ((a : Int) * sb + d)
  | _ => none

/-- Integer comparisons. -/
def rvVCmp (f6 f3 w a b : Nat) : Option Bool :=
  let sa := sextI a w
  let sb := sextI b w
  match f6 with
  | 0x18 => some (a == b)
  | 0x19 => some (a != b)
  | 0x1A => if f3 = 3 then none else some (decide (a < b))
  | 0x1B => if f3 = 3 then none else some (decide (sa < sb))
  | 0x1C => some (decide (a ≤ b))
  | 0x1D => some (decide (sa ≤ sb))
  | 0x1E => if f3 = 0 then none else some (decide (b < a))
  | 0x1F => if f3 = 0 then none else some (decide (sb < sa))
  | _ => none

/-! Instructions. -/

/-- A destination and sources of one width. -/
def rvVSame (c : RvVCfg) (i : RvI) : Bool :=
  rvVDst i.rd c.l8 i.vm && rvVGrp i.r2 c.l8 && rvVBOk i c.sew c.l8 c.sew c.l8

/-- Some active element satisfies p. -/
def rvVAny (h : Hart) (c : RvVCfg) (vm : Bool) (p : Nat → Bool) : Bool := (upto c.vl).any (fun n => rvVActive h c vm n && p n)

/-- OPI of one width, and the shifts and saturating forms of fixed point. -/
def rvVOpiI (s : State) (e : Nat) (c : RvVCfg) (i : RvI) : Option State :=
  let h := hartOf s e
  let u := [0x25, 0x28, 0x29, 0x2A, 0x2B].contains i.f6
  let r := fun n => rvVOpi i.f6 c.sew (hVxrm h) (rvVGet h c.sew i.r2 n) (rvVB h i u c.sew n)
  if !(rvVOpiForms i.f6).contains i.f3 || !rvVSame c i then none
  else some (rvVSat (rvVElems s e i.rd c.sew c.l8 c i.vm (fun n => (r n).1)) e (rvVAny h c i.vm (fun n => (r n).2)))

/-- vadc, vsbc: a carry or borrow from v0. -/
def rvVCarryI (s : State) (e : Nat) (c : RvVCfg) (i : RvI) : Option State :=
  let h := hartOf s e
  let r := fun n =>
    let a : Int := rvVGet h c.sew i.r2 n
    let b : Int := rvVB h i false c.sew n
    let k : Int := (rvVMask h 0 n).toNat
    wrapI c.sew (if i.f6 = 0x10 then a + b + k else a - b - k)
  if i.vm || (i.f6 = 0x12 && i.f3 = 3) || !rvVSame c i then none
  else some (rvVElems s e i.rd c.sew c.l8 c true r)

/-- A mask destination from sources of one width. -/
def rvVToMask (c : RvVCfg) (i : RvI) : Bool := rvVGrp i.r2 c.l8 && rvVFits i.rd 1 8 i.r2 c.sew c.l8 && rvVBOk i 1 8 c.sew c.l8

/-- vmadc, vmsbc: the carry or borrow out. -/
def rvVCarryOutI (s : State) (e : Nat) (c : RvVCfg) (i : RvI) : Option State :=
  let h := hartOf s e
  let r := fun n =>
    let a := rvVGet h c.sew i.r2 n
    let b := rvVB h i false c.sew n
    let k := if i.vm then 0 else (rvVMask h 0 n).toNat
    if i.f6 = 0x11 then decide (2 ^ c.sew ≤ a + b + k) else decide (a < b + k)
  if (i.f6 = 0x13 && i.f3 = 3) || !rvVToMask c i then none
  else some (rvVBits s e i.rd c true r)

/-- The integer comparisons. -/
def rvVCmpI (s : State) (e : Nat) (c : RvVCfg) (i : RvI) : Option State :=
  let h := hartOf s e
  let r := fun n => rvVCmp i.f6 i.f3 c.sew (rvVGet h c.sew i.r2 n) (rvVB h i false c.sew n)
  if (rvVCmp i.f6 i.f3 c.sew 0 0).isNone || !rvVToMask c i then none
  else some (rvVBits s e i.rd c i.vm (fun n => (r n).getD false))

/-- vmerge and vmv.v. -/
def rvVMergeI (s : State) (e : Nat) (c : RvVCfg) (i : RvI) : Option State :=
  let h := hartOf s e
  let r := fun n => if i.vm || rvVMask h 0 n then rvVB h i false c.sew n else rvVGet h c.sew i.r2 n
  if (i.vm && i.r2 != 0) || !rvVDst i.rd c.l8 i.vm || !(i.vm || rvVGrp i.r2 c.l8) || !rvVBOk i c.sew c.l8 c.sew c.l8 then none
  else some (rvVElems s e i.rd c.sew c.l8 c true r)

/-- Narrowing shifts and clips: vs2 is twice as wide. -/
def rvVNarrowI (s : State) (e : Nat) (c : RvVCfg) (i : RvI) : Option State :=
  let h := hartOf s e
  let w := c.sew
  let r := fun n =>
    let a := rvVGet h (2 * w) i.r2 n
    let sa := sextI a (2 * w)
    let d := rvVB h i true w n % (2 * w)
    match i.f6 with
    | 0x2C => ((a >>> d) % 2 ^ w, false)
    | 0x2D => (wrapI w (sa / (2 ^ d : Nat)), false)
    | 0x2E => rvVSatU w (rvVRnd (hVxrm h) a d)
    | _ => rvVSatS w (rvVRnd (hVxrm h) sa d)
  if 32 < w || !rvVDst i.rd c.l8 i.vm || !rvVGrp i.r2 (2 * c.l8) || !rvVFits i.rd w c.l8 i.r2 (2 * w) (2 * c.l8)
    || !rvVBOk i w c.l8 w c.l8 then none
  else some (rvVSat (rvVElems s e i.rd w c.l8 c i.vm (fun n => (r n).1)) e (rvVAny h c i.vm (fun n => (r n).2)))

/-- OPM of one width. -/
def rvVOpmI (s : State) (e : Nat) (c : RvVCfg) (i : RvI) : Option State :=
  let h := hartOf s e
  let op := fun a b d => (rvVOpm i.f6 c.sew (hVxrm h) a b).orElse (fun _ => rvVOpmAdd i.f6 c.sew a b d)
  if (op 0 0 0).isNone || !rvVSame c i then none
  else some (rvVElems s e i.rd c.sew c.l8 c i.vm (fun n =>
    (op (rvVGet h c.sew i.r2 n) (rvVB h i false c.sew n) (rvVGet h c.sew i.rd n)).getD 0))

/-- Widening OPM; .w takes vs2 at twice the width. -/
def rvVWideI (s : State) (e : Nat) (c : RvVCfg) (i : RvI) : Option State :=
  let h := hartOf s e
  let w := c.sew
  let isW := 0x34 ≤ i.f6 && i.f6 ≤ 0x37
  let aw := if isW then 2 * w else w
  let a8 := if isW then 2 * c.l8 else c.l8
  let op := rvVOpmWide i.f6 i.f3 w
  if 32 < w || (op 0 0 0).isNone || !rvVDst i.rd (2 * c.l8) i.vm || !rvVGrp i.r2 a8
    || !rvVFits i.rd (2 * w) (2 * c.l8) i.r2 aw a8 || !rvVBOk i (2 * w) (2 * c.l8) w c.l8 then none
  else some (rvVElems s e i.rd (2 * w) (2 * c.l8) c i.vm (fun n =>
    (op (rvVGet h aw i.r2 n) (rvVB h i false w n) (rvVGet h (2 * w) i.rd n)).getD 0))

/-- One step of an integer reduction at a width. -/
def rvVRed (f6 w acc a : Nat) : Nat :=
  match f6 with
  | 0x00 => (acc + a) % 2 ^ w
  | 0x01 => acc &&& a
  | 0x02 => acc ||| a
  | 0x03 => acc ^^^ a
  | 0x04 => min acc a
  | 0x05 => wrapI w (min (sextI acc w) (sextI a w))
  | 0x06 => max acc a
  | _ => wrapI w (max (sextI acc w) (sextI a w))

/-- The reductions; the widening sums extend each element. -/
def rvVRedI (s : State) (e : Nat) (c : RvVCfg) (i : RvI) (wide : Bool) : Option State :=
  let h := hartOf s e
  let w := c.sew
  let dw := if wide then 2 * w else w
  let el := fun n => if wide && i.f6 = 0x31 then wrapI dw (sextI (rvVGet h w i.r2 n) w) else rvVGet h w i.r2 n
  if 64 < dw || c.start != 0 || !rvVGrp i.r2 c.l8 then none
  else some (rvVScalar s e i.rd dw c (((upto c.vl).filter (rvVActive h c i.vm)).foldl
    (fun acc n => rvVRed (if wide then 0 else i.f6) dw acc (el n)) (rvVGet h dw i.r1 0)))

/-- The extensions by 8, 4, 2. -/
def rvVExtI (s : State) (e : Nat) (c : RvVCfg) (i : RvI) : Option State :=
  let h := hartOf s e
  let k := match i.r1 / 2 with | 1 => 8 | 2 => 4 | 3 => 2 | _ => 0
  let w := c.sew / k
  let v := fun n => rvVGet h w i.r2 n
  if k = 0 || w < 8 || !rvVDst i.rd c.l8 i.vm || c.l8 % k != 0 || !rvVGrp i.r2 (c.l8 / k)
    || !rvVFits i.rd c.sew c.l8 i.r2 w (c.l8 / k) then none
  else some (rvVElems s e i.rd c.sew c.l8 c i.vm (fun n => if i.r1 % 2 = 1 then wrapI c.sew (sextI (v n) w) else v n))

/-- The mask-register logic. -/
def rvVLogicI (s : State) (e : Nat) (c : RvVCfg) (i : RvI) : Option State :=
  let h := hartOf s e
  let r := fun n =>
    let a := rvVMask h i.r2 n
    let b := rvVMask h i.r1 n
    match i.f6 with
    | 0x18 => a && !b
    | 0x19 => a && b
    | 0x1A => a || b
    | 0x1B => a != b
    | 0x1C => a || !b
    | 0x1D => !(a && b)
    | 0x1E => !(a || b)
    | _ => a == b
  if !i.vm then none else some (rvVBits s e i.rd c true r)

/-- vmsbf, vmsof, vmsif, viota, vid. -/
def rvVMaskUnI (s : State) (e : Nat) (c : RvVCfg) (i : RvI) : Option State :=
  let h := hartOf s e
  let on := fun n => rvVActive h c i.vm n && rvVMask h i.r2 n
  let before := fun n => ((upto n).filter on).length
  let apart := !rvVMeets i.rd 1 i.r2 1 && (i.vm || i.rd != 0)
  match i.r1 with
  | 1 => if c.start != 0 || !apart then none else some (rvVBits s e i.rd c i.vm (fun n => before n = 0 && !on n))
  | 2 => if c.start != 0 || !apart then none else some (rvVBits s e i.rd c i.vm (fun n => before n = 0 && on n))
  | 3 => if c.start != 0 || !apart then none else some (rvVBits s e i.rd c i.vm (fun n => before n = 0))
  | 16 =>
    if c.start != 0 || !rvVDst i.rd c.l8 i.vm || rvVMeets i.rd (rvVSpan c.l8) i.r2 1 then none
    else some (rvVElems s e i.rd c.sew c.l8 c i.vm before)
  | 17 => if i.r2 != 0 || !rvVDst i.rd c.l8 i.vm then none else some (rvVElems s e i.rd c.sew c.l8 c i.vm (fun n => n))
  | _ => none

/-- vmv.x.s, vcpop, vfirst: a result in an integer register. -/
def rvVToX (s : State) (e : Nat) (c : RvVCfg) (i : RvI) : Option State :=
  let h := hartOf s e
  let on := (upto c.vl).filter (fun n => rvVActive h c i.vm n && rvVMask h i.r2 n)
  match i.r1 with
  | 0 => if i.vm then some (rvPutX s e i.rd (BitVec.ofInt 64 (sextI (rvVGet h c.sew i.r2 0) c.sew))) else none
  | 16 => if c.start != 0 then none else some (rvPutX s e i.rd (w64 on.length))
  | 17 => if c.start != 0 then none else some (rvPutX s e i.rd (match on with | [] => BitVec.ofInt 64 (-1) | n :: _ => w64 n))
  | _ => none

/-- vmv.s.x. -/
def rvVFromX (s : State) (e : Nat) (c : RvVCfg) (i : RvI) : Option State :=
  if i.vm && i.r2 = 0 then some (rvVScalar s e i.rd c.sew c (rvVB (hartOf s e) i false c.sew 0)) else none

/-- An element of vs2 or 0 beyond VLMAX. -/
def rvVPick (h : Hart) (c : RvVCfg) (vs n : Nat) : Nat := if n < rvVlmaxOf c.sew c.l8 then rvVGet h c.sew vs n else 0
/-- Source and destination of a permutation may not meet. -/
def rvVApart (c : RvVCfg) (i : RvI) : Bool :=
  rvVDst i.rd c.l8 i.vm && rvVGrp i.r2 c.l8 && !rvVMeets i.rd (rvVSpan c.l8) i.r2 (rvVSpan c.l8)

/-- vrgather, vrgatherei16. -/
def rvVGatherI (s : State) (e : Nat) (c : RvVCfg) (i : RvI) : Option State :=
  let h := hartOf s e
  let ei := i.f6 = 0x0E
  let iw := if ei then 16 else c.sew
  let i8 := if ei then 16 * c.l8 / c.sew else c.l8
  let ix := fun n => if i.f3 = 0 then rvVGet h iw i.r1 n else if i.f3 = 3 then i.r1 else (rvX h i.r1).toNat
  if !rvVApart c i || (i.f3 = 0 && ((ei && 16 * c.l8 % c.sew != 0) || !rvVGrp i.r1 i8 || rvVMeets i.rd (rvVSpan c.l8) i.r1 (rvVSpan i8))) then none
  else some (rvVElems s e i.rd c.sew c.l8 c i.vm (fun n => rvVPick h c i.r2 (ix n)))

/-- vslideup, vslidedown: by a register or the immediate; vslideup leaves the elements below the offset. -/
def rvVSlideI (s : State) (e : Nat) (c : RvVCfg) (i : RvI) : Option State :=
  let h := hartOf s e
  let off := if i.f3 = 3 then i.r1 else (rvX h i.r1).toNat
  if i.f6 = 0x0E then
    if !rvVApart c i then none
    else some (rvVElemsFrom s e i.rd c.sew c.l8 c i.vm off (fun n => rvVGet h c.sew i.r2 (n - off)))
  else if !rvVDst i.rd c.l8 i.vm || !rvVGrp i.r2 c.l8 then none
  else some (rvVElems s e i.rd c.sew c.l8 c i.vm (fun n => rvVPick h c i.r2 (n + off)))

/-- vslide1up, vslide1down, of a value from a register. -/
def rvVSlide1 (s : State) (e : Nat) (c : RvVCfg) (i : RvI) (v : Nat) : Option State :=
  let h := hartOf s e
  if i.f6 = 0x0E then
    if !rvVApart c i then none
    else some (rvVElems s e i.rd c.sew c.l8 c i.vm (fun n => if n = 0 then v else rvVGet h c.sew i.r2 (n - 1)))
  else if !rvVDst i.rd c.l8 i.vm || !rvVGrp i.r2 c.l8 then none
  else some (rvVElems s e i.rd c.sew c.l8 c i.vm (fun n => if n + 1 = c.vl then v else rvVPick h c i.r2 (n + 1)))

/-- vcompress: the elements that the mask vs1 names, in order. -/
def rvVCompressI (s : State) (e : Nat) (c : RvVCfg) (i : RvI) : Option State :=
  let h := hartOf s e
  let src := (upto c.vl).filter (rvVMask h i.r1)
  if !i.vm || c.start != 0 || !rvVApart c i || rvVMeets i.rd (rvVSpan c.l8) i.r1 1 then none
  else
    let c1 := { c with vl := src.length }
    some (rvVElems s e i.rd c.sew c.l8 c1 true (fun n => rvVGet h c.sew i.r2 (src.getD n 0)))

/-- vmv1r to vmv8r: whole registers, from vstart on, whatever vtype gives for VLMAX. -/
def rvVMoveWhole (s : State) (e : Nat) (c : RvVCfg) (i : RvI) : Option State :=
  let h := hartOf s e
  let k := i.r1 + 1
  if !i.vm || !([1, 2, 4, 8].contains k) || i.rd % k != 0 || i.r2 % k != 0 then none
  else some (rvVElems s e i.rd c.sew (8 * k) { c with vl := k * rvVlen / c.sew } true (fun n => rvVGet h c.sew i.r2 n))

/-- OPIVV, OPIVX, OPIVI by funct6. -/
def rvVOpiRun (s : State) (e : Nat) (c : RvVCfg) (i : RvI) : Option State :=
  match i.f6 with
  | 0x0C => rvVGatherI s e c i
  | 0x0E => if i.f3 = 0 then rvVGatherI s e c i else rvVSlideI s e c i
  | 0x0F => if i.f3 = 0 then none else rvVSlideI s e c i
  | 0x10 => rvVCarryI s e c i
  | 0x11 => rvVCarryOutI s e c i
  | 0x12 => rvVCarryI s e c i
  | 0x13 => rvVCarryOutI s e c i
  | 0x17 => rvVMergeI s e c i
  | 0x27 => if i.f3 = 3 then rvVMoveWhole s e c i else rvVOpiI s e c i
  | 0x30 => if i.f3 = 0 then rvVRedI s e c i true else none
  | 0x31 => if i.f3 = 0 then rvVRedI s e c i true else none
  | _ =>
    if 0x18 ≤ i.f6 && i.f6 ≤ 0x1F then rvVCmpI s e c i
    else if 0x2C ≤ i.f6 && i.f6 ≤ 0x2F then rvVNarrowI s e c i
    else rvVOpiI s e c i

/-- OPMVV, OPMVX by funct6. -/
def rvVOpmRun (s : State) (e : Nat) (c : RvVCfg) (i : RvI) : Option State :=
  let vv := i.f3 = 2
  match i.f6 with
  | 0x0E => if vv then none else rvVSlide1 s e c i (rvVB (hartOf s e) i false c.sew 0)
  | 0x0F => if vv then none else rvVSlide1 s e c i (rvVB (hartOf s e) i false c.sew 0)
  | 0x10 => if vv then rvVToX s e c i else rvVFromX s e c i
  | 0x12 => if vv then rvVExtI s e c i else none
  | 0x14 => if vv then rvVMaskUnI s e c i else none
  | 0x17 => if vv then rvVCompressI s e c i else none
  | _ =>
    if i.f6 < 0x08 then (if vv then rvVRedI s e c i false else none)
    else if 0x18 ≤ i.f6 && i.f6 ≤ 0x1F then (if vv then rvVLogicI s e c i else none)
    else if 0x30 ≤ i.f6 then rvVWideI s e c i
    else rvVOpmI s e c i

end Sys2Proof.Machine
end

