-- ==== Sys2Proof/Machine/RvVecFp.lean ====
section
/-! DEFINITION. The floating-point instructions of the V extension, of FP32 and FP64 elements (R363, PRESUMED, log entry 20). Each
answers none where the encoding is reserved or the element width has no format. -/

namespace Sys2Proof.Machine

/-- The format of a width. -/
def rvVFmt (w : Nat) : Fmt := if w = 32 then f32 else f64
def rvVHasFmt (w : Nat) : Bool := w == 32 || w == 64

/-- The operand of OPFVV (vector) or OPFVF (register) for element n. -/
def rvVFB (h : Hart) (i : RvI) (w n : Nat) : Nat := if i.f3 = 5 then rvUnbox (rvVFmt w) (tgetD h.f i.r1 0) else rvVGet h w i.r1 n

/-- The vector operand's group is legal and may be met by the destination. -/
def rvVFBOk (i : RvI) (dw d8 w l8 : Nat) : Bool := i.f3 = 5 || (rvVGrp i.r1 l8 && rvVFits i.rd dw d8 i.r1 w l8)

/-- The fflags of the active elements. -/
def rvVFlags (h : Hart) (c : RvVCfg) (vm : Bool) (g : Nat → Nat) : Nat :=
  ((upto c.vl).filter (rvVActive h c vm)).foldl (fun a n => a ||| g n) 0

/-- Floating elements written and their fflags accrued. -/
def rvVFElems (s : State) (e vd w d8 : Nat) (c : RvVCfg) (vm : Bool) (g : Nat → Nat × Nat) : State :=
  rvAccrue (rvVElems s e vd w d8 c vm (fun n => (g n).1)) e (rvVFlags (hartOf s e) c vm (fun n => (g n).2))

/-- An FP32 value as FP64 and its fflags. -/
def rvVUp (x : Nat) : Nat × Nat := rvRes f64 (fConv f32 f64 0 false false 0 x)

/-- The fused forms by the low two bits of funct6: x y + z, -x y - z, x y - z, -x y + z. -/
def rvVFused (f : Fmt) (k rm x y z : Nat) : Nat × Nat :=
  let x1 := if k % 2 = 1 then flipSign f x else x
  let z1 := if k = 1 || k = 2 then flipSign f z else z
  rvRes f (fFma f rm false x1 y z1)

/-- OPF of one width: a from vs2, b from vs1 or the register, d from the destination. -/
def rvVOpf (f : Fmt) (f6 f3 rm a b d : Nat) : Option (Nat × Nat) :=
  let vf := f3 = 5
  match f6 with
  | 0x00 => some (rvRes f (fAdd f rm false a b))
  | 0x02 => some (rvRes f (fSub f rm false a b))
  | 0x04 => some (rvMinMax f false a b)
  | 0x06 => some (rvMinMax f true a b)
  | 0x08 => some (rvSgnj f 0 a b, 0)
  | 0x09 => some (rvSgnj f 1 a b, 0)
  | 0x0A => some (rvSgnj f 2 a b, 0)
  | 0x20 => some (rvRes f (rvFdiv f rm a b))
  | 0x21 => if vf then some (rvRes f (rvFdiv f rm b a)) else none
  | 0x24 => some (rvRes f (fMul f rm false a b))
  | 0x27 => if vf then some (rvRes f (fSub f rm false b a)) else none
  | 0x28 => some (rvVFused f 0 rm b d a)
  | 0x29 => some (rvVFused f 1 rm b d a)
  | 0x2A => some (rvVFused f 2 rm b d a)
  | 0x2B => some (rvVFused f 3 rm b d a)
  | 0x2C => some (rvVFused f 0 rm b a d)
  | 0x2D => some (rvVFused f 1 rm b a d)
  | 0x2E => some (rvVFused f 2 rm b a d)
  | 0x2F => some (rvVFused f 3 rm b a d)
  | _ => none

def rvVOpfI (s : State) (e : Nat) (c : RvVCfg) (i : RvI) (rm : Nat) : Option State :=
  let h := hartOf s e
  let op := rvVOpf (rvVFmt c.sew) i.f6 i.f3 rm
  if (op 0 0 0).isNone || !rvVDst i.rd c.l8 i.vm || !rvVGrp i.r2 c.l8 || !rvVFBOk i c.sew c.l8 c.sew c.l8 then none
  else some (rvVFElems s e i.rd c.sew c.l8 c i.vm (fun n =>
    (op (rvVGet h c.sew i.r2 n) (rvVFB h i c.sew n) (rvVGet h c.sew i.rd n)).getD (0, 0)))

/-- Widening OPF, from FP32 to FP64; .w takes vs2 in FP64. -/
def rvVOpfWide (f6 rm a b d : Nat) : Option (Nat × Nat) :=
  let wide := fun (x y : Nat × Nat) (r : Nat × Exc) => let z := rvRes f64 r
    some (z.1, z.2 ||| x.2 ||| y.2)
  let p := rvVUp a
  let q := rvVUp b
  match f6 with
  | 0x30 => wide p q (fAdd f64 rm false p.1 q.1)
  | 0x32 => wide p q (fSub f64 rm false p.1 q.1)
  | 0x34 => wide (a, 0) q (fAdd f64 rm false a q.1)
  | 0x36 => wide (a, 0) q (fSub f64 rm false a q.1)
  | 0x38 => wide p q (fMul f64 rm false p.1 q.1)
  | 0x3C => let r := rvVFused f64 0 rm q.1 p.1 d
    some (r.1, r.2 ||| p.2 ||| q.2)
  | 0x3D => let r := rvVFused f64 1 rm q.1 p.1 d
    some (r.1, r.2 ||| p.2 ||| q.2)
  | 0x3E => let r := rvVFused f64 2 rm q.1 p.1 d
    some (r.1, r.2 ||| p.2 ||| q.2)
  | 0x3F => let r := rvVFused f64 3 rm q.1 p.1 d
    some (r.1, r.2 ||| p.2 ||| q.2)
  | _ => none

def rvVOpfWideI (s : State) (e : Nat) (c : RvVCfg) (i : RvI) (rm : Nat) : Option State :=
  let h := hartOf s e
  let isW := i.f6 = 0x34 || i.f6 = 0x36
  let aw := if isW then 64 else 32
  let a8 := if isW then 2 * c.l8 else c.l8
  if c.sew != 32 || (rvVOpfWide i.f6 rm 0 0 0).isNone || !rvVDst i.rd (2 * c.l8) i.vm || !rvVGrp i.r2 a8
    || !rvVFits i.rd 64 (2 * c.l8) i.r2 aw a8 || !rvVFBOk i 64 (2 * c.l8) 32 c.l8 then none
  else some (rvVFElems s e i.rd 64 (2 * c.l8) c i.vm (fun n =>
    (rvVOpfWide i.f6 rm (rvVGet h aw i.r2 n) (rvVFB h i 32 n) (rvVGet h 64 i.rd n)).getD (0, 0)))

/-- The comparisons: equal, less or equal, less, not equal, greater, greater or equal. -/
def rvVFcmp (f : Fmt) (f6 f3 a b : Nat) : Option (Nat × Nat) :=
  match f6 with
  | 0x18 => some (rvCmp f 2 a b)
  | 0x19 => some (rvCmp f 0 a b)
  | 0x1B => some (rvCmp f 1 a b)
  | 0x1C => let r := rvCmp f 2 a b
    some (1 - r.1, r.2)
  | 0x1D => if f3 = 5 then some (rvCmp f 1 b a) else none
  | 0x1F => if f3 = 5 then some (rvCmp f 0 b a) else none
  | _ => none

def rvVFcmpI (s : State) (e : Nat) (c : RvVCfg) (i : RvI) : Option State :=
  let h := hartOf s e
  let op := fun n => (rvVFcmp (rvVFmt c.sew) i.f6 i.f3 (rvVGet h c.sew i.r2 n) (rvVFB h i c.sew n)).getD (0, 0)
  if (rvVFcmp f32 i.f6 i.f3 0 0).isNone || !rvVGrp i.r2 c.l8 || !rvVFits i.rd 1 8 i.r2 c.sew c.l8 || !rvVFBOk i 1 8 c.sew c.l8 then none
  else some (rvAccrue (rvVBits s e i.rd c i.vm (fun n => (op n).1 == 1)) e (rvVFlags h c i.vm (fun n => (op n).2)))

/-- Reductions: sums in element order, minimum, maximum. -/
def rvVFredI (s : State) (e : Nat) (c : RvVCfg) (i : RvI) (rm : Nat) : Option State :=
  let h := hartOf s e
  let wide := 0x30 ≤ i.f6
  let dw := if wide then 64 else c.sew
  let f := rvVFmt dw
  let op := fun acc x =>
    match i.f6 with
    | 0x05 => rvMinMax f false acc x
    | 0x07 => rvMinMax f true acc x
    | _ => rvRes f (fAdd f rm false acc x)
  let el := fun n => if wide then rvVUp (rvVGet h 32 i.r2 n) else (rvVGet h c.sew i.r2 n, 0)
  let r := ((upto c.vl).filter (rvVActive h c i.vm)).foldl (fun (a : Nat × Nat) n =>
    let x := el n
    let y := op a.1 x.1
    (y.1, a.2 ||| x.2 ||| y.2)) (rvVGet h dw i.r1 0, 0)
  if (wide && c.sew != 32) || c.start != 0 || !rvVGrp i.r2 c.l8 then none
  else some (rvAccrue (rvVScalar s e i.rd dw c r.1) e r.2)

/-- A float to an integer of any width; NaN is the largest value. -/
def rvVToInt (f : Fmt) (rm w : Nat) (sg : Bool) (x : Nat) : Nat × Nat :=
  match unpack f x with
  | .nan .. => (if sg then 2 ^ (w - 1) - 1 else 2 ^ w - 1, 16)
  | v => let r := fToInt v rm w sg false
    (r.1 % 2 ^ w, rvFlags r.2)
/-- An integer of any width to a float. -/
def rvVOfInt (f : Fmt) (rm w : Nat) (sg : Bool) (x : Nat) : Nat × Nat := rvRes f (fOfInt f rm false 0 (if sg then sextI x w else x))

/-- FP64 to FP32 rounded to odd: truncated, the last bit set when inexact. -/
def rvVRod (x : Nat) : Nat × Nat :=
  let r := rvRes f32 (fConv f64 f32 1 false false 0 x)
  (if bit r.2 0 then r.1 ||| 1 else r.1, r.2)

/-- The conversions by vs1, w the element width: source width, destination width, and the element; none is reserved. -/
def rvVFcvt (k rm w : Nat) : Option (Nat × Nat × (Nat → Nat × Nat)) :=
  let need := fun (p : Bool) (sw dw : Nat) (g : Nat → Nat × Nat) => if p then some (sw, dw, g) else none
  match k with
  | 0 => need (rvVHasFmt w) w w (rvVToInt (rvVFmt w) rm w false)
  | 1 => need (rvVHasFmt w) w w (rvVToInt (rvVFmt w) rm w true)
  | 2 => need (rvVHasFmt w) w w (rvVOfInt (rvVFmt w) rm w false)
  | 3 => need (rvVHasFmt w) w w (rvVOfInt (rvVFmt w) rm w true)
  | 6 => need (rvVHasFmt w) w w (rvVToInt (rvVFmt w) 1 w false)
  | 7 => need (rvVHasFmt w) w w (rvVToInt (rvVFmt w) 1 w true)
  | 8 => need (w == 32) 32 64 (rvVToInt f32 rm 64 false)
  | 9 => need (w == 32) 32 64 (rvVToInt f32 rm 64 true)
  | 10 => need (w == 16 || w == 32) w (2 * w) (rvVOfInt (rvVFmt (2 * w)) rm w false)
  | 11 => need (w == 16 || w == 32) w (2 * w) (rvVOfInt (rvVFmt (2 * w)) rm w true)
  | 12 => need (w == 32) 32 64 rvVUp
  | 14 => need (w == 32) 32 64 (rvVToInt f32 1 64 false)
  | 15 => need (w == 32) 32 64 (rvVToInt f32 1 64 true)
  | 16 => need (w == 16 || w == 32) (2 * w) w (rvVToInt (rvVFmt (2 * w)) rm w false)
  | 17 => need (w == 16 || w == 32) (2 * w) w (rvVToInt (rvVFmt (2 * w)) rm w true)
  | 18 => need (w == 32) 64 32 (rvVOfInt f32 rm 64 false)
  | 19 => need (w == 32) 64 32 (rvVOfInt f32 rm 64 true)
  | 20 => need (w == 32) 64 32 (fun x => rvRes f32 (fConv f64 f32 rm false false 0 x))
  | 21 => need (w == 32) 64 32 rvVRod
  | 22 => need (w == 16 || w == 32) (2 * w) w (rvVToInt (rvVFmt (2 * w)) 1 w false)
  | 23 => need (w == 16 || w == 32) (2 * w) w (rvVToInt (rvVFmt (2 * w)) 1 w true)
  | _ => none

def rvVFcvtI (s : State) (e : Nat) (c : RvVCfg) (i : RvI) (rm : Nat) : Option State :=
  match rvVFcvt i.r1 rm c.sew with
  | none => none
  | some (sw, dw, g) =>
    let h := hartOf s e
    let s8 := c.l8 * sw / c.sew
    let d8 := c.l8 * dw / c.sew
    if !rvVDst i.rd d8 i.vm || !rvVGrp i.r2 s8 || !rvVFits i.rd dw d8 i.r2 sw s8 then none
    else some (rvVFElems s e i.rd dw d8 c i.vm (fun n => g (rvVGet h sw i.r2 n)))

/-! The 7-bit estimates. The table entries are the estimate's seven fraction bits at the middle of the interval. -/

def rvVRecTab (n : Nat) : Nat := (2 * 65536 + (257 + 2 * n)) / (2 * (257 + 2 * n)) - 128
/-- The interval of a square root estimate: the parity of the exponent and six fraction bits. -/
def rvVRsqTab (odd : Bool) (n : Nat) : Nat := (isqrt (4 * (65536 * 128) / ((if odd then 1 else 2) * (129 + 2 * n))) + 1) / 2 - 128

/-- Exponent and fraction of a subnormal made normal. -/
def rvVNorm (f : Fmt) (ex fr : Nat) : Int × Nat :=
  if ex = 0 then
    let k := f.fb - Nat.log2 fr
    (1 - (k : Int), (fr <<< k) % 2 ^ f.fb)
  else ((ex : Int), fr)

/-- vfrsqrt7. -/
def rvVRsqrt7 (f : Fmt) (x : Nat) : Nat × Nat :=
  match unpack f x with
  | .nan _ _ sig => (rvNan f, if sig then 16 else 0)
  | .inf n => if n then (rvNan f, 16) else (packMag f false 0, 0)
  | .fin n m _ =>
    if m = 0 then (packInf f n, 8)
    else if n then (rvNan f, 16)
    else
      let r := rvVNorm f (bits x (f.w - 2) f.fb) (x % 2 ^ f.fb)
      let bias : Int := 2 ^ (f.w - 2 - f.fb) - 1
      let ex := ((3 * bias - 1 - r.1) / 2).toNat
      (packMag f false (ex <<< f.fb + rvVRsqTab (r.1 % 2 = 1) (r.2 >>> (f.fb - 6)) <<< (f.fb - 7)), 0)

/-- vfrec7. -/
def rvVRec7 (f : Fmt) (rm x : Nat) : Nat × Nat :=
  match unpack f x with
  | .nan _ _ sig => (rvNan f, if sig then 16 else 0)
  | .inf n => (packMag f n 0, 0)
  | .fin n m _ =>
    let ex := bits x (f.w - 2) f.fb
    let fr := x % 2 ^ f.fb
    let bias : Int := 2 ^ (f.w - 2 - f.fb) - 1
    if m = 0 then (packInf f n, 8)
    else if ex = 0 && fr >>> (f.fb - 2) = 0 then
      (if rm = 1 || (rm = 3 && !n) || (rm = 2 && n) then packMag f n (f.inf.getD 0 - 1) else packInf f n, 5)
    else
      let r := rvVNorm f ex fr
      let oe : Int := 2 * bias - 1 - r.1
      let t := rvVRecTab (r.2 >>> (f.fb - 7)) <<< (f.fb - 7)
      let full := 2 ^ f.fb + t
      (packMag f n (if oe ≤ 0 then full >>> (1 - oe).toNat else oe.toNat <<< f.fb + t), 0)

/-- vfsqrt, vfrsqrt7, vfrec7, vfclass by vs1. -/
def rvVFun1 (f : Fmt) (k rm x : Nat) : Option (Nat × Nat) :=
  match k with
  | 0 => some (rvRes f (rvFsqrt f rm x))
  | 4 => some (rvVRsqrt7 f x)
  | 5 => some (rvVRec7 f rm x)
  | 16 => some (rvClass f x, 0)
  | _ => none

def rvVFun1I (s : State) (e : Nat) (c : RvVCfg) (i : RvI) (rm : Nat) : Option State :=
  let h := hartOf s e
  if !([0, 4, 5, 16].contains i.r1) || !rvVDst i.rd c.l8 i.vm || !rvVGrp i.r2 c.l8 then none
  else some (rvVFElems s e i.rd c.sew c.l8 c i.vm (fun n => (rvVFun1 (rvVFmt c.sew) i.r1 rm (rvVGet h c.sew i.r2 n)).getD (0, 0)))

/-- vfmerge and vfmv.v.f. -/
def rvVFmergeI (s : State) (e : Nat) (c : RvVCfg) (i : RvI) : Option State :=
  let h := hartOf s e
  if (i.vm && i.r2 != 0) || !rvVDst i.rd c.l8 i.vm || !(i.vm || rvVGrp i.r2 c.l8) then none
  else some (rvVElems s e i.rd c.sew c.l8 c true (fun n => if i.vm || rvVMask h 0 n then rvVFB h i c.sew n else rvVGet h c.sew i.r2 n))

/-- vfmv.f.s and vfmv.s.f. -/
def rvVFmoveI (s : State) (e : Nat) (c : RvVCfg) (i : RvI) : Option State :=
  let h := hartOf s e
  if !i.vm then none
  else if i.f3 = 1 then
    if i.r1 != 0 then none else some (rvPutF s e i.rd (rvBox (rvVFmt c.sew) (rvVGet h c.sew i.r2 0)))
  else if i.r2 != 0 then none
  else some (rvVScalar s e i.rd c.sew c (rvVFB h i c.sew 0))

/-- OPFVV and OPFVF by funct6; an frm that is reserved or a width without a format is illegal. -/
def rvVOpfRun (s : State) (e : Nat) (c : RvVCfg) (i : RvI) : Option State :=
  let vv := i.f3 = 1
  match rvRm 7 (rvCsr (hartOf s e) 3 / 32) with
  | none => none
  | some rm =>
    if hFs (hartOf s e) = 0 then none
    else if vv && i.f6 = 0x12 then rvVFcvtI s e c i rm
    else if !rvVHasFmt c.sew then none
    else match i.f6 with
      | 0x01 => if vv then rvVFredI s e c i rm else none
      | 0x03 => if vv then rvVFredI s e c i rm else none
      | 0x05 => if vv then rvVFredI s e c i rm else none
      | 0x07 => if vv then rvVFredI s e c i rm else none
      | 0x31 => if vv then rvVFredI s e c i rm else none
      | 0x33 => if vv then rvVFredI s e c i rm else none
      | 0x0E => if vv then none else rvVSlide1 s e c i (rvVFB (hartOf s e) i c.sew 0)
      | 0x0F => if vv then none else rvVSlide1 s e c i (rvVFB (hartOf s e) i c.sew 0)
      | 0x10 => rvVFmoveI s e c i
      | 0x13 => if vv then rvVFun1I s e c i rm else none
      | 0x17 => if vv then none else rvVFmergeI s e c i
      | _ =>
        if 0x18 ≤ i.f6 && i.f6 ≤ 0x1F then rvVFcmpI s e c i
        else if 0x30 ≤ i.f6 then rvVOpfWideI s e c i rm
        else rvVOpfI s e c i rm

end Sys2Proof.Machine
end

