-- ==== Sys2Proof/Machine/RvVecRun.lean ====
section
/-! DEFINITION. One instruction of the vector opcode (R363: the V extension, PRESUMED, log entry 20). -/

namespace Sys2Proof.Machine

/-- OP-V: illegal while VS is off, while vill is set, or where the encoding is reserved. (PRESUMED, log entry 20) -/
def rvVOpI (s : State) (e : Nat) (i : RvI) : RvEnd :=
  let h := hartOf s e
  let c := rvVcfg h
  if hVs h = 0 then rvIllegal s i
  else if i.f3 = 7 then rvVSet s e i
  else
    let r : Option State :=
      if c.vill then none
      else if i.f3 = 0 || i.f3 = 3 || i.f3 = 4 then rvVOpiRun s e c i
      else if i.f3 = 2 || i.f3 = 6 then rvVOpmRun s e c i
      else rvVOpfRun s e c i
    match r with
    | none => rvIllegal s i
    | some t => .done (rvVEnd t e) i.npc

end Sys2Proof.Machine
end

