-- ==== Sys2Proof/Machine/Hart.lean ====
section
/-! DEFINITION. The instruction of a hart (R363 to R367): the base, M, A, F, D, C, V, Zicsr and Zifencei instructions of the
RISC-V specifications, which spec/ does not restate (PRESUMED, log entry 20). -/

namespace Sys2Proof.Machine

/-- LOAD-FP and STORE-FP; other widths are vector accesses. -/
def rvLoadF (s : State) (e : Nat) (i : RvI) : RvEnd :=
  if i.f3 = 2 || i.f3 = 3 then
    if hFs (hartOf s e) = 0 then rvIllegal s i
    else
      let va := rvEa s e i (rvImmI i.w)
      rvAccess i va (rvLoad s e va.toNat (2 ^ i.f3)) (fun t v => rvPutF t e i.rd (rvBox (if i.f3 = 2 then f32 else f64) v))
  else if [0, 5, 6, 7].contains i.f3 then rvVMemI s e i false
  else rvIllegal s i
def rvStoreF (s : State) (e : Nat) (i : RvI) : RvEnd :=
  if i.f3 = 2 || i.f3 = 3 then
    if hFs (hartOf s e) = 0 then rvIllegal s i
    else
      let va := rvEa s e i (rvImmS i.w)
      let n := 2 ^ i.f3
      rvAccess i va (rvStore s e va.toNat n ((tgetD (hartOf s e).f i.r2 0).toNat % 2 ^ (8 * n))) (fun t _ => t)
  else if [0, 5, 6, 7].contains i.f3 then rvVMemI s e i true
  else rvIllegal s i

/-- OP-FP and the fused forms. -/
def rvFloatI (s : State) (e : Nat) (i : RvI) : RvEnd :=
  let h := hartOf s e
  let f := if bit i.w 25 then f64 else f32
  let fr := fun n => tgetD h.f n 0
  let r : Option RvF :=
    if hFs h = 0 || bit i.w 26 then none
    else if i.op = 0x53 then rvOpFp f (bits i.w 31 27) i.f3 (rvCsr h 3 / 32) i.r2 (fr i.r1) (fr i.r2) (rvX h i.r1)
    else (rvRm i.f3 (rvCsr h 3 / 32)).map (fun rm =>
      rvFused f i.op rm (rvUnbox f (fr i.r1)) (rvUnbox f (fr i.r2)) (rvUnbox f (fr (bits i.w 31 27))))
  match r with
  | none => rvIllegal s i
  | some r =>
    let s1 := rvAccrue s e r.flags
    .done (if r.toF then rvPutF s1 e i.rd r.val else rvPutX s1 e i.rd r.val) i.npc

/-- Acquire and release around an atomic: rl waits for the hart's writes, aq acquires afterwards (R283). (PRESUMED, log entry 20) -/
def rvAtomicI (s : State) (e : Nat) (i : RvI) : RvEnd :=
  let h := hartOf s e
  let n := 2 ^ i.f3
  let va := rvX h i.r1
  let v := (rvX h i.r2).toNat % 2 ^ (8 * n)
  let f5 := bits i.w 31 27
  let put := fun t v =>
    let t1 := if bit i.w 26 then hartAcquire t e else t
    rvPutX t1 e i.rd (BitVec.ofInt 64 (sextI v (8 * n)))
  if i.f3 != 2 && i.f3 != 3 then rvIllegal s i
  else if f5 = 2 && i.r2 != 0 then rvIllegal s i
  else if bit i.w 25 && !hartReleased s e then .wait
  else if f5 = 2 then rvAccess i va (rvLr s e va.toNat n) put
  else if f5 = 3 then rvAccess i va (rvSc s e va.toNat n v) put
  else match amoCode f5 with
    | none => rvIllegal s i
    | some c => rvAccess i va (rvAmo s e va.toNat n c v) put

/-- FENCE and FENCE.I: a FENCE is a full one at device scope, whatever its sets name: earlier writes are waited for, later reads
acquire (R283); fetches read at the home. -/
def rvFence (s : State) (e : Nat) (i : RvI) : RvEnd :=
  if i.f3 = 1 then .done s i.npc
  else if i.f3 != 0 then rvIllegal s i
  else if !hartReleased s e then .wait
  else .done (hartAcquire s e) i.npc

/-- The CSR instructions. -/
def rvCsrI (s : State) (e : Nat) (i : RvI) : RvEnd :=
  let n := bits i.w 31 20
  let src := if 4 ≤ i.f3 then i.r1 else (rvX (hartOf s e) i.r1).toNat
  let writes := i.f3 % 4 == 1 || i.r1 != 0
  let vec := (0x008 ≤ n && n ≤ 0x00F) || (0xC20 ≤ n && n ≤ 0xC22)
  let h := hartOf s e
  match (if vec then (if hVs h = 0 then none else rvVCsrRead h n) else rvCsrRead s e n) with
  | none => rvIllegal s i
  | some old =>
    if writes && bits n 11 10 == 3 then rvIllegal s i
    else
      let base := if n = 0x144 then bits (rvCsr h n) 1 1 * 2
        else if n = 0x344 then bits (rvCsr h 0x144) 1 1 * 2 + mCsr h n else old
      let v := match i.f3 % 4 with
        | 1 => src
        | 2 => base ||| src
        | _ => base - (base &&& src)
      let s0 := if n = 0xC01 then hartSaw s e old else s
      let s1 := if !writes then s0 else if vec then rvVCsrWrite s0 e n v else rvCsrWrite s0 e n v
      .done (rvPutX s1 e i.rd (w64 old)) i.npc

/-- SRET. -/
def rvSret (s : State) (e : Nat) : State :=
  modHart s e (fun h =>
    let st := rvCsr h 0x100
    { setMCsr (setCsr h 0x100 (setBits (setBits (setBits st 1 1 (bits st 5 5)) 5 5 1) 8 8 0)) 0x300 (setBits (mCsr h 0x300) 17 17 0)
      with priv := bits st 8 8 })

/-- MRET. -/
def rvMret (s : State) (e : Nat) : State :=
  modHart s e (fun h =>
    let st := mCsr h 0x300
    let st1 := setBits (setBits (setBits st 3 3 (bits st 7 7)) 7 7 1) 12 11 0
    { setMCsr h 0x300 (if bits st 12 11 == 3 then st1 else setBits st1 17 17 0) with priv := bits st 12 11 })

/-- S-mode may run an instruction that a bit of mstatus (TVM 20, TW 21, TSR 22) takes from it; M-mode may. -/
def rvAllowed (h : Hart) (n : Nat) : Bool := h.priv == 3 || (h.priv == 1 && !bit (mCsr h 0x300) n)

/-- SYSTEM. An ECALL of S-mode enters device firmware in M-mode, as an exception that is not delegated. (PRESUMED, log entry 20) -/
def rvSystem (s : State) (e : Nat) (i : RvI) : RvEnd :=
  let h := hartOf s e
  if i.f3 = 4 then rvIllegal s i
  else if i.f3 != 0 then rvCsrI s e i
  else if i.rd = 0 && i.f7 = 9 then if rvAllowed h 20 then .done s i.npc else rvIllegal s i
  else match i.w with
    | 0x00000073 => .trap s (8 + h.priv) 0
    | 0x00100073 => .trap s 3 i.pc
    | 0x10200073 => if rvAllowed h 22 then .done (rvSret s e) (w64 (rvCsr h 0x141)) else rvIllegal s i
    | 0x10500073 => if rvAllowed h 21 then .done (modHart s e (fun h => { h with wfi := true })) i.npc else rvIllegal s i
    | 0x30200073 => if h.priv = 3 then .done (rvMret s e) (w64 (mCsr h 0x341)) else rvIllegal s i
    | _ => rvIllegal s i

/-- One instruction by its opcode. (PRESUMED, log entry 20) -/
def rvExec (s : State) (e : Nat) (i : RvI) : RvEnd :=
  let h := hartOf s e
  match i.op with
  | 0x37 => rvResult s e i (some (BitVec.ofInt 64 (rvImmU i.w)))
  | 0x17 => rvResult s e i (some (i.pc + BitVec.ofInt 64 (rvImmU i.w)))
  | 0x6F => .done (rvPutX s e i.rd i.npc) (i.pc + BitVec.ofInt 64 (rvImmJ i.w))
  | 0x67 =>
    if i.f3 != 0 then rvIllegal s i
    else
      let t := (rvX h i.r1 + BitVec.ofInt 64 (rvImmI i.w)).toNat
      .done (rvPutX s e i.rd i.npc) (w64 (t / 2 * 2))
  | 0x63 => match rvCond i.f3 (rvX h i.r1) (rvX h i.r2) with
    | none => rvIllegal s i
    | some t => .done s (if t then i.pc + BitVec.ofInt 64 (rvImmB i.w) else i.npc)
  | 0x03 => rvLoadI s e i
  | 0x23 => rvStoreI s e i
  | 0x13 => rvOpImm s e i
  | 0x1B => rvOpImmW s e i
  | 0x33 => rvResult s e i (rvAlu i.f3 i.f7 (rvX h i.r1) (rvX h i.r2))
  | 0x3B => rvResult s e i (rvAluW i.f3 i.f7 (w32 (rvX h i.r1).toNat) (w32 (rvX h i.r2).toNat))
  | 0x0F => rvFence s e i
  | 0x2F => rvAtomicI s e i
  | 0x07 => rvLoadF s e i
  | 0x27 => rvStoreF s e i
  | 0x43 => rvFloatI s e i
  | 0x47 => rvFloatI s e i
  | 0x4B => rvFloatI s e i
  | 0x4F => rvFloatI s e i
  | 0x53 => rvFloatI s e i
  | 0x57 => rvVOpI s e i
  | 0x73 => rvSystem s e i
  | _ => rvIllegal s i

/-! Fetch (R366). -/

/-- Two bytes of the instruction stream, or the cause of the fault and its address. M-mode fetches the text of the device
firmware, which no owner's memory holds (R363, PRESUMED, log entry 20). -/
def rvHalf (s : State) (e : Nat) (va : W64) : Except (Nat × W64) Nat :=
  if (hartOf s e).priv = 3 then .ok (Config.firmwareText (va.toNat / 2)).toNat
  else match rvPa s e 0 va.toNat 2 with
  | .error c => .error (c, va)
  | .ok pa => if unitPois s pa then .error (1, va) else .ok (peekNum s pa 2)

/-- The instruction at the pc: its bits and length. (PRESUMED, log entry 20) -/
def rvFetch (s : State) (e : Nat) : Except (Nat × W64) (Nat × Nat) :=
  let pc := (hartOf s e).pc
  match rvHalf s e pc with
  | .error x => .error x
  | .ok h =>
    if h % 4 != 3 then .ok (h, 2)
    else match rvHalf s e (pc + 2) with
      | .error x => .error x
      | .ok h2 => .ok (h + h2 * 65536, 4)

/-- The instruction's end applied to the machine. -/
def rvFinish (s : State) (e : Nat) (r : RvEnd) : Out :=
  match r with
  | .done t pc => .next (modHart t e (fun h => { h with pc := pc, instret := h.instret + 1 }))
  | .trap t c v => .next (rvTrap t e false c v)
  | .wait => .next s
  | .hold t => .next t

/-- The next instruction of a hart that is neither interrupted nor waiting. (PRESUMED, log entry 20) -/
def rvRun (s : State) (e : Nat) : Out :=
  let pc := (hartOf s e).pc
  match rvFetch s e with
  | .error (c, v) => .next (rvTrap s e false c v)
  | .ok (raw, n) =>
    let npc := pc + BitVec.ofNat 64 n
    match (if n = 2 then rvExpand raw else some raw) with
    | none => .next (rvTrap s e false 2 (w64 raw))
    | some w => rvFinish s e (rvExec s e ⟨w, raw, pc, npc⟩)

/-- HART_INSTRUCTION (R363, R365, R366): a hart that runs takes a pending interrupt or executes its next instruction; in a
WFI it waits for an interrupt that is pending and enabled in sie. (PRESUMED, log entry 20) -/
def execHartInstruction (ep : Nat) (s : State) : Out :=
  let x := epOf s ep
  if !hartRuns s ep || (x.hart.wfi && rvPend x == 0) then .next s
  else
    let s1 := modHart s ep (fun h => { h with wfi := false })
    match rvTake x with
    | some c => .next (rvTrap s1 ep true c 0)
    | none => rvRun s1 ep

end Sys2Proof.Machine
end

