-- ==== Sys2Proof/Machine/Outside.lean ====
section
/-! DEFINITION. Accesses from outside the device: the host's to device memory, its own memory, a peer's (R182, R283, R297,
R404, R406). -/

namespace Sys2Proof.Machine

/-- HOST_MEMORY_ACCESS (R283, R404): a read or a write of device memory, performed at its home. An address outside the rows
of R297 for device memory has no storage. (DEDUCED, log entry 24; log entry 50; log entry 52) -/
def execHostMemoryAccess (write : Bool) (pa size v : Nat) (s : State) : Out :=
  if !s.dev.answering || !s.dev.bootOk then .next s
  else if !(upto size).all (fun i => isDevMem s (pa + i)) then .fault .noStorage
  else if write then .next (engineWrite s pa (bytesOf size v)).1
  else
    let bs := (upto size).map (fun i => (homeRead s (pa + i) 1).1.headD 0)
    let lns := ((upto size).map (fun i => lineOf (canonPa s (pa + i)))).eraseDups
    .next { lns.foldl recallLine s with hostData := w64 (ofBytes bs) }

/-- The host's store to its own memory. (DEDUCED, log entry 50) -/
def hostStore (s : State) (pa : Nat) (bs : List Byte) : State :=
  if (upto bs.length).all (fun i => regionOf s (pa + i) == .host) then (engineWrite s pa bs).1 else s

/-- A peer's own store to its memory, which the monitors armed there see (R185, R406). (DEDUCED, log entry 50) -/
def peerStore (s : State) (pa : Nat) (bs : List Byte) : State :=
  if (upto bs.length).all (fun i => match regionOf s (pa + i) with | .peer d => peerHere s d | _ => false)
  then (engineWrite s pa bs).1 else s

/-- PEER_ACCESS (R182, R406): an access of another member of the domain to this device's memory, performed at its home. Kind 0
reads, and leaves the lease of length v that its reader takes; 1 writes; 2 + c applies the operation code c of R179; 32 + c
reads for a WAITC of condition c against v and arms its monitor where the condition does not hold and the table has room
(R185, R308); 48 frees the monitors of an address, their wave killed. (DEDUCED, log entry 42; log entry 50; log entry 52) -/
def execPeerAccess (kind pa size v : Nat) (s : State) : Out :=
  if s.dev.domsize == 0 then .next s
  else if !(upto size).all (fun i => isDevMem s (pa + i)) then .fault .noStorage
  else if kind == 0 then
    let r := homeRead s pa size
    let key := lineOf (canonPa s pa)
    .next { r.2 with
      hostData := w64 (ofBytes r.1)
      lease := tput r.2.lease key (max (tgetD r.2.lease key 0) (s.now + min 65536 v)) }
  else if kind == 1 then .next (engineWrite s pa (bytesOf size v)).1
  else if kind == 48 then
    .next (modSlice s (homeSlice s pa) (fun t => { t with farMons := t.farMons.filter (fun m => m.pa != pa) }))
  else if 32 ≤ kind then
    let r := homeRead s pa size
    let g := homeSlice s pa
    let t := sliceOf s g
    let s1 := { r.2 with hostData := w64 (ofBytes r.1) }
    if monCond (kind - 32) size (ofBytes r.1) (w64 v) || decide (4096 ≤ t.mons.length + t.farMons.length) then .next s1
    else .next (modSlice s1 g (fun t => { t with farMons := t.farMons ++ [⟨pa, size, kind - 32, w64 v⟩] }))
  else
    let r := homeUpdate s pa size (kind - 2) (v % 2 ^ (8 * size)) (v >>> (8 * size))
    .next { r.1 with hostData := w64 r.2.1 }

end Sys2Proof.Machine
end

