-- ==== Sys2Proof/Machine/Power.lean ====
section
/-! DEFINITION. Power and thermal control: points settled, thermal samples, way gating, the passing of time on a rope's
energy (R382 to R388). -/

namespace Sys2Proof.Machine

/-- OPERATING_POINT_SETTLED (R382). (DEDUCED, log entry 17) -/
def execOperatingPointSettled (rope : Nat) (s : State) : Out :=
  match (ropeOf s rope).settleEnd with
  | none => .next s
  | some t => if s.now < t then .next s
    else .next (modRope s rope (fun r => { r with settleEnd := none, oldPoint := r.point }))

/-- The rope has dwelt in its thermal state for 2,000,000 rns (R383). -/
def dwelt (s : State) (r : Rope) : Bool := r.dwellFrom.elim true (fun t => decide (t + 2000000 ≤ s.now))

/-- THERMAL_SAMPLE (R383): a sample of Tj, in units of 0.125 °C; at 95 °C the rope becomes throttled, below 92 °C normal
again. (DEDUCED, log entry 15; log entry 16) -/
def execThermalSample (rope : Nat) (tj : BitVec 16) (s : State) : Out :=
  let r := ropeOf s rope
  if decide (Config.ropes ≤ rope) || decide (s.now < r.nextSample) then .next s
  else
    let s1 := modRope s rope (fun r => { r with tj := tj, nextSample := s.now + 1000 })
    if !r.throttled && decide (760 ≤ tj.toInt) && dwelt s r then
      .next (repoint (modRope s1 rope (fun r => { r with throttled := true, dwellFrom := some s.now, entries := satInc r.entries })) rope)
    else if r.throttled && decide (tj.toInt < 736) && dwelt s r then
      .next (repoint (modRope s1 rope (fun r => { r with throttled := false, dwellFrom := some s.now })) rope)
    else .next s1

/-- WAY_GATING_INTERVAL (R387, R388): at the end of an interval one way may be gated, or up to four re-enabled; NOGATE
re-enables all, and MINWAYS is made up. (DEDUCED, log entry 15; log entry 16) -/
def execWayGatingInterval (slice : Nat) (gate missHigh : Bool) (s : State) : Out :=
  let g := sliceOf s slice
  if decide (Config.slices ≤ slice) || decide (s.now < g.nextInt) then .next s
  else
    let least := max 4 g.minways
    let ways := if g.nogate then 16
      else if missHigh || decide (g.ways < least) then min 16 (g.ways + 4)
      else if gate && decide (least < g.ways) then g.ways - 1
      else g.ways
    .next (modSlice s slice (fun x => { x with ways := ways, nextInt := s.now + 1000000 }))

/-- The clock of a point in units of 10 MHz (R381). -/
def pointClock (p : Nat) : Nat := if p == 1 then 80 else if p == 3 then 125 else 110

/-- Nanoseconds, of n, in which a rope's cut-off is below 32: E is below Emax / 2 until the allowance has made it up
(R385). -/
def lowTime (r : Rope) (n : Nat) : Nat :=
  let low := r.deficit - (Config.emax - Config.emax / 2)
  min n ((low + r.allow - 1) / r.allow)

/-- n nanoseconds pass on a rope: E rises, WITHHELD counts the cycles of withholding (R385, R386). (DESIGN CHOICE, log entry 11; log
entry 47) -/
def powerTick (n : Nat) (r : Rope) : Rope :=
  let c := lowTime r n * pointClock (clockPoint r) + r.wfrac
  { r with deficit := r.deficit - r.allow * n, withheld := satAdd r.withheld (c / 100), wfrac := c % 100 }

end Sys2Proof.Machine
end

