-- ==== Sys2Proof/Machine/Sampling.lean ====
section
/-! DEFINITION. Cairn samples picked and recorded, the patrol scrubber, errors in memory units and on-core storage (R392,
R393, R398 to R400). -/

namespace Sys2Proof.Machine

/-! Samples (R392, R393). -/

/-- The end of a context's sampling period that is running now. (DEDUCED, log entry 15) -/
def periodEnd (s : State) (ctx : Nat) : Nat :=
  let p := (ctxOf s ctx).speriod
  (s.now / p + 1) * p

/-- A core has no pick of a context in the period that is running. -/
def pickFree (s : State) (core ctx : Nat) : Bool :=
  !s.picks.any (fun p => p.core == core && p.ctx == ctx && decide (s.now < p.pEnd))

/-- CAIRN_SAMPLE_PICK (R392): the instant drawn for this period has come; the next word of the context that issues on the
core, before the period ends, is the sample. -/
def execCairnSamplePick (core ctx : Nat) (s : State) : Out :=
  if (ctxOf s ctx).speriod == 0 || !pickFree s core ctx then .next s
  else .next { s with picks := s.picks.filter (fun p => !(p.core == core && p.ctx == ctx && p.wid.isNone)) ++
    [⟨core, ctx, periodEnd s ctx, 0, none, [], true, 0⟩] }

/-- A slot is parked at the word of a sample: it has not completed (R392). -/
def parkedOn (s : State) (p : Pick) (wid : Nat) : Bool :=
  (tget s.waves wid).elim false (fun w => (blockOf s w).elim false (fun b =>
    let x := slotOf w (bit (p.words.getD 3 0).toNat 37)
    x.used && x.inClause && x.park != .run && x.park != .trapped && x.park != .ended
      && imgOff b.var (wordAddr x) == bits (p.words.getD 1 0).toNat 31 0))

/-- A sampled word is complete: no operation that it issued is outstanding, and its slot does not wait at it. -/
def sampleDone (s : State) (p : Pick) (wid : Nat) : Bool :=
  let w1 := (p.words.getD 1 0).toNat
  !parkedOn s p wid && !s.ops.any (fun e => e.2.wid == wid && e.2.orig.image == bits w1 63 32 && e.2.orig.off == bits w1 31 0)

/-- The record with its latencies and level; the stages after a trap read 0 (R393). -/
def sampleWords (ws : List W64) (lat : List (BitVec 16)) (level : Nat) : List W64 :=
  let l := fun i => (lat.getD i 0).toNat
  let w3 := (ws.getD 3 0).toNat
  let trapped := bit w3 36
  let late := fun n => if trapped then 0 else n
  setAt (setAt ws 2 (w64 (l 0 * 2 ^ 48 + l 1 * 2 ^ 32 + l 2 * 2 ^ 16 + late (l 3)))) 3
    (w64 (w3 + late (l 4) * 2 ^ 48 + level * 2 ^ 44))

/-- The level of a sample's record: the farthest that its word reached; whether an L2 slice read its stack for it is the event's
(R393). (DESIGN CHOICE, log entry 16) -/
def sampleLevel (p : Pick) (level : BitVec 4) : Nat :=
  if (p.level == 4 || p.level == 5) && level == 6 then 6 else p.level

/-- CAIRN_RECORD_WRITE (R392, R393): the sampled word has completed; its record goes to the ring. The period stays used. (DESIGN
CHOICE, log entry 16) -/
def execCairnRecordWrite (pick : Nat) (lat : List (BitVec 16)) (level : BitVec 4) (s : State) : Out :=
  match s.picks[pick]? with
  | none => .next s
  | some p => match p.wid with
    | none => .next s
    | some wid =>
      if !sampleDone s p wid then .next s
      else
        let used : List Pick := if s.now < p.pEnd then [⟨p.core, p.ctx, p.pEnd, 0, none, [], false, 0⟩] else []
        .next (samplePush { s with picks := s.picks.eraseIdx pick ++ used } p.ctx (sampleWords p.words lat (sampleLevel p level)))

/-! Errors (R398 to R400). -/

/-- A 64-byte unit of storage is poisoned. -/
def poisonUnit (s : State) (pa : Nat) : State :=
  let u := unitOf (canonPa s pa)
  if s.poison.contains u then s else { s with poison := u :: s.poison }

/-- A symbol of a wave is marked as one that holds an uncorrectable error of the block's own storage (R229). (DESIGN CHOICE, log entry 45) -/
def markSym (s : State) (wid : Nat) (cls : SymCls) (num : Nat) : State :=
  modWave s wid (fun w => let u := unPoison w cls num; { u with pois := u.pois ++ [⟨cls, num, 2, {}, 0⟩] })

/-- The block in whose spill area an address lies (R249). -/
def spillBlock (s : State) (pa : Nat) : Option (Nat × Block) :=
  s.blocks.find? (fun e =>
    let lo := (ctxOf s e.2.ctx).spillbase.toNat + e.2.area.1
    e.2.res != .retired && decide (lo ≤ pa) && decide (pa < lo + e.2.area.2))

/-- What a place of a block's spill area holds (R249): a symbol of a wave, a quad, an entry of a wave's divergence stack, a 64-byte unit
of the buffers, or the slots and the rest of a wave's state. -/
inductive SpillPart where
  | sym (wid : Nat) (cls : SymCls) (num : Nat)
  | quad (num : Nat)
  | stack (wid i : Nat)
  | buf (unit : Nat)
  | rest (wid : Nat)
deriving DecidableEq, Repr

/-- What a block holds in its spill area: the spill-bound symbols and the divergence stacks of its waves, and while it is away all its
symbols, its buffers and the rest of its waves' state (R249, R255). -/
def spillParts (s : State) (b : Block) : List SpillPart :=
  let m := b.var.info
  let away := b.res != .resident
  b.waves.flatMap (fun i => ((upto m.nV).filter (fun n => away || spillBound m b.budget false n)).map (.sym i .v)
      ++ ((upto m.nS).filter (fun n => away || spillBound m b.budget true n)).map (.sym i .s)
      ++ (upto ((tget s.waves i).elim 0 (·.spills.length))).map (.stack i) ++ (if away then [.rest i] else []))
    ++ b.qspill.map (fun e => .quad e.1) ++ (if away then (upto ((packLen (bufPacks m) + 63) / 64)).map .buf else [])

/-- An uncorrectable error in a part of a block's spill area is met as subcode 2 by the first word that reads it, or before the next
word of a wave whose state it struck (R229, R249). (DESIGN CHOICE, log entry 19) -/
def strikePart (s : State) (blk : Nat) : SpillPart → State
  | .sym i cls n => markSym s i cls n
  | .quad n => modBlock s blk (fun b => { b with qpois := n :: b.qpois })
  | .stack i n => modWave s i (fun w => { w with spills := w.spills.modify n (fun e => { e with bad := true }) })
  | .buf u => modBlock s blk (fun b => { b with bufPois := b.bufPois ++ [⟨64 * u, 2, {}, 64 * u⟩] })
  | .rest i => modWave s i (fun w => { w with defer := w.defer ++ [{ cause := 0x14, sub := 2, orig := none }] })

/-- An uncorrectable error in a block's spill area strikes one of the things there; which one lies at an address is not
architectural (R249). (DESIGN CHOICE, log entry 19) -/
def spillError (s : State) (blk : Nat) (b : Block) : State :=
  let l := spillParts s b
  let s1 := { s with fresh := s.fresh + 1 }
  match l[(Config.freeValue s.fresh).toNat % l.length]? with
  | some p => strikePart s1 blk p
  | none => s1

/-- A unit of HBM4E or of an L2 slice has an error: a corrected one is only recorded, an uncorrectable one poisons, or marks what a
spill area held there. (DESIGN CHOICE, log entry 16) -/
def memError (s : State) (pa unit ctx : Nat) (bad : Bool) : State :=
  if !isDevMem s pa || (unit != 1 && unit != 2) then s
  else if !bad then errPush s pa unit 1 ctx
  else errPush (match spillBlock s (canonPa s pa) with | some (k, b) => spillError s k b | none => poisonUnit s pa) pa unit 2 ctx

/-- A unit of an L1 line has an uncorrectable error (R398, R399): a clean copy's bytes are poisoned there; dirty bytes and gathered
updates are lost, and the unit is poisoned at its home, where its next reader finds it. (DESIGN CHOICE, log entry 16) -/
def l1Error (s : State) (cache line u : Nat) : State :=
  match getLine s cache line with
  | none => s
  | some ⟨st, c, f⟩ =>
    let at_ := line * 128 + 64 * (u % 2)
    let put := fun (s : State) st => putLine s cache line ⟨st, c, f⟩
    let s1 := match st with
      | .clean d le ws pz => put s (.clean d le ws (if pz.contains (u % 2) then pz else pz ++ [u % 2]))
      | .dirty by_ sc => put (poisonUnit s at_) (.dirty (by_.filter (fun e => unitOf e.1 != unitOf at_)) sc)
      | .upd code size el => put (poisonUnit s at_) (.upd code size (el.filter (fun e => e.1 / 64 != u % 2)))
    errPush s1 0 (match st with | .upd .. => 8 | _ => 4) 2 c

/-- A unit of a ticket's line buffer has an uncorrectable error (R398, R399). (DESIGN CHOICE, log entry 16) -/
def ticketError (s : State) (slice idx u : Nat) : State :=
  let e := ticketAt s slice idx
  if e.st == .free || (tget e.lines (u / 2)).isNone then s
  else errPush (putTicket s slice idx { e with pois := if e.pois.contains u then e.pois else e.pois ++ [u] }) (e.pa + 64 * u) 3 2 e.ctx

/-- The monitor entry of a waiting slot has an uncorrectable error: its WAITC traps, as one that reads a poisoned unit does (R398,
R399). (DESIGN CHOICE, log entry 16) -/
def monError (s : State) (wid : Nat) (slotB : Bool) : State :=
  match tget s.waves wid with
  | none => s
  | some w => match monOf w slotB with
    | none => s
    | some m =>
      if m.mode != 0 || waitHeld w then s
      else errPush (parkTrap s wid slotB { cause := 0x14, sub := 1, addr := m.va, orig := (blockOf s w).map (fun b => originOf b w (wordAddr (slotOf w slotB))) })
        0 8 2 w.ctx

/-- A parity error has the word fetched, or the page walked, again (R398). -/
def icacheParity (s : State) (core pa : Nat) : State := { s with icache := tset [] s.icache core (tdel (tgetD s.icache core []) pa) }
def tlbParity (s : State) (core va : Nat) : State :=
  let rest := fun (l : List TlbEnt) => l.filter (fun t => !(decide (t.va ≤ va) && decide (va < t.va + 2 ^ t.leaf.lg)))
  modRope (modCore s core (fun c => { c with tlb := rest c.tlb })) (ropeOfCore core) (fun r => { r with tlb := rest r.tlb })

/-- PATROL_SCRUB (R398, R400): the scrubber reads a unit; an error that it finds is recorded, and corrected or marked. (DESIGN CHOICE,
log entry 16) -/
def execPatrolScrub (pa sev : Nat) (s : State) : Out :=
  if sev == 0 || sev > 2 || !isDevMem s pa then .next s else .next (memError s pa 1 0x7F (sev == 2))

/-- A symbol of a wave has an uncorrectable error. (DESIGN CHOICE, log entry 16; log entry 45) -/
def symError (s : State) (wid : Nat) (scalar : Bool) (num : Nat) : State :=
  match tget s.waves wid with
  | none => s
  | some w => errPush (markSym s wid (if scalar then .s else .v) num) 0 6 2 w.ctx

/-- A byte of a buffer has an uncorrectable error. (DESIGN CHOICE, log entry 16) -/
def bufError (s : State) (blk buf off : Nat) : State :=
  match tget s.blocks blk with
  | none => s
  | some b => errPush (modBlock s blk (fun b => { b with bufPois := b.bufPois ++ [⟨bufAt b.var.info buf + off, 2, {}, off⟩] })) 0 5 2 b.ctx

/-- A quad of a block has an uncorrectable error. (DESIGN CHOICE, log entry 16) -/
def quadError (s : State) (blk num : Nat) : State :=
  match tget s.blocks blk with
  | none => s
  | some b => errPush (modBlock s blk (fun b => { b with qpois := num :: b.qpois })) 0 7 2 b.ctx

end Sys2Proof.Machine
end

