-- ==== Sys2Proof/Machine/Dispatch.lean ====
section
/-! DEFINITION. One arm for every instruction of the opcode table: a call of its meaning. -/

namespace Sys2Proof.Machine

/-- The meaning of every instruction. -/
def exec (i : Instr) (s : State) : Host.Outcome State Fault Refusal :=
  match i with
  | .unimplementedOpcode cls w1 w2 => Sys2Proof.Machine.execUnimplementedOpcode cls w1 w2 s
  | .clauseIssue => Sys2Proof.Machine.execClauseIssue s
  | .handlerStart core => Sys2Proof.Machine.execHandlerStart core s
  | .loadResult op => Sys2Proof.Machine.execLoadResult op s
  | .atomHomeUpdate op => Sys2Proof.Machine.execAtomHomeUpdate op s
  | .homeWritePerform hw => Sys2Proof.Machine.execHomeWritePerform hw s
  | .waitcRepoll wid => Sys2Proof.Machine.execWaitcRepoll wid s
  | .externalWaitTimeout wid => Sys2Proof.Machine.execExternalWaitTimeout wid s
  | .writeCompletionTime op => Sys2Proof.Machine.execWriteCompletionTime op s
  | .l1LeaseExpiry cache line => Sys2Proof.Machine.execL1LeaseExpiry cache line s
  | .l1Eviction cache line => Sys2Proof.Machine.execL1Eviction cache line s
  | .translationWalkComplete walk => Sys2Proof.Machine.execTranslationWalkComplete walk s
  | .specialFunctionResult op => Sys2Proof.Machine.execSpecialFunctionResult op s
  | .ldtLineRead slice idx line => Sys2Proof.Machine.execLdtLineRead slice idx line s
  | .ldtTicketWritten op idx => Sys2Proof.Machine.execLdtTicketWritten op idx s
  | .ticketFetchComplete slice idx => Sys2Proof.Machine.execTicketFetchComplete slice idx s
  | .ticketStateReturn op => Sys2Proof.Machine.execTicketStateReturn op s
  | .ticketLeaseEnd slice idx => Sys2Proof.Machine.execTicketLeaseEnd slice idx s
  | .matrixGrant op => Sys2Proof.Machine.execMatrixGrant op s
  | .matrixWordComplete op => Sys2Proof.Machine.execMatrixWordComplete op s
  | .mtilePitchComplete op => Sys2Proof.Machine.execMtilePitchComplete op s
  | .gangLatchTimeout rope entry => Sys2Proof.Machine.execGangLatchTimeout rope entry s
  | .accFirstUseTrap op quad => Sys2Proof.Machine.execAccFirstUseTrap op quad s
  | .copyStart blk k entry => Sys2Proof.Machine.execCopyStart blk k entry s
  | .copyComplete blk k => Sys2Proof.Machine.execCopyComplete blk k s
  | .mbsendEnqueue op => Sys2Proof.Machine.execMbsendEnqueue op s
  | .observationDelivery mbox => Sys2Proof.Machine.execObservationDelivery mbox s
  | .hostsigEnqueue op => Sys2Proof.Machine.execHostsigEnqueue op s
  | .waveRetire wid => Sys2Proof.Machine.execWaveRetire wid s
  | .interruptSend irq => Sys2Proof.Machine.execInterruptSend irq s
  | .shareRecompute core => Sys2Proof.Machine.execShareRecompute core s
  | .rebindMove blk => Sys2Proof.Machine.execRebindMove blk s
  | .blockSwapOut blk => Sys2Proof.Machine.execBlockSwapOut blk s
  | .blockSwapIn blk core => Sys2Proof.Machine.execBlockSwapIn blk core s
  | .ropeGroupPlacement lid rope cores => Sys2Proof.Machine.execRopeGroupPlacement lid rope cores s
  | .activeSetSwap core out inn => Sys2Proof.Machine.execActiveSetSwap core out inn s
  | .timeSliceExpiry grp => Sys2Proof.Machine.execTimeSliceExpiry grp s
  | .blockPreempt blk => Sys2Proof.Machine.execBlockPreempt blk s
  | .deadlockWatchdogFire ctx => Sys2Proof.Machine.execDeadlockWatchdogFire ctx s
  | .pageRequestRetry fn ctx tag => Sys2Proof.Machine.execPageRequestRetry fn ctx tag s
  | .pageRequestFail fn ctx tag => Sys2Proof.Machine.execPageRequestFail fn ctx tag s
  | .pageRequestTimeout ctx tag => Sys2Proof.Machine.execPageRequestTimeout ctx tag s
  | .stop fn core => Sys2Proof.Machine.execStop fn core s
  | .debugStopEffect core => Sys2Proof.Machine.execDebugStopEffect core s
  | .debugDumpWritten core => Sys2Proof.Machine.execDebugDumpWritten core s
  | .resume fn core => Sys2Proof.Machine.execResume fn core s
  | .step fn core => Sys2Proof.Machine.execStep fn core s
  | .ddataRead fn core => Sys2Proof.Machine.execDdataRead fn core s
  | .ddataWrite fn core v => Sys2Proof.Machine.execDdataWrite fn core v s
  | .debugGrant fn ctx v => Sys2Proof.Machine.execDebugGrant fn ctx v s
  | .debugRevoke fn ctx v => Sys2Proof.Machine.execDebugRevoke fn ctx v s
  | .contextEnable fn ctx v => Sys2Proof.Machine.execContextEnable fn ctx v s
  | .contextTeardown fn ctx v => Sys2Proof.Machine.execContextTeardown fn ctx v s
  | .flr fn ctx v => Sys2Proof.Machine.execFlr fn ctx v s
  | .contextResetComplete ctx => Sys2Proof.Machine.execContextResetComplete ctx s
  | .preempt fn ctx => Sys2Proof.Machine.execPreempt fn ctx s
  | .queueEnable fn ctx q v => Sys2Proof.Machine.execQueueEnable fn ctx q v s
  | .queueDisable fn ctx q v => Sys2Proof.Machine.execQueueDisable fn ctx q v s
  | .qdoor fn ctx q v => Sys2Proof.Machine.execQdoor fn ctx q v s
  | .packetRead ctx q => Sys2Proof.Machine.execPacketRead ctx q s
  | .packetReread ctx q => Sys2Proof.Machine.execPacketReread ctx q s
  | .tlbInvalidationComplete lid => Sys2Proof.Machine.execTlbInvalidationComplete lid s
  | .launchReady lid => Sys2Proof.Machine.execLaunchReady lid s
  | .operatingPointSettled rope => Sys2Proof.Machine.execOperatingPointSettled rope s
  | .thermalSample rope tj => Sys2Proof.Machine.execThermalSample rope tj s
  | .wayGatingInterval slice gate missHigh => Sys2Proof.Machine.execWayGatingInterval slice gate missHigh s
  | .cairnSamplePick core ctx => Sys2Proof.Machine.execCairnSamplePick core ctx s
  | .cairnRecordWrite pick lat level => Sys2Proof.Machine.execCairnRecordWrite pick lat level s
  | .patrolScrub pa sev => Sys2Proof.Machine.execPatrolScrub pa sev s
  | .deviceReset => Sys2Proof.Machine.execDeviceReset s
  | .dreset fn => Sys2Proof.Machine.execDreset fn s
  | .functionLevelReset fn => Sys2Proof.Machine.execFunctionLevelReset fn s
  | .hostMemoryAccess write pa size v => Sys2Proof.Machine.execHostMemoryAccess write pa size v s
  | .peerAccess kind pa size v => Sys2Proof.Machine.execPeerAccess kind pa size v s
  | .domainJoin fn v => Sys2Proof.Machine.execDomainJoin fn v s
  | .domainLeave fn v => Sys2Proof.Machine.execDomainLeave fn v s
  | .peerLoss dev => Sys2Proof.Machine.execPeerLoss dev s
  | .ptpMessage x => Sys2Proof.Machine.execPtpMessage x s
  | .hostadj fn v => Sys2Proof.Machine.execHostadj fn v s
  | .timeSourceSelect fn v => Sys2Proof.Machine.execTimeSourceSelect fn v s
  | .fwgo fn v => Sys2Proof.Machine.execFwgo fn v s
  | .fwcommit fn v => Sys2Proof.Machine.execFwcommit fn v s
  | .ago fn v => Sys2Proof.Machine.execAgo fn v s
  | .cgo fn v => Sys2Proof.Machine.execCgo fn v s
  | .attestationComplete => Sys2Proof.Machine.execAttestationComplete s
  | .rload fn v => Sys2Proof.Machine.execRload fn v s
  | .announcementReceive msg bset => Sys2Proof.Machine.execAnnouncementReceive msg bset s
  | .bindingSetAnnounce image => Sys2Proof.Machine.execBindingSetAnnounce image s
  | .start fn ep v => Sys2Proof.Machine.execStart fn ep v s
  | .reset fn ep v => Sys2Proof.Machine.execReset fn ep v s
  | .windowWrite fn ep word v => Sys2Proof.Machine.execWindowWrite fn ep word v s
  | .apop ep => Sys2Proof.Machine.execApop ep s
  | .osend ep => Sys2Proof.Machine.execOsend ep s
  | .tkval ep v => Sys2Proof.Machine.execTkval ep v s
  | .portRedeemComplete ep => Sys2Proof.Machine.execPortRedeemComplete ep s
  | .episodeWatchdogFire ep => Sys2Proof.Machine.execEpisodeWatchdogFire ep s
  | .timeoutObservationEnqueue ep => Sys2Proof.Machine.execTimeoutObservationEnqueue ep s
  | .hartInstruction ep => Sys2Proof.Machine.execHartInstruction ep s
  | .registerWrite fn addr size v => Sys2Proof.Machine.execRegisterWrite fn addr size v s
  | .powerOn => Sys2Proof.Machine.execPowerOn s
  | .bootRomVerification op => Sys2Proof.Machine.execBootRomVerification op s
  | .fabricPortTrained port => Sys2Proof.Machine.execFabricPortTrained port s
  | .fabricPortFails port => Sys2Proof.Machine.execFabricPortFails port s
  | .nop w => Sys2Proof.Machine.execNop w s
  | .sadd w => Sys2Proof.Machine.execSadd w s
  | .saddLong w m => Sys2Proof.Machine.execSaddLong w m s
  | .saddi w => Sys2Proof.Machine.execSaddi w s
  | .saddiLong w x => Sys2Proof.Machine.execSaddiLong w x s
  | .ssub w => Sys2Proof.Machine.execSsub w s
  | .ssubLong w m => Sys2Proof.Machine.execSsubLong w m s
  | .smul w => Sys2Proof.Machine.execSmul w s
  | .smulLong w m => Sys2Proof.Machine.execSmulLong w m s
  | .smulhi w => Sys2Proof.Machine.execSmulhi w s
  | .smulhiLong w m => Sys2Proof.Machine.execSmulhiLong w m s
  | .sdiv w => Sys2Proof.Machine.execSdiv w s
  | .sdivLong w m => Sys2Proof.Machine.execSdivLong w m s
  | .srem w => Sys2Proof.Machine.execSrem w s
  | .sremLong w m => Sys2Proof.Machine.execSremLong w m s
  | .sand w => Sys2Proof.Machine.execSand w s
  | .sandLong w m => Sys2Proof.Machine.execSandLong w m s
  | .sandi w => Sys2Proof.Machine.execSandi w s
  | .sandiLong w x => Sys2Proof.Machine.execSandiLong w x s
  | .sor w => Sys2Proof.Machine.execSor w s
  | .sorLong w m => Sys2Proof.Machine.execSorLong w m s
  | .sori w => Sys2Proof.Machine.execSori w s
  | .soriLong w x => Sys2Proof.Machine.execSoriLong w x s
  | .sxor w => Sys2Proof.Machine.execSxor w s
  | .sxorLong w m => Sys2Proof.Machine.execSxorLong w m s
  | .sxori w => Sys2Proof.Machine.execSxori w s
  | .sxoriLong w x => Sys2Proof.Machine.execSxoriLong w x s
  | .sshl w => Sys2Proof.Machine.execSshl w s
  | .sshlLong w m => Sys2Proof.Machine.execSshlLong w m s
  | .sshli w => Sys2Proof.Machine.execSshli w s
  | .sshliLong w x => Sys2Proof.Machine.execSshliLong w x s
  | .sshr w => Sys2Proof.Machine.execSshr w s
  | .sshrLong w m => Sys2Proof.Machine.execSshrLong w m s
  | .sshri w => Sys2Proof.Machine.execSshri w s
  | .sshriLong w x => Sys2Proof.Machine.execSshriLong w x s
  | .ssra w => Sys2Proof.Machine.execSsra w s
  | .ssraLong w m => Sys2Proof.Machine.execSsraLong w m s
  | .ssrai w => Sys2Proof.Machine.execSsrai w s
  | .ssraiLong w x => Sys2Proof.Machine.execSsraiLong w x s
  | .smin w => Sys2Proof.Machine.execSmin w s
  | .sminLong w m => Sys2Proof.Machine.execSminLong w m s
  | .smax w => Sys2Proof.Machine.execSmax w s
  | .smaxLong w m => Sys2Proof.Machine.execSmaxLong w m s
  | .scmp w => Sys2Proof.Machine.execScmp w s
  | .scmpLong w m => Sys2Proof.Machine.execScmpLong w m s
  | .scmpi w => Sys2Proof.Machine.execScmpi w s
  | .scmpiLong w x => Sys2Proof.Machine.execScmpiLong w x s
  | .ssel w => Sys2Proof.Machine.execSsel w s
  | .sselLong w m => Sys2Proof.Machine.execSselLong w m s
  | .smov w => Sys2Proof.Machine.execSmov w s
  | .smovi w => Sys2Proof.Machine.execSmovi w s
  | .smoviLong w x => Sys2Proof.Machine.execSmoviLong w x s
  | .sluiShort w => Sys2Proof.Machine.execSluiShort w s
  | .slui w x => Sys2Proof.Machine.execSlui w x s
  | .sclz w => Sys2Proof.Machine.execSclz w s
  | .sclzLong w m => Sys2Proof.Machine.execSclzLong w m s
  | .spopc w => Sys2Proof.Machine.execSpopc w s
  | .spopcLong w m => Sys2Proof.Machine.execSpopcLong w m s
  | .sbfe w => Sys2Proof.Machine.execSbfe w s
  | .sbfeLong w m => Sys2Proof.Machine.execSbfeLong w m s
  | .sbfi w => Sys2Proof.Machine.execSbfi w s
  | .sbfiLong w m => Sys2Proof.Machine.execSbfiLong w m s
  | .sarg w => Sys2Proof.Machine.execSarg w s
  | .sargSx w x => Sys2Proof.Machine.execSargSx w x s
  | .br w => Sys2Proof.Machine.execBr w s
  | .brLong w x => Sys2Proof.Machine.execBrLong w x s
  | .jmp w => Sys2Proof.Machine.execJmp w s
  | .jmpLong w x => Sys2Proof.Machine.execJmpLong w x s
  | .call w => Sys2Proof.Machine.execCall w s
  | .callLong w x => Sys2Proof.Machine.execCallLong w x s
  | .ret w => Sys2Proof.Machine.execRet w s
  | .ifW w => Sys2Proof.Machine.execIfW w s
  | .elseW w => Sys2Proof.Machine.execElseW w s
  | .endif w => Sys2Proof.Machine.execEndif w s
  | .loopW w => Sys2Proof.Machine.execLoopW w s
  | .loopImm w x => Sys2Proof.Machine.execLoopImm w x s
  | .breakW w => Sys2Proof.Machine.execBreakW w s
  | .contW w => Sys2Proof.Machine.execContW w s
  | .endloop w => Sys2Proof.Machine.execEndloop w s
  | .yield w => Sys2Proof.Machine.execYield w s
  | .waitcnt w => Sys2Proof.Machine.execWaitcnt w s
  | .endW w => Sys2Proof.Machine.execEndW w s
  | .win w => Sys2Proof.Machine.execWin w s
  | .modeW w => Sys2Proof.Machine.execModeW w s
  | .modeFields w x => Sys2Proof.Machine.execModeFields w x s
  | .barArr w => Sys2Proof.Machine.execBarArr w s
  | .barWait w => Sys2Proof.Machine.execBarWait w s
  | .barSync w => Sys2Proof.Machine.execBarSync w s
  | .barDrop w => Sys2Proof.Machine.execBarDrop w s
  | .pand w => Sys2Proof.Machine.execPand w s
  | .por w => Sys2Proof.Machine.execPor w s
  | .pxor w => Sys2Proof.Machine.execPxor w s
  | .pnot w => Sys2Proof.Machine.execPnot w s
  | .pmov w => Sys2Proof.Machine.execPmov w s
  | .ptos w => Sys2Proof.Machine.execPtos w s
  | .pfroms w => Sys2Proof.Machine.execPfroms w s
  | .vadd w => Sys2Proof.Machine.execVadd w s
  | .vaddLong w m => Sys2Proof.Machine.execVaddLong w m s
  | .vaddi w => Sys2Proof.Machine.execVaddi w s
  | .vaddiLong w x => Sys2Proof.Machine.execVaddiLong w x s
  | .vsub w => Sys2Proof.Machine.execVsub w s
  | .vsubLong w m => Sys2Proof.Machine.execVsubLong w m s
  | .vmul w => Sys2Proof.Machine.execVmul w s
  | .vmulLong w m => Sys2Proof.Machine.execVmulLong w m s
  | .vmulhi w => Sys2Proof.Machine.execVmulhi w s
  | .vmulhiLong w m => Sys2Proof.Machine.execVmulhiLong w m s
  | .vmad w m => Sys2Proof.Machine.execVmad w m s
  | .vand w => Sys2Proof.Machine.execVand w s
  | .vandLong w m => Sys2Proof.Machine.execVandLong w m s
  | .vor w => Sys2Proof.Machine.execVor w s
  | .vorLong w m => Sys2Proof.Machine.execVorLong w m s
  | .vxor w => Sys2Proof.Machine.execVxor w s
  | .vxorLong w m => Sys2Proof.Machine.execVxorLong w m s
  | .vnot w => Sys2Proof.Machine.execVnot w s
  | .vnotLong w m => Sys2Proof.Machine.execVnotLong w m s
  | .vshl w => Sys2Proof.Machine.execVshl w s
  | .vshlLong w m => Sys2Proof.Machine.execVshlLong w m s
  | .vshr w => Sys2Proof.Machine.execVshr w s
  | .vshrLong w m => Sys2Proof.Machine.execVshrLong w m s
  | .vsra w => Sys2Proof.Machine.execVsra w s
  | .vsraLong w m => Sys2Proof.Machine.execVsraLong w m s
  | .vmin w => Sys2Proof.Machine.execVmin w s
  | .vminLong w m => Sys2Proof.Machine.execVminLong w m s
  | .vmax w => Sys2Proof.Machine.execVmax w s
  | .vmaxLong w m => Sys2Proof.Machine.execVmaxLong w m s
  | .vabs w => Sys2Proof.Machine.execVabs w s
  | .vabsLong w m => Sys2Proof.Machine.execVabsLong w m s
  | .vneg w => Sys2Proof.Machine.execVneg w s
  | .vnegLong w m => Sys2Proof.Machine.execVnegLong w m s
  | .vclz w => Sys2Proof.Machine.execVclz w s
  | .vclzLong w m => Sys2Proof.Machine.execVclzLong w m s
  | .vpopc w => Sys2Proof.Machine.execVpopc w s
  | .vpopcLong w m => Sys2Proof.Machine.execVpopcLong w m s
  | .vbfe w => Sys2Proof.Machine.execVbfe w s
  | .vbfeLong w m => Sys2Proof.Machine.execVbfeLong w m s
  | .vbfi w => Sys2Proof.Machine.execVbfi w s
  | .vbfiLong w m => Sys2Proof.Machine.execVbfiLong w m s
  | .vsel w => Sys2Proof.Machine.execVsel w s
  | .vselLong w m => Sys2Proof.Machine.execVselLong w m s
  | .vmov w => Sys2Proof.Machine.execVmov w s
  | .vmovLong w m => Sys2Proof.Machine.execVmovLong w m s
  | .vmovi w => Sys2Proof.Machine.execVmovi w s
  | .vmoviLong w x => Sys2Proof.Machine.execVmoviLong w x s
  | .vbcast w => Sys2Proof.Machine.execVbcast w s
  | .vbcastLong w m => Sys2Proof.Machine.execVbcastLong w m s
  | .vlane w => Sys2Proof.Machine.execVlane w s
  | .vlaneLong w m => Sys2Proof.Machine.execVlaneLong w m s
  | .vdot4 w m => Sys2Proof.Machine.execVdot4 w m s
  | .vcmp w => Sys2Proof.Machine.execVcmp w s
  | .vcmpLong w m => Sys2Proof.Machine.execVcmpLong w m s
  | .vfadd w => Sys2Proof.Machine.execVfadd w s
  | .vfaddLong w m => Sys2Proof.Machine.execVfaddLong w m s
  | .vfsub w => Sys2Proof.Machine.execVfsub w s
  | .vfsubLong w m => Sys2Proof.Machine.execVfsubLong w m s
  | .vfmul w => Sys2Proof.Machine.execVfmul w s
  | .vfmulLong w m => Sys2Proof.Machine.execVfmulLong w m s
  | .vfma w m => Sys2Proof.Machine.execVfma w m s
  | .vfmin w => Sys2Proof.Machine.execVfmin w s
  | .vfminLong w m => Sys2Proof.Machine.execVfminLong w m s
  | .vfmax w => Sys2Proof.Machine.execVfmax w s
  | .vfmaxLong w m => Sys2Proof.Machine.execVfmaxLong w m s
  | .vfabs w => Sys2Proof.Machine.execVfabs w s
  | .vfabsLong w m => Sys2Proof.Machine.execVfabsLong w m s
  | .vfneg w => Sys2Proof.Machine.execVfneg w s
  | .vfnegLong w m => Sys2Proof.Machine.execVfnegLong w m s
  | .vfcmp w => Sys2Proof.Machine.execVfcmp w s
  | .vfcmpLong w m => Sys2Proof.Machine.execVfcmpLong w m s
  | .vfclass w => Sys2Proof.Machine.execVfclass w s
  | .vfclassLong w m => Sys2Proof.Machine.execVfclassLong w m s
  | .vcvt w m => Sys2Proof.Machine.execVcvt w m s
  | .vfrnd w => Sys2Proof.Machine.execVfrnd w s
  | .vfrndLong w m => Sys2Proof.Machine.execVfrndLong w m s
  | .vfdot2 w m => Sys2Proof.Machine.execVfdot2 w m s
  | .vshfl w => Sys2Proof.Machine.execVshfl w s
  | .vshflLong w m => Sys2Proof.Machine.execVshflLong w m s
  | .vshflx w => Sys2Proof.Machine.execVshflx w s
  | .vshflxLong w m => Sys2Proof.Machine.execVshflxLong w m s
  | .vshflup w => Sys2Proof.Machine.execVshflup w s
  | .vshflupLong w m => Sys2Proof.Machine.execVshflupLong w m s
  | .vshfldn w => Sys2Proof.Machine.execVshfldn w s
  | .vshfldnLong w m => Sys2Proof.Machine.execVshfldnLong w m s
  | .vvote w => Sys2Proof.Machine.execVvote w s
  | .vvoteLong w m => Sys2Proof.Machine.execVvoteLong w m s
  | .vredadd w => Sys2Proof.Machine.execVredadd w s
  | .vredaddLong w m => Sys2Proof.Machine.execVredaddLong w m s
  | .vredmin w => Sys2Proof.Machine.execVredmin w s
  | .vredminLong w m => Sys2Proof.Machine.execVredminLong w m s
  | .vredmax w => Sys2Proof.Machine.execVredmax w s
  | .vredmaxLong w m => Sys2Proof.Machine.execVredmaxLong w m s
  | .vscan w => Sys2Proof.Machine.execVscan w s
  | .vscanLong w m => Sys2Proof.Machine.execVscanLong w m s
  | .vmatch w => Sys2Proof.Machine.execVmatch w s
  | .vmatchLong w m => Sys2Proof.Machine.execVmatchLong w m s
  | .vtopk w m => Sys2Proof.Machine.execVtopk w m s
  | .vex2 w => Sys2Proof.Machine.execVex2 w s
  | .vex2Long w m => Sys2Proof.Machine.execVex2Long w m s
  | .vlg2 w => Sys2Proof.Machine.execVlg2 w s
  | .vlg2Long w m => Sys2Proof.Machine.execVlg2Long w m s
  | .vrcp w => Sys2Proof.Machine.execVrcp w s
  | .vrcpLong w m => Sys2Proof.Machine.execVrcpLong w m s
  | .vrsq w => Sys2Proof.Machine.execVrsq w s
  | .vrsqLong w m => Sys2Proof.Machine.execVrsqLong w m s
  | .vsqrt w => Sys2Proof.Machine.execVsqrt w s
  | .vsqrtLong w m => Sys2Proof.Machine.execVsqrtLong w m s
  | .vsin w => Sys2Proof.Machine.execVsin w s
  | .vsinLong w m => Sys2Proof.Machine.execVsinLong w m s
  | .vcos w => Sys2Proof.Machine.execVcos w s
  | .vcosLong w m => Sys2Proof.Machine.execVcosLong w m s
  | .vtanh w => Sys2Proof.Machine.execVtanh w s
  | .vtanhLong w m => Sys2Proof.Machine.execVtanhLong w m s
  | .ld w => Sys2Proof.Machine.execLd w s
  | .ldLong w m => Sys2Proof.Machine.execLdLong w m s
  | .st w => Sys2Proof.Machine.execSt w s
  | .stLong w m => Sys2Proof.Machine.execStLong w m s
  | .lds w => Sys2Proof.Machine.execLds w s
  | .ldsLong w m => Sys2Proof.Machine.execLdsLong w m s
  | .sts w => Sys2Proof.Machine.execSts w s
  | .stsLong w m => Sys2Proof.Machine.execStsLong w m s
  | .ldt w => Sys2Proof.Machine.execLdt w s
  | .ldtLong w m => Sys2Proof.Machine.execLdtLong w m s
  | .rdmV w => Sys2Proof.Machine.execRdmV w s
  | .rdmVLong w m => Sys2Proof.Machine.execRdmVLong w m s
  | .rdmS w => Sys2Proof.Machine.execRdmS w s
  | .rdmSLong w m => Sys2Proof.Machine.execRdmSLong w m s
  | .tkrel w => Sys2Proof.Machine.execTkrel w s
  | .tkq w => Sys2Proof.Machine.execTkq w s
  | .atom w m => Sys2Proof.Machine.execAtom w m s
  | .red w m => Sys2Proof.Machine.execRed w m s
  | .waitc w m => Sys2Proof.Machine.execWaitc w m s
  | .fence w => Sys2Proof.Machine.execFence w s
  | .fenceLong w m => Sys2Proof.Machine.execFenceLong w m s
  | .fenceI w => Sys2Proof.Machine.execFenceI w s
  | .pref w => Sys2Proof.Machine.execPref w s
  | .prefLong w m => Sys2Proof.Machine.execPrefLong w m s
  | .cwb w => Sys2Proof.Machine.execCwb w s
  | .cwbLong w m => Sys2Proof.Machine.execCwbLong w m s
  | .tidef w m => Sys2Proof.Machine.execTidef w m s
  | .tsweep w m => Sys2Proof.Machine.execTsweep w m s
  | .twalk w m => Sys2Proof.Machine.execTwalk w m s
  | .gang w => Sys2Proof.Machine.execGang w s
  | .gangLong w m => Sys2Proof.Machine.execGangLong w m s
  | .mm w => Sys2Proof.Machine.execMm w s
  | .mmLong w m => Sys2Proof.Machine.execMmLong w m s
  | .mmg w => Sys2Proof.Machine.execMmg w s
  | .mmgLong w m => Sys2Proof.Machine.execMmgLong w m s
  | .mmb w => Sys2Proof.Machine.execMmb w s
  | .mmbLong w m => Sys2Proof.Machine.execMmbLong w m s
  | .mtile w => Sys2Proof.Machine.execMtile w s
  | .mtileLong w m => Sys2Proof.Machine.execMtileLong w m s
  | .mscl w => Sys2Proof.Machine.execMscl w s
  | .msclLong w m => Sys2Proof.Machine.execMsclLong w m s
  | .aclr w => Sys2Proof.Machine.execAclr w s
  | .aclrLong w m => Sys2Proof.Machine.execAclrLong w m s
  | .amov w => Sys2Proof.Machine.execAmov w s
  | .amovLong w m => Sys2Proof.Machine.execAmovLong w m s
  | .afill w => Sys2Proof.Machine.execAfill w s
  | .afillLong w m => Sys2Proof.Machine.execAfillLong w m s
  | .ald w => Sys2Proof.Machine.execAld w s
  | .aldLong w m => Sys2Proof.Machine.execAldLong w m s
  | .ast w => Sys2Proof.Machine.execAst w s
  | .astLong w m => Sys2Proof.Machine.execAstLong w m s
  | .cpy w => Sys2Proof.Machine.execCpy w s
  | .cpyLong w m => Sys2Proof.Machine.execCpyLong w m s
  | .cpym w => Sys2Proof.Machine.execCpym w s
  | .cpymLong w m => Sys2Proof.Machine.execCpymLong w m s
  | .cpyw w => Sys2Proof.Machine.execCpyw w s
  | .cpywLong w m => Sys2Proof.Machine.execCpywLong w m s
  | .mbsend w => Sys2Proof.Machine.execMbsend w s
  | .mbsendLong w m => Sys2Proof.Machine.execMbsendLong w m s
  | .mbrecv w => Sys2Proof.Machine.execMbrecv w s
  | .mbrecvLong w m => Sys2Proof.Machine.execMbrecvLong w m s
  | .mbpoll w => Sys2Proof.Machine.execMbpoll w s
  | .mbpollLong w m => Sys2Proof.Machine.execMbpollLong w m s
  | .mbver w => Sys2Proof.Machine.execMbver w s
  | .mbverSet w m => Sys2Proof.Machine.execMbverSet w m s
  | .trap w => Sys2Proof.Machine.execTrap w s
  | .bkpt w => Sys2Proof.Machine.execBkpt w s
  | .trec w => Sys2Proof.Machine.execTrec w s
  | .trecLong w m => Sys2Proof.Machine.execTrecLong w m s
  | .xget w => Sys2Proof.Machine.execXget w s
  | .xgetLong w m => Sys2Proof.Machine.execXgetLong w m s
  | .xset w => Sys2Proof.Machine.execXset w s
  | .xsetLong w m => Sys2Proof.Machine.execXsetLong w m s
  | .eresumeRetry w => Sys2Proof.Machine.execEresumeRetry w s
  | .eresumeSkip w => Sys2Proof.Machine.execEresumeSkip w s
  | .eresumeJmp w => Sys2Proof.Machine.execEresumeJmp w s
  | .eresumeRel w x => Sys2Proof.Machine.execEresumeRel w x s
  | .getsr w => Sys2Proof.Machine.execGetsr w s
  | .setsr w => Sys2Proof.Machine.execSetsr w s
  | .time w => Sys2Proof.Machine.execTime w s
  | .sample w => Sys2Proof.Machine.execSample w s
  | .sampleMark w m => Sys2Proof.Machine.execSampleMark w m s
  | .hostsig w => Sys2Proof.Machine.execHostsig w s
  | .hostsigLong w x => Sys2Proof.Machine.execHostsigLong w x s

end Sys2Proof.Machine
end

