-- ==== Sys2Proof/Machine/Run.lean ====
section
/-! DEFINITION. From the words a slot offers to their meaning: exec of the decoded instruction, and the same choice made
by class and opcode, which is what compiled code runs. -/

namespace Sys2Proof.Machine

/-- The meaning of the words of class 0, chosen by the opcode (R67, R68). -/
def runClass0 (w1 w2 : W32) (s : State) : Out :=
  match (opOf w1).toNat with
  | 0 => Sys2Proof.Machine.execNop (cwOf w1) s
  | 2 => Sys2Proof.Machine.execSadd (cwOf w1) s
  | 3 => Sys2Proof.Machine.execSaddLong (cwOf w1) (modOf w2) s
  | 4 => Sys2Proof.Machine.execSaddi (iwOf w1) s
  | 5 => Sys2Proof.Machine.execSaddiLong (cwOf w1) (xwOf w2) s
  | 6 => Sys2Proof.Machine.execSsub (cwOf w1) s
  | 7 => Sys2Proof.Machine.execSsubLong (cwOf w1) (modOf w2) s
  | 8 => Sys2Proof.Machine.execSmul (cwOf w1) s
  | 9 => Sys2Proof.Machine.execSmulLong (cwOf w1) (modOf w2) s
  | 10 => Sys2Proof.Machine.execSmulhi (cwOf w1) s
  | 11 => Sys2Proof.Machine.execSmulhiLong (cwOf w1) (modOf w2) s
  | 12 => Sys2Proof.Machine.execSdiv (cwOf w1) s
  | 13 => Sys2Proof.Machine.execSdivLong (cwOf w1) (modOf w2) s
  | 14 => Sys2Proof.Machine.execSrem (cwOf w1) s
  | 15 => Sys2Proof.Machine.execSremLong (cwOf w1) (modOf w2) s
  | 16 => Sys2Proof.Machine.execSand (cwOf w1) s
  | 17 => Sys2Proof.Machine.execSandLong (cwOf w1) (modOf w2) s
  | 18 => Sys2Proof.Machine.execSandi (iwOf w1) s
  | 19 => Sys2Proof.Machine.execSandiLong (cwOf w1) (xwOf w2) s
  | 20 => Sys2Proof.Machine.execSor (cwOf w1) s
  | 21 => Sys2Proof.Machine.execSorLong (cwOf w1) (modOf w2) s
  | 22 => Sys2Proof.Machine.execSori (iwOf w1) s
  | 23 => Sys2Proof.Machine.execSoriLong (cwOf w1) (xwOf w2) s
  | 24 => Sys2Proof.Machine.execSxor (cwOf w1) s
  | 25 => Sys2Proof.Machine.execSxorLong (cwOf w1) (modOf w2) s
  | 26 => Sys2Proof.Machine.execSxori (iwOf w1) s
  | 27 => Sys2Proof.Machine.execSxoriLong (cwOf w1) (xwOf w2) s
  | 28 => Sys2Proof.Machine.execSshl (cwOf w1) s
  | 29 => Sys2Proof.Machine.execSshlLong (cwOf w1) (modOf w2) s
  | 30 => Sys2Proof.Machine.execSshli (iwOf w1) s
  | 31 => Sys2Proof.Machine.execSshliLong (cwOf w1) (xwOf w2) s
  | 32 => Sys2Proof.Machine.execSshr (cwOf w1) s
  | 33 => Sys2Proof.Machine.execSshrLong (cwOf w1) (modOf w2) s
  | 34 => Sys2Proof.Machine.execSshri (iwOf w1) s
  | 35 => Sys2Proof.Machine.execSshriLong (cwOf w1) (xwOf w2) s
  | 36 => Sys2Proof.Machine.execSsra (cwOf w1) s
  | 37 => Sys2Proof.Machine.execSsraLong (cwOf w1) (modOf w2) s
  | 38 => Sys2Proof.Machine.execSsrai (iwOf w1) s
  | 39 => Sys2Proof.Machine.execSsraiLong (cwOf w1) (xwOf w2) s
  | 40 => Sys2Proof.Machine.execSmin (cwOf w1) s
  | 41 => Sys2Proof.Machine.execSminLong (cwOf w1) (modOf w2) s
  | 42 => Sys2Proof.Machine.execSmax (cwOf w1) s
  | 43 => Sys2Proof.Machine.execSmaxLong (cwOf w1) (modOf w2) s
  | 44 => Sys2Proof.Machine.execScmp (cwOf w1) s
  | 45 => Sys2Proof.Machine.execScmpLong (cwOf w1) (modOf w2) s
  | 46 => Sys2Proof.Machine.execScmpi (iwOf w1) s
  | 47 => Sys2Proof.Machine.execScmpiLong (cwOf w1) (xwOf w2) s
  | 48 => Sys2Proof.Machine.execSsel (cwOf w1) s
  | 49 => Sys2Proof.Machine.execSselLong (cwOf w1) (modOf w2) s
  | 50 => Sys2Proof.Machine.execSmov (cwOf w1) s
  | 52 => Sys2Proof.Machine.execSmovi (iwOf w1) s
  | 53 => Sys2Proof.Machine.execSmoviLong (cwOf w1) (xwOf w2) s
  | 54 => Sys2Proof.Machine.execSluiShort (iwOf w1) s
  | 55 => Sys2Proof.Machine.execSlui (cwOf w1) (xwOf w2) s
  | 56 => Sys2Proof.Machine.execSclz (cwOf w1) s
  | 57 => Sys2Proof.Machine.execSclzLong (cwOf w1) (modOf w2) s
  | 58 => Sys2Proof.Machine.execSpopc (cwOf w1) s
  | 59 => Sys2Proof.Machine.execSpopcLong (cwOf w1) (modOf w2) s
  | 60 => Sys2Proof.Machine.execSbfe (cwOf w1) s
  | 61 => Sys2Proof.Machine.execSbfeLong (cwOf w1) (modOf w2) s
  | 62 => Sys2Proof.Machine.execSbfi (cwOf w1) s
  | 63 => Sys2Proof.Machine.execSbfiLong (cwOf w1) (modOf w2) s
  | 64 => Sys2Proof.Machine.execSarg (iwOf w1) s
  | 65 => Sys2Proof.Machine.execSargSx (cwOf w1) (xwOf w2) s
  | 66 => Sys2Proof.Machine.execBr (iwOf w1) s
  | 67 => Sys2Proof.Machine.execBrLong (cwOf w1) (xwOf w2) s
  | 68 => Sys2Proof.Machine.execJmp (iwOf w1) s
  | 69 => Sys2Proof.Machine.execJmpLong (cwOf w1) (xwOf w2) s
  | 70 => Sys2Proof.Machine.execCall (iwOf w1) s
  | 71 => Sys2Proof.Machine.execCallLong (cwOf w1) (xwOf w2) s
  | 72 => Sys2Proof.Machine.execRet (cwOf w1) s
  | 74 => Sys2Proof.Machine.execIfW (cwOf w1) s
  | 76 => Sys2Proof.Machine.execElseW (cwOf w1) s
  | 78 => Sys2Proof.Machine.execEndif (cwOf w1) s
  | 80 => Sys2Proof.Machine.execLoopW (cwOf w1) s
  | 81 => Sys2Proof.Machine.execLoopImm (cwOf w1) (xwOf w2) s
  | 82 => Sys2Proof.Machine.execBreakW (cwOf w1) s
  | 84 => Sys2Proof.Machine.execContW (cwOf w1) s
  | 86 => Sys2Proof.Machine.execEndloop (cwOf w1) s
  | 88 => Sys2Proof.Machine.execYield (cwOf w1) s
  | 90 => Sys2Proof.Machine.execWaitcnt (iwOf w1) s
  | 92 => Sys2Proof.Machine.execEndW (cwOf w1) s
  | 94 => Sys2Proof.Machine.execWin (iwOf w1) s
  | 96 => Sys2Proof.Machine.execModeW (cwOf w1) s
  | 97 => Sys2Proof.Machine.execModeFields (cwOf w1) (xwOf w2) s
  | 98 => Sys2Proof.Machine.execBarArr (cwOf w1) s
  | 100 => Sys2Proof.Machine.execBarWait (cwOf w1) s
  | 102 => Sys2Proof.Machine.execBarSync (cwOf w1) s
  | 104 => Sys2Proof.Machine.execBarDrop (cwOf w1) s
  | 106 => Sys2Proof.Machine.execPand (cwOf w1) s
  | 108 => Sys2Proof.Machine.execPor (cwOf w1) s
  | 110 => Sys2Proof.Machine.execPxor (cwOf w1) s
  | 112 => Sys2Proof.Machine.execPnot (cwOf w1) s
  | 114 => Sys2Proof.Machine.execPmov (cwOf w1) s
  | 116 => Sys2Proof.Machine.execPtos (cwOf w1) s
  | 118 => Sys2Proof.Machine.execPfroms (cwOf w1) s
  | _ => execUnimplementedOpcode 0 w1 w2 s

/-- The meaning of the words of class 1, chosen by the opcode (R67, R68). -/
def runClass1 (w1 w2 : W32) (s : State) : Out :=
  match (opOf w1).toNat with
  | 0 => Sys2Proof.Machine.execVadd (cwOf w1) s
  | 1 => Sys2Proof.Machine.execVaddLong (cwOf w1) (modOf w2) s
  | 2 => Sys2Proof.Machine.execVaddi (iwOf w1) s
  | 3 => Sys2Proof.Machine.execVaddiLong (cwOf w1) (xwOf w2) s
  | 4 => Sys2Proof.Machine.execVsub (cwOf w1) s
  | 5 => Sys2Proof.Machine.execVsubLong (cwOf w1) (modOf w2) s
  | 6 => Sys2Proof.Machine.execVmul (cwOf w1) s
  | 7 => Sys2Proof.Machine.execVmulLong (cwOf w1) (modOf w2) s
  | 8 => Sys2Proof.Machine.execVmulhi (cwOf w1) s
  | 9 => Sys2Proof.Machine.execVmulhiLong (cwOf w1) (modOf w2) s
  | 11 => Sys2Proof.Machine.execVmad (cwOf w1) (modOf w2) s
  | 12 => Sys2Proof.Machine.execVand (cwOf w1) s
  | 13 => Sys2Proof.Machine.execVandLong (cwOf w1) (modOf w2) s
  | 14 => Sys2Proof.Machine.execVor (cwOf w1) s
  | 15 => Sys2Proof.Machine.execVorLong (cwOf w1) (modOf w2) s
  | 16 => Sys2Proof.Machine.execVxor (cwOf w1) s
  | 17 => Sys2Proof.Machine.execVxorLong (cwOf w1) (modOf w2) s
  | 18 => Sys2Proof.Machine.execVnot (cwOf w1) s
  | 19 => Sys2Proof.Machine.execVnotLong (cwOf w1) (modOf w2) s
  | 20 => Sys2Proof.Machine.execVshl (cwOf w1) s
  | 21 => Sys2Proof.Machine.execVshlLong (cwOf w1) (modOf w2) s
  | 22 => Sys2Proof.Machine.execVshr (cwOf w1) s
  | 23 => Sys2Proof.Machine.execVshrLong (cwOf w1) (modOf w2) s
  | 24 => Sys2Proof.Machine.execVsra (cwOf w1) s
  | 25 => Sys2Proof.Machine.execVsraLong (cwOf w1) (modOf w2) s
  | 26 => Sys2Proof.Machine.execVmin (cwOf w1) s
  | 27 => Sys2Proof.Machine.execVminLong (cwOf w1) (modOf w2) s
  | 28 => Sys2Proof.Machine.execVmax (cwOf w1) s
  | 29 => Sys2Proof.Machine.execVmaxLong (cwOf w1) (modOf w2) s
  | 30 => Sys2Proof.Machine.execVabs (cwOf w1) s
  | 31 => Sys2Proof.Machine.execVabsLong (cwOf w1) (modOf w2) s
  | 32 => Sys2Proof.Machine.execVneg (cwOf w1) s
  | 33 => Sys2Proof.Machine.execVnegLong (cwOf w1) (modOf w2) s
  | 34 => Sys2Proof.Machine.execVclz (cwOf w1) s
  | 35 => Sys2Proof.Machine.execVclzLong (cwOf w1) (modOf w2) s
  | 36 => Sys2Proof.Machine.execVpopc (cwOf w1) s
  | 37 => Sys2Proof.Machine.execVpopcLong (cwOf w1) (modOf w2) s
  | 38 => Sys2Proof.Machine.execVbfe (cwOf w1) s
  | 39 => Sys2Proof.Machine.execVbfeLong (cwOf w1) (modOf w2) s
  | 40 => Sys2Proof.Machine.execVbfi (cwOf w1) s
  | 41 => Sys2Proof.Machine.execVbfiLong (cwOf w1) (modOf w2) s
  | 42 => Sys2Proof.Machine.execVsel (cwOf w1) s
  | 43 => Sys2Proof.Machine.execVselLong (cwOf w1) (modOf w2) s
  | 44 => Sys2Proof.Machine.execVmov (cwOf w1) s
  | 45 => Sys2Proof.Machine.execVmovLong (cwOf w1) (modOf w2) s
  | 46 => Sys2Proof.Machine.execVmovi (iwOf w1) s
  | 47 => Sys2Proof.Machine.execVmoviLong (cwOf w1) (xwOf w2) s
  | 48 => Sys2Proof.Machine.execVbcast (cwOf w1) s
  | 49 => Sys2Proof.Machine.execVbcastLong (cwOf w1) (modOf w2) s
  | 50 => Sys2Proof.Machine.execVlane (cwOf w1) s
  | 51 => Sys2Proof.Machine.execVlaneLong (cwOf w1) (modOf w2) s
  | 53 => Sys2Proof.Machine.execVdot4 (cwOf w1) (modOf w2) s
  | 54 => Sys2Proof.Machine.execVcmp (cwOf w1) s
  | 55 => Sys2Proof.Machine.execVcmpLong (cwOf w1) (modOf w2) s
  | 56 => Sys2Proof.Machine.execVfadd (cwOf w1) s
  | 57 => Sys2Proof.Machine.execVfaddLong (cwOf w1) (modOf w2) s
  | 58 => Sys2Proof.Machine.execVfsub (cwOf w1) s
  | 59 => Sys2Proof.Machine.execVfsubLong (cwOf w1) (modOf w2) s
  | 60 => Sys2Proof.Machine.execVfmul (cwOf w1) s
  | 61 => Sys2Proof.Machine.execVfmulLong (cwOf w1) (modOf w2) s
  | 63 => Sys2Proof.Machine.execVfma (cwOf w1) (modOf w2) s
  | 64 => Sys2Proof.Machine.execVfmin (cwOf w1) s
  | 65 => Sys2Proof.Machine.execVfminLong (cwOf w1) (modOf w2) s
  | 66 => Sys2Proof.Machine.execVfmax (cwOf w1) s
  | 67 => Sys2Proof.Machine.execVfmaxLong (cwOf w1) (modOf w2) s
  | 68 => Sys2Proof.Machine.execVfabs (cwOf w1) s
  | 69 => Sys2Proof.Machine.execVfabsLong (cwOf w1) (modOf w2) s
  | 70 => Sys2Proof.Machine.execVfneg (cwOf w1) s
  | 71 => Sys2Proof.Machine.execVfnegLong (cwOf w1) (modOf w2) s
  | 72 => Sys2Proof.Machine.execVfcmp (cwOf w1) s
  | 73 => Sys2Proof.Machine.execVfcmpLong (cwOf w1) (modOf w2) s
  | 74 => Sys2Proof.Machine.execVfclass (cwOf w1) s
  | 75 => Sys2Proof.Machine.execVfclassLong (cwOf w1) (modOf w2) s
  | 77 => Sys2Proof.Machine.execVcvt (cwOf w1) (modOf w2) s
  | 78 => Sys2Proof.Machine.execVfrnd (cwOf w1) s
  | 79 => Sys2Proof.Machine.execVfrndLong (cwOf w1) (modOf w2) s
  | 81 => Sys2Proof.Machine.execVfdot2 (cwOf w1) (modOf w2) s
  | 82 => Sys2Proof.Machine.execVshfl (cwOf w1) s
  | 83 => Sys2Proof.Machine.execVshflLong (cwOf w1) (modOf w2) s
  | 84 => Sys2Proof.Machine.execVshflx (cwOf w1) s
  | 85 => Sys2Proof.Machine.execVshflxLong (cwOf w1) (modOf w2) s
  | 86 => Sys2Proof.Machine.execVshflup (cwOf w1) s
  | 87 => Sys2Proof.Machine.execVshflupLong (cwOf w1) (modOf w2) s
  | 88 => Sys2Proof.Machine.execVshfldn (cwOf w1) s
  | 89 => Sys2Proof.Machine.execVshfldnLong (cwOf w1) (modOf w2) s
  | 90 => Sys2Proof.Machine.execVvote (cwOf w1) s
  | 91 => Sys2Proof.Machine.execVvoteLong (cwOf w1) (modOf w2) s
  | 92 => Sys2Proof.Machine.execVredadd (cwOf w1) s
  | 93 => Sys2Proof.Machine.execVredaddLong (cwOf w1) (modOf w2) s
  | 94 => Sys2Proof.Machine.execVredmin (cwOf w1) s
  | 95 => Sys2Proof.Machine.execVredminLong (cwOf w1) (modOf w2) s
  | 96 => Sys2Proof.Machine.execVredmax (cwOf w1) s
  | 97 => Sys2Proof.Machine.execVredmaxLong (cwOf w1) (modOf w2) s
  | 98 => Sys2Proof.Machine.execVscan (cwOf w1) s
  | 99 => Sys2Proof.Machine.execVscanLong (cwOf w1) (modOf w2) s
  | 100 => Sys2Proof.Machine.execVmatch (cwOf w1) s
  | 101 => Sys2Proof.Machine.execVmatchLong (cwOf w1) (modOf w2) s
  | 103 => Sys2Proof.Machine.execVtopk (cwOf w1) (modOf w2) s
  | _ => execUnimplementedOpcode 1 w1 w2 s

/-- The meaning of the words of class 2, chosen by the opcode (R67, R68). -/
def runClass2 (w1 w2 : W32) (s : State) : Out :=
  match (opOf w1).toNat with
  | 0 => Sys2Proof.Machine.execVex2 (cwOf w1) s
  | 1 => Sys2Proof.Machine.execVex2Long (cwOf w1) (modOf w2) s
  | 2 => Sys2Proof.Machine.execVlg2 (cwOf w1) s
  | 3 => Sys2Proof.Machine.execVlg2Long (cwOf w1) (modOf w2) s
  | 4 => Sys2Proof.Machine.execVrcp (cwOf w1) s
  | 5 => Sys2Proof.Machine.execVrcpLong (cwOf w1) (modOf w2) s
  | 6 => Sys2Proof.Machine.execVrsq (cwOf w1) s
  | 7 => Sys2Proof.Machine.execVrsqLong (cwOf w1) (modOf w2) s
  | 8 => Sys2Proof.Machine.execVsqrt (cwOf w1) s
  | 9 => Sys2Proof.Machine.execVsqrtLong (cwOf w1) (modOf w2) s
  | 10 => Sys2Proof.Machine.execVsin (cwOf w1) s
  | 11 => Sys2Proof.Machine.execVsinLong (cwOf w1) (modOf w2) s
  | 12 => Sys2Proof.Machine.execVcos (cwOf w1) s
  | 13 => Sys2Proof.Machine.execVcosLong (cwOf w1) (modOf w2) s
  | 14 => Sys2Proof.Machine.execVtanh (cwOf w1) s
  | 15 => Sys2Proof.Machine.execVtanhLong (cwOf w1) (modOf w2) s
  | _ => execUnimplementedOpcode 2 w1 w2 s

/-- The meaning of the words of class 3, chosen by the opcode (R67, R68). -/
def runClass3 (w1 w2 : W32) (s : State) : Out :=
  match (opOf w1).toNat with
  | 0 => Sys2Proof.Machine.execLd (cwOf w1) s
  | 1 => Sys2Proof.Machine.execLdLong (cwOf w1) (memOf w2) s
  | 2 => Sys2Proof.Machine.execSt (cwOf w1) s
  | 3 => Sys2Proof.Machine.execStLong (cwOf w1) (memOf w2) s
  | 4 => Sys2Proof.Machine.execLds (cwOf w1) s
  | 5 => Sys2Proof.Machine.execLdsLong (cwOf w1) (memOf w2) s
  | 6 => Sys2Proof.Machine.execSts (cwOf w1) s
  | 7 => Sys2Proof.Machine.execStsLong (cwOf w1) (memOf w2) s
  | 8 => Sys2Proof.Machine.execLdt (cwOf w1) s
  | 9 => Sys2Proof.Machine.execLdtLong (cwOf w1) (memOf w2) s
  | 10 => Sys2Proof.Machine.execRdmV (cwOf w1) s
  | 11 => Sys2Proof.Machine.execRdmVLong (cwOf w1) (memOf w2) s
  | 12 => Sys2Proof.Machine.execRdmS (cwOf w1) s
  | 13 => Sys2Proof.Machine.execRdmSLong (cwOf w1) (memOf w2) s
  | 14 => Sys2Proof.Machine.execTkrel (cwOf w1) s
  | 16 => Sys2Proof.Machine.execTkq (cwOf w1) s
  | 19 => Sys2Proof.Machine.execAtom (cwOf w1) (memOf w2) s
  | 21 => Sys2Proof.Machine.execRed (cwOf w1) (memOf w2) s
  | 23 => Sys2Proof.Machine.execWaitc (cwOf w1) (memOf w2) s
  | 24 => Sys2Proof.Machine.execFence (cwOf w1) s
  | 25 => Sys2Proof.Machine.execFenceLong (cwOf w1) (memOf w2) s
  | 26 => Sys2Proof.Machine.execFenceI (cwOf w1) s
  | 28 => Sys2Proof.Machine.execPref (cwOf w1) s
  | 29 => Sys2Proof.Machine.execPrefLong (cwOf w1) (memOf w2) s
  | 30 => Sys2Proof.Machine.execCwb (cwOf w1) s
  | 31 => Sys2Proof.Machine.execCwbLong (cwOf w1) (memOf w2) s
  | 33 => Sys2Proof.Machine.execTidef (cwOf w1) (memOf w2) s
  | 35 => Sys2Proof.Machine.execTsweep (cwOf w1) (memOf w2) s
  | 37 => Sys2Proof.Machine.execTwalk (cwOf w1) (memOf w2) s
  | _ => execUnimplementedOpcode 3 w1 w2 s

/-- The meaning of the words of class 4, chosen by the opcode (R67, R68). -/
def runClass4 (w1 w2 : W32) (s : State) : Out :=
  match (opOf w1).toNat with
  | 0 => Sys2Proof.Machine.execGang (cwOf w1) s
  | 1 => Sys2Proof.Machine.execGangLong (cwOf w1) (modOf w2) s
  | 2 => Sys2Proof.Machine.execMm (cwOf w1) s
  | 3 => Sys2Proof.Machine.execMmLong (cwOf w1) (modOf w2) s
  | 4 => Sys2Proof.Machine.execMmg (cwOf w1) s
  | 5 => Sys2Proof.Machine.execMmgLong (cwOf w1) (modOf w2) s
  | 6 => Sys2Proof.Machine.execMmb (cwOf w1) s
  | 7 => Sys2Proof.Machine.execMmbLong (cwOf w1) (modOf w2) s
  | 8 => Sys2Proof.Machine.execMtile (cwOf w1) s
  | 9 => Sys2Proof.Machine.execMtileLong (cwOf w1) (modOf w2) s
  | 10 => Sys2Proof.Machine.execMscl (cwOf w1) s
  | 11 => Sys2Proof.Machine.execMsclLong (cwOf w1) (modOf w2) s
  | 12 => Sys2Proof.Machine.execAclr (cwOf w1) s
  | 13 => Sys2Proof.Machine.execAclrLong (cwOf w1) (modOf w2) s
  | 14 => Sys2Proof.Machine.execAmov (cwOf w1) s
  | 15 => Sys2Proof.Machine.execAmovLong (cwOf w1) (modOf w2) s
  | 16 => Sys2Proof.Machine.execAfill (cwOf w1) s
  | 17 => Sys2Proof.Machine.execAfillLong (cwOf w1) (modOf w2) s
  | 18 => Sys2Proof.Machine.execAld (cwOf w1) s
  | 19 => Sys2Proof.Machine.execAldLong (cwOf w1) (modOf w2) s
  | 20 => Sys2Proof.Machine.execAst (cwOf w1) s
  | 21 => Sys2Proof.Machine.execAstLong (cwOf w1) (modOf w2) s
  | _ => execUnimplementedOpcode 4 w1 w2 s

/-- The meaning of the words of class 5, chosen by the opcode (R67, R68). -/
def runClass5 (w1 w2 : W32) (s : State) : Out :=
  match (opOf w1).toNat with
  | 0 => Sys2Proof.Machine.execCpy (cwOf w1) s
  | 1 => Sys2Proof.Machine.execCpyLong (cwOf w1) (modOf w2) s
  | 2 => Sys2Proof.Machine.execCpym (cwOf w1) s
  | 3 => Sys2Proof.Machine.execCpymLong (cwOf w1) (modOf w2) s
  | 4 => Sys2Proof.Machine.execCpyw (cwOf w1) s
  | 5 => Sys2Proof.Machine.execCpywLong (cwOf w1) (modOf w2) s
  | 6 => Sys2Proof.Machine.execMbsend (cwOf w1) s
  | 7 => Sys2Proof.Machine.execMbsendLong (cwOf w1) (modOf w2) s
  | 8 => Sys2Proof.Machine.execMbrecv (cwOf w1) s
  | 9 => Sys2Proof.Machine.execMbrecvLong (cwOf w1) (modOf w2) s
  | 10 => Sys2Proof.Machine.execMbpoll (cwOf w1) s
  | 11 => Sys2Proof.Machine.execMbpollLong (cwOf w1) (modOf w2) s
  | 12 => Sys2Proof.Machine.execMbver (cwOf w1) s
  | 13 => Sys2Proof.Machine.execMbverSet (cwOf w1) (modOf w2) s
  | _ => execUnimplementedOpcode 5 w1 w2 s

/-- The meaning of the words of class 6, chosen by the opcode (R67, R68). -/
def runClass6 (w1 w2 : W32) (s : State) : Out :=
  match (opOf w1).toNat with
  | 0 => Sys2Proof.Machine.execTrap (iwOf w1) s
  | 2 => Sys2Proof.Machine.execBkpt (iwOf w1) s
  | 4 => Sys2Proof.Machine.execTrec (cwOf w1) s
  | 5 => Sys2Proof.Machine.execTrecLong (cwOf w1) (modOf w2) s
  | 6 => Sys2Proof.Machine.execXget (cwOf w1) s
  | 7 => Sys2Proof.Machine.execXgetLong (cwOf w1) (modOf w2) s
  | 8 => Sys2Proof.Machine.execXset (cwOf w1) s
  | 9 => Sys2Proof.Machine.execXsetLong (cwOf w1) (modOf w2) s
  | 10 =>
    if (cwOf w1).d = 1 then (Sys2Proof.Machine.execEresumeSkip (cwOf w1) s)
    else if (cwOf w1).d = 2 then (Sys2Proof.Machine.execEresumeJmp (cwOf w1) s)
    else (Sys2Proof.Machine.execEresumeRetry (cwOf w1) s)
  | 11 => Sys2Proof.Machine.execEresumeRel (cwOf w1) (xwOf w2) s
  | 12 => Sys2Proof.Machine.execGetsr (cwOf w1) s
  | 14 => Sys2Proof.Machine.execSetsr (cwOf w1) s
  | 16 => Sys2Proof.Machine.execTime (cwOf w1) s
  | 18 => Sys2Proof.Machine.execSample (cwOf w1) s
  | 19 => Sys2Proof.Machine.execSampleMark (cwOf w1) (modOf w2) s
  | 20 => Sys2Proof.Machine.execHostsig (iwOf w1) s
  | 21 => Sys2Proof.Machine.execHostsigLong (cwOf w1) (xwOf w2) s
  | _ => execUnimplementedOpcode 6 w1 w2 s

theorem runClass0_eq (w1 w2 : W32) (s : State) :
    exec ((decode0 w1 w2).getD (.unimplementedOpcode 0 w1 w2)) s = runClass0 w1 w2 s := by
  unfold decode0 runClass0
  generalize (opOf w1).toNat = n
  exact match n with
    | 0 => rfl
    | 1 => rfl
    | 2 => rfl
    | 3 => rfl
    | 4 => rfl
    | 5 => rfl
    | 6 => rfl
    | 7 => rfl
    | 8 => rfl
    | 9 => rfl
    | 10 => rfl
    | 11 => rfl
    | 12 => rfl
    | 13 => rfl
    | 14 => rfl
    | 15 => rfl
    | 16 => rfl
    | 17 => rfl
    | 18 => rfl
    | 19 => rfl
    | 20 => rfl
    | 21 => rfl
    | 22 => rfl
    | 23 => rfl
    | 24 => rfl
    | 25 => rfl
    | 26 => rfl
    | 27 => rfl
    | 28 => rfl
    | 29 => rfl
    | 30 => rfl
    | 31 => rfl
    | 32 => rfl
    | 33 => rfl
    | 34 => rfl
    | 35 => rfl
    | 36 => rfl
    | 37 => rfl
    | 38 => rfl
    | 39 => rfl
    | 40 => rfl
    | 41 => rfl
    | 42 => rfl
    | 43 => rfl
    | 44 => rfl
    | 45 => rfl
    | 46 => rfl
    | 47 => rfl
    | 48 => rfl
    | 49 => rfl
    | 50 => rfl
    | 51 => rfl
    | 52 => rfl
    | 53 => rfl
    | 54 => rfl
    | 55 => rfl
    | 56 => rfl
    | 57 => rfl
    | 58 => rfl
    | 59 => rfl
    | 60 => rfl
    | 61 => rfl
    | 62 => rfl
    | 63 => rfl
    | 64 => rfl
    | 65 => rfl
    | 66 => rfl
    | 67 => rfl
    | 68 => rfl
    | 69 => rfl
    | 70 => rfl
    | 71 => rfl
    | 72 => rfl
    | 73 => rfl
    | 74 => rfl
    | 75 => rfl
    | 76 => rfl
    | 77 => rfl
    | 78 => rfl
    | 79 => rfl
    | 80 => rfl
    | 81 => rfl
    | 82 => rfl
    | 83 => rfl
    | 84 => rfl
    | 85 => rfl
    | 86 => rfl
    | 87 => rfl
    | 88 => rfl
    | 89 => rfl
    | 90 => rfl
    | 91 => rfl
    | 92 => rfl
    | 93 => rfl
    | 94 => rfl
    | 95 => rfl
    | 96 => rfl
    | 97 => rfl
    | 98 => rfl
    | 99 => rfl
    | 100 => rfl
    | 101 => rfl
    | 102 => rfl
    | 103 => rfl
    | 104 => rfl
    | 105 => rfl
    | 106 => rfl
    | 107 => rfl
    | 108 => rfl
    | 109 => rfl
    | 110 => rfl
    | 111 => rfl
    | 112 => rfl
    | 113 => rfl
    | 114 => rfl
    | 115 => rfl
    | 116 => rfl
    | 117 => rfl
    | 118 => rfl
    | _ + 119 => rfl

theorem runClass1_eq (w1 w2 : W32) (s : State) :
    exec ((decode1 w1 w2).getD (.unimplementedOpcode 1 w1 w2)) s = runClass1 w1 w2 s := by
  unfold decode1 runClass1
  generalize (opOf w1).toNat = n
  exact match n with
    | 0 => rfl
    | 1 => rfl
    | 2 => rfl
    | 3 => rfl
    | 4 => rfl
    | 5 => rfl
    | 6 => rfl
    | 7 => rfl
    | 8 => rfl
    | 9 => rfl
    | 10 => rfl
    | 11 => rfl
    | 12 => rfl
    | 13 => rfl
    | 14 => rfl
    | 15 => rfl
    | 16 => rfl
    | 17 => rfl
    | 18 => rfl
    | 19 => rfl
    | 20 => rfl
    | 21 => rfl
    | 22 => rfl
    | 23 => rfl
    | 24 => rfl
    | 25 => rfl
    | 26 => rfl
    | 27 => rfl
    | 28 => rfl
    | 29 => rfl
    | 30 => rfl
    | 31 => rfl
    | 32 => rfl
    | 33 => rfl
    | 34 => rfl
    | 35 => rfl
    | 36 => rfl
    | 37 => rfl
    | 38 => rfl
    | 39 => rfl
    | 40 => rfl
    | 41 => rfl
    | 42 => rfl
    | 43 => rfl
    | 44 => rfl
    | 45 => rfl
    | 46 => rfl
    | 47 => rfl
    | 48 => rfl
    | 49 => rfl
    | 50 => rfl
    | 51 => rfl
    | 52 => rfl
    | 53 => rfl
    | 54 => rfl
    | 55 => rfl
    | 56 => rfl
    | 57 => rfl
    | 58 => rfl
    | 59 => rfl
    | 60 => rfl
    | 61 => rfl
    | 62 => rfl
    | 63 => rfl
    | 64 => rfl
    | 65 => rfl
    | 66 => rfl
    | 67 => rfl
    | 68 => rfl
    | 69 => rfl
    | 70 => rfl
    | 71 => rfl
    | 72 => rfl
    | 73 => rfl
    | 74 => rfl
    | 75 => rfl
    | 76 => rfl
    | 77 => rfl
    | 78 => rfl
    | 79 => rfl
    | 80 => rfl
    | 81 => rfl
    | 82 => rfl
    | 83 => rfl
    | 84 => rfl
    | 85 => rfl
    | 86 => rfl
    | 87 => rfl
    | 88 => rfl
    | 89 => rfl
    | 90 => rfl
    | 91 => rfl
    | 92 => rfl
    | 93 => rfl
    | 94 => rfl
    | 95 => rfl
    | 96 => rfl
    | 97 => rfl
    | 98 => rfl
    | 99 => rfl
    | 100 => rfl
    | 101 => rfl
    | 102 => rfl
    | 103 => rfl
    | _ + 104 => rfl

theorem runClass2_eq (w1 w2 : W32) (s : State) :
    exec ((decode2 w1 w2).getD (.unimplementedOpcode 2 w1 w2)) s = runClass2 w1 w2 s := by
  unfold decode2 runClass2
  generalize (opOf w1).toNat = n
  exact match n with
    | 0 => rfl
    | 1 => rfl
    | 2 => rfl
    | 3 => rfl
    | 4 => rfl
    | 5 => rfl
    | 6 => rfl
    | 7 => rfl
    | 8 => rfl
    | 9 => rfl
    | 10 => rfl
    | 11 => rfl
    | 12 => rfl
    | 13 => rfl
    | 14 => rfl
    | 15 => rfl
    | _ + 16 => rfl

theorem runClass3_eq (w1 w2 : W32) (s : State) :
    exec ((decode3 w1 w2).getD (.unimplementedOpcode 3 w1 w2)) s = runClass3 w1 w2 s := by
  unfold decode3 runClass3
  generalize (opOf w1).toNat = n
  exact match n with
    | 0 => rfl
    | 1 => rfl
    | 2 => rfl
    | 3 => rfl
    | 4 => rfl
    | 5 => rfl
    | 6 => rfl
    | 7 => rfl
    | 8 => rfl
    | 9 => rfl
    | 10 => rfl
    | 11 => rfl
    | 12 => rfl
    | 13 => rfl
    | 14 => rfl
    | 15 => rfl
    | 16 => rfl
    | 17 => rfl
    | 18 => rfl
    | 19 => rfl
    | 20 => rfl
    | 21 => rfl
    | 22 => rfl
    | 23 => rfl
    | 24 => rfl
    | 25 => rfl
    | 26 => rfl
    | 27 => rfl
    | 28 => rfl
    | 29 => rfl
    | 30 => rfl
    | 31 => rfl
    | 32 => rfl
    | 33 => rfl
    | 34 => rfl
    | 35 => rfl
    | 36 => rfl
    | 37 => rfl
    | _ + 38 => rfl

theorem runClass4_eq (w1 w2 : W32) (s : State) :
    exec ((decode4 w1 w2).getD (.unimplementedOpcode 4 w1 w2)) s = runClass4 w1 w2 s := by
  unfold decode4 runClass4
  generalize (opOf w1).toNat = n
  exact match n with
    | 0 => rfl
    | 1 => rfl
    | 2 => rfl
    | 3 => rfl
    | 4 => rfl
    | 5 => rfl
    | 6 => rfl
    | 7 => rfl
    | 8 => rfl
    | 9 => rfl
    | 10 => rfl
    | 11 => rfl
    | 12 => rfl
    | 13 => rfl
    | 14 => rfl
    | 15 => rfl
    | 16 => rfl
    | 17 => rfl
    | 18 => rfl
    | 19 => rfl
    | 20 => rfl
    | 21 => rfl
    | _ + 22 => rfl

theorem runClass5_eq (w1 w2 : W32) (s : State) :
    exec ((decode5 w1 w2).getD (.unimplementedOpcode 5 w1 w2)) s = runClass5 w1 w2 s := by
  unfold decode5 runClass5
  generalize (opOf w1).toNat = n
  exact match n with
    | 0 => rfl
    | 1 => rfl
    | 2 => rfl
    | 3 => rfl
    | 4 => rfl
    | 5 => rfl
    | 6 => rfl
    | 7 => rfl
    | 8 => rfl
    | 9 => rfl
    | 10 => rfl
    | 11 => rfl
    | 12 => rfl
    | 13 => rfl
    | _ + 14 => rfl

theorem runClass6_eq (w1 w2 : W32) (s : State) :
    exec ((decode6 w1 w2).getD (.unimplementedOpcode 6 w1 w2)) s = runClass6 w1 w2 s := by
  unfold decode6 runClass6
  generalize (opOf w1).toNat = n
  exact match n with
    | 0 => rfl
    | 1 => rfl
    | 2 => rfl
    | 3 => rfl
    | 4 => rfl
    | 5 => rfl
    | 6 => rfl
    | 7 => rfl
    | 8 => rfl
    | 9 => rfl
    | 10 => by
      show exec ((if (cwOf w1).d = 1 then some (.eresumeSkip (cwOf w1)) else if (cwOf w1).d = 2 then some (.eresumeJmp (cwOf w1)) else some (.eresumeRetry (cwOf w1))).getD _) s = (if (cwOf w1).d = 1 then _ else _)
      (repeat' split) <;> rfl
    | 11 => rfl
    | 12 => rfl
    | 13 => rfl
    | 14 => rfl
    | 15 => rfl
    | 16 => rfl
    | 17 => rfl
    | 18 => rfl
    | 19 => rfl
    | 20 => rfl
    | 21 => rfl
    | _ + 22 => rfl

/-- The meaning of one or two words of a class: exec of what they decode to. -/
noncomputable def execWords (cls : BitVec 3) (w1 w2 : W32) (s : State) : Out := exec (decodeWords cls w1 w2) s

/-- The same by class and opcode. -/
def runWords (cls : BitVec 3) (w1 w2 : W32) (s : State) : Out :=
  let w2 := if isTwo w1 then w2 else 0
  match cls.toNat with
  | 0 => runClass0 w1 w2 s
  | 1 => runClass1 w1 w2 s
  | 2 => runClass2 w1 w2 s
  | 3 => runClass3 w1 w2 s
  | 4 => runClass4 w1 w2 s
  | 5 => runClass5 w1 w2 s
  | 6 => runClass6 w1 w2 s
  | _ => execUnimplementedOpcode cls w1 w2 s

theorem cls_of_toNat (cls : BitVec 3) (n : Nat) (h : cls.toNat = n) : cls = BitVec.ofNat 3 n := by
  subst h; simp

@[csimp] theorem execWords_eq : @execWords = @runWords := by
  funext cls w1 w2 s
  unfold execWords runWords decodeWords decodeAssigned
  dsimp only
  generalize (if isTwo w1 = true then w2 else 0) = v
  split
  · rename_i h; rw [cls_of_toNat _ _ h]; exact runClass0_eq _ _ _
  · rename_i h; rw [cls_of_toNat _ _ h]; exact runClass1_eq _ _ _
  · rename_i h; rw [cls_of_toNat _ _ h]; exact runClass2_eq _ _ _
  · rename_i h; rw [cls_of_toNat _ _ h]; exact runClass3_eq _ _ _
  · rename_i h; rw [cls_of_toNat _ _ h]; exact runClass4_eq _ _ _
  · rename_i h; rw [cls_of_toNat _ _ h]; exact runClass5_eq _ _ _
  · rename_i h; rw [cls_of_toNat _ _ h]; exact runClass6_eq _ _ _
  · first | rfl | (split <;> first | rfl | (exfalso; simp_all))

end Sys2Proof.Machine
end

