-- ==== Sys2Proof/Machine/Issue.lean ====
section
/-! DEFINITION. What one item of the agenda does: the issue slot offered to a wave's slot, time, values owed to the log, the
host's accesses, faults of the storage (R17, R257, R262, R362, R371, R385, R394, R404). Step.lean only calls it. -/

namespace Sys2Proof.Machine

/-! The word at which a slot stands. -/

/-- A word that could not be fetched traps, once the wave has taken a trap that it owes (R202, R229). -/
def issueBad (s : State) (wid : Nat) (slotB : Bool) (w : Wave) (b : Block) (at_ cause sub : Nat) : Out :=
  if !waveRuns s wid w b || !slotRuns (slotOf w slotB) then .next s
  else if !w.defer.isEmpty then execUnimplementedOpcode 0 0 0 s
  else .next (badWord s wid slotB w at_ cause sub)

/-- The word or the header at which a slot stands. -/
def issueSlot (s : State) (wid : Nat) (slotB : Bool) (w : Wave) (b : Block) : Out :=
  let x := slotOf w slotB
  if seamHeld b x || ldtHeld s x then .next s
  else if x.inClause && !x.words.isEmpty then
    match x.words[x.idx]? with
    | none => .next s
    | some (.bad c k) => issueBad s wid slotB w b x.idx c k
    | some (.ok w1) =>
      if isTwo w1 then
        match x.words[x.idx + 1]? with
        | some (.bad c k) => issueBad s wid slotB w b (x.idx + 1) c k
        | some (.ok w2) => execWords (hdrClass x.hdrW) w1 w2 s
        | none => .next s
      else execWords (hdrClass x.hdrW) w1 0 s
  else execClauseIssue s

/-! Arbitration (R257). -/

/-- A slot as it stands, without what a word that waits leaves in it. -/
def bareSlot (x : Slot) : Slot := { x with stuck := false, phase := 0, walked := [], words := [] }

/-- A slot that is offered the issue slot would not be left waiting: its word or header would issue, trap, park or branch (R257). -/
def slotIssues (s : State) (wid : Nat) (slotB : Bool) (w : Wave) (b : Block) : Bool :=
  waveRuns s wid w b && ((brokenPark s wid slotB).isSome || (slotRuns (slotOf w slotB) &&
    (match issueSlot { s with cur := some ⟨wid, slotB⟩ } wid slotB w b with
      | .next t => (tget t.waves wid).elim true (fun v => bareSlot (slotOf v slotB) != bareSlot (slotOf w slotB) || v.trap.isSome)
      | _ => true)))

/-- A wave could issue now, were it offered the issue slot. (DESIGN CHOICE, log entry 4) -/
def waveIssues (s : State) (wid : Nat) : Bool :=
  match tget s.waves wid with
  | none => false
  | some w => match blockOf s w with
    | none => false
    | some b => slotIssues s wid false w b || slotIssues s wid true w b

/-- The place of a wave in an arbitration: a wave that yields comes last, then by R257's rank. -/
def arbRank (s : State) (core wid : Nat) : Bool × Nat × Nat × Nat × Nat :=
  ((coreOf s core).yields.contains wid, waveRank s wid)

/-- A wave comes before another. -/
def arbBefore (a b : Bool × Nat × Nat × Nat × Nat) : Bool :=
  if a.1 == b.1 then rankLe a.2 b.2 && a.2 != b.2 else !a.1

/-- Another wave of the core could issue and comes first (R257). (DESIGN CHOICE, log entry 4) -/
def outranked (s : State) (wid : Nat) (b : Block) : Bool :=
  let c := coreOf s b.core
  (c.handler.toList ++ c.active).any (fun i => i != wid && arbBefore (arbRank s b.core i) (arbRank s b.core wid) && waveIssues s i)

/-- A slot is offered the issue slot: a wave of a broken barrier traps there, else its word or header issues. (DESIGN CHOICE, log entry 4) -/
def issueStep (s0 : State) (wid : Nat) (slotB : Bool) : Out :=
  let s := { s0 with cur := some ⟨wid, slotB⟩ }
  match tget s.waves wid with
  | none => .next s
  | some w => match blockOf s w with
    | none => .next s
    | some b =>
      if outranked s wid b then .next s
      else match brokenPark s wid slotB with
        | some s1 => .next (if waveRuns s wid w b then s1 else s)
        | none => issueSlot s wid slotB w b

/-! Values owed to the log (R394). -/

/-- A wave's owed values are appended, in their order. -/
def payOwed (s : State) (wid : Nat) : State :=
  match tget s.waves wid with
  | none => s
  | some w => w.owed.foldl (fun s o => logRec s wid 2 o.1 o.2.1 (bytesOf 8 o.2.2.toNat)) (modWave s wid (fun w => { w with owed := [] }))

/-- Every wave's owed values are appended. -/
def flushOwed (s : State) : State :=
  (s.waves.filter (fun e => !e.2.owed.isEmpty)).foldl (fun s e => payOwed s e.1) s

/-- What is due before the agenda's next item: the dumps of the waves that a step has halted (R327), and the values owed to a log. -/
def settleDue (s : State) : State := flushOwed (freshDumps s)

/-! Time (R17, R362, R363, R385, R408). -/

/-- The time that n local nanoseconds add, `rem` of them having passed since the last change: while a correction is due, at most
one nanosecond more or less in each 10,000 (R409). (DEDUCED, log entry 25) -/
def slew (corr : Int) (rem n : Nat) : Int :=
  let k : Int := ((rem + n) / 10000 : Nat)
  max (-k) (min k corr)

/-- The watchdog's count of a context: it runs while a wave waits (R362). -/
def dlTick (s : State) : State :=
  { s with ctxs := s.ctxs.map (fun e =>
      if (ctxWaiters s e.1).isEmpty then (e.1, { e.2 with dlStart := none })
      else if e.2.dlStart.isNone then (e.1, { e.2 with dlStart := some s.now }) else e) }

/-- The cycle counter of a running hart counts 2 a nanosecond (R363). -/
def hartTick (s : State) (n : Nat) : State :=
  { s with eps := s.eps.map (fun e =>
      if hartRuns s e.1 then (e.1, { e.2 with hart := { e.2.hart with cycle := e.2.hart.cycle + BitVec.ofNat 64 (2 * n) } }) else e) }

/-- A resident wave is ready: in the active set, and without what a power allowance withholds, it would issue (R259). (DEDUCED,
log entry 22) -/
def waveReady (s : State) (wid : Nat) : Bool :=
  match (tget s.waves wid).bind (fun w => (blockOf s w).map (·.core)) with
  | none => false
  | some core => waveIssues (modRope (modCore s core (fun c => { c with active := wid :: c.active })) (ropeOfCore core)
      (fun r => { r with deficit := 0 })) wid

/-- The waves that are not ready gain no age while time passes (R259). -/
def holdAge (s : State) (w : Nat × Wave) (n : Nat) : Nat × Wave :=
  if w.2.st != .live || waveReady s w.1 then w else (w.1, { w.2 with readyAt := w.2.readyAt + n })

/-- n nanoseconds pass. (DESIGN CHOICE, log entry 6; log entry 47) -/
def tick (s : State) (n : Nat) : State :=
  let s1 := hartTick (dlTick s) n
  let d := s1.dev
  let a := slew d.corr d.slewRem n
  let new := ((s1.now + n : Nat) + a).toNat
  { s1 with
    now := new
    waves := s1.waves.map (fun e => holdAge s e (new - s1.now))
    dev := { d with corr := d.corr - a, slewRem := if d.corr = 0 then 0 else (d.slewRem + n) % 10000 }
    ropes := s1.ropes.map (fun e => if e.2.deficit = 0 then e else (e.1, powerTick n e.2)) }

/-! The agenda (DESIGN CHOICE, log entry 4). -/

/-- One item of the agenda. (DESIGN CHOICE, log entry 4; log entry 50) -/
def act (t : Todo) (s : State) : Out :=
  match t with
  | .issue wid slotB => issueStep s wid slotB
  | .event i => exec i { s with cur := none }
  | .tick n => .next (tick s n)
  | .hostRead fn addr size => .next (hostRegRead s fn addr size)
  | .hostStore pa bytes => .next (hostStore s pa bytes)
  | .peerStore pa bytes => .next (peerStore s pa bytes)
  | .fetchAhead core pa => .next (fetchAhead s core pa)
  | .loadMeta ctx addr m => .next (if m.sized then modCtx s ctx (fun c => { c with metas := tput c.metas addr m }) else s)
  | .memError pa unit ctx bad => .next (memError s pa unit ctx bad)
  | .corrected unit ctx pa => .next (errPush s (if unit == 3 then pa else 0) unit 1 ctx)
  | .l1Error cache line u => .next (l1Error s cache line u)
  | .ticketError slice idx u => .next (ticketError s slice idx u)
  | .monError wid slotB => .next (monError s wid slotB)
  | .icacheParity core pa => .next (icacheParity s core pa)
  | .tlbParity core va => .next (tlbParity s core va)
  | .symError wid scalar num => .next (symError s wid scalar num)
  | .bufError blk buf off => .next (bufError s blk buf off)
  | .quadError blk num => .next (quadError s blk num)
  | .finish lid => .next (finishLaunch s lid)
  | .drift unit lag => .next (drift s unit lag)
  | .copyMove blk k n => .next (copyMove s blk k n)
  | .pollDone op => .next (pollDone s op)
  | .podLoad ctx va len image => .next (modCtx s ctx (fun c => { c with pods := c.pods ++ [⟨va, len, image⟩] }))
  | .rebindUp blk => .next (rebindUp s blk)
  | .share wid scalar num wid2 num2 => .next (shareSlot s wid scalar num wid2 num2)

/-! A word placed for the next step (DESIGN CHOICE, log entry 5). -/

/-- The kernel data under which a placed word runs: 512 vector, 512 scalar symbols, 16 quads, two buffers, two barriers. (DESIGN
CHOICE, log entry 5) -/
def placedMeta : Meta :=
  { nV := 512, nS := 512, nQ := 16, quadsLive := 16, bufs := [⟨4096, 256⟩, ⟨4096, 256⟩], lives := [⟨.buf, 0, 0, 2 ^ 32⟩, ⟨.buf, 1, 0, 2 ^ 32⟩],
    bars := [⟨false, 1, true⟩, ⟨true, 1, true⟩] }

/-- A launched block of one 32-wide wave on core 0, active, in a clause of class cls that holds the words. (DESIGN CHOICE, log entry 5) -/
def placeWords (s : State) (cls : BitVec 3) (ws : List W32) : State :=
  let x : Slot := { used := true, inClause := true, hdr := 0, words := ws.map .ok, mask := 0xFFFFFFFF,
                    hdrW := w32 (3 * 2 ^ 30 + cls.toNat * 16 + ws.length) }
  let w : Wave := { blk := 1, idx := 0, width := 32, ctx := 0, a := x }
  let b : Block := { ctx := 0, lid := 1, grp := 1, idx := 0, core := 0, budget := 32, width := 32, waves := [1],
                     var := ⟨0, 0, 64, placedMeta⟩, bars := [⟨false, 0, true, 1, 0, 0, [], [], [], false⟩] }
  let g : Group := { lid := 1, num := 0, ctx := 0, rope := 0, blocks := [1], bars := [⟨true, 1, true, 1, 0, 0, [], [], [], false⟩] }
  { s with
    waves := tput s.waves 1 w, blocks := tput s.blocks 1 b, groups := tput s.groups 1 g, nextId := max s.nextId 2,
    cores := tput s.cores 0 { coreOf s 0 with active := [1] },
    agenda := .issue 1 false :: s.agenda }

end Sys2Proof.Machine
end

