-- ==== Sys2Proof/Machine/Step.lean ====
section
/-! DEFINITION. One step of the machine: the next item of the agenda (DESIGN CHOICE, log entry 4). -/

namespace Sys2Proof.Machine

/-- One step: dumps and logged values that are due come first, then the agenda's next item is carried out. With an empty agenda nothing
happens. (DESIGN CHOICE, log entry 4) -/
def step (s : State) : Host.Outcome State Fault Refusal :=
  match s.agenda with
  | [] => .next s
  | t :: rest => act t (settleDue { s with agenda := rest })

/-- The machine with an instruction placed where the next step takes it: the words of the clause of a launched wave
(DESIGN CHOICE, log entry 5). -/
noncomputable def State.withFetchWord (s : State) (nbits w : Nat) : State :=
  let x := w % 2 ^ nbits
  let w1 := w32 x
  let w2 := w32 (x >>> 32)
  placeWords s (tableClass w1 w2) (if isTwo w1 then [w1, w2] else [w1])

end Sys2Proof.Machine
end

