-- ==== Sys2Proof/Safety.lean ====
section
/-! DEFINITION. The terms of claims: a word that a slot offers and that passes every check of R69, what its completion
changes, the canonical form of memory. -/

namespace Sys2Proof.Machine

/-! Memory. -/

/-- The canonical form of memory: addresses strictly rise, and no entry holds what an unlisted address reads as. -/
def Memory.wf (m : Tbl Byte) : Bool := tsorted m && m.all (fun e => e.2 != 0)

/-! A word offered (R69, R257). -/

/-- The slot that the cursor names offers a word of these fixed facts: the wave, its block and the slot are as `k` says,
the wave and the slot run, and no deferred trap comes first. -/
structure Offered (sp : WSpec) (k : IC) (s : State) : Prop where
  cur : s.cur = some ⟨k.wid, k.slotB⟩
  wave : tget s.waves k.wid = some k.w
  block : blockOf s k.w = some k.b
  slot : k.x = slotOf k.w k.slotB
  core : k.core = k.b.core
  live : k.live = liveLanes sp.lanes k.w k.x.mask sp.u.g
  fields : k.u = sp.u
  runs : waveRuns s k.wid k.w k.b = true
  slotRuns : slotRuns k.x = true
  inClause : k.x.inClause = true
  noDefer : k.w.defer = []

/-- The operands of the word; a follower of a gang does not read its d field (R201). -/
def wordOps (sp : WSpec) (k : IC) : List Opnd :=
  if sp.gang && gangFollower k.b k.w then (sp.ops k.w.width).filter (fun o => o.field != 0) else sp.ops k.w.width

/-- The word passes every check of R69 that comes before its own conditions, and its guard executes it. -/
structure Passes (sp : WSpec) (k : IC) (s : State) : Prop where
  offered : Offered sp k s
  last : sp.last = true → hdrCount k.x.hdrW ≤ k.x.idx + sp.u.words
  ok : sp.ok k.w.width = true
  handler : sp.hOnly = true → k.b.handler = true
  guard : sp.lanes = true ∨ guardWave k.w k.x.mask sp.u.g = true
  bounds : boundTrap s k.b k.x (wordOps sp k) = none
  full : emptyCheck k.b k.wid k.w k.x sp.mat (usedOps sp k (wordOps sp k)) = .full
  clean : poisonRead k.b k.w k.x (usedOps sp k (wordOps sp k)) = none

/-- An instruction word as a claim names it: the instruction and its fixed facts. -/
structure WordForm where
  i : Instr
  sp : WSpec

/-! The ends of a word. -/

/-- The word completes with the effects in s, and its slot moves on. -/
def completes (sp : WSpec) (k : IC) (s : State) : State := settle sp k (wordOps sp k) (.done s)
/-- It completes, and its wave ranks last in the next arbitration. -/
def completesYielding (sp : WSpec) (k : IC) (s : State) : State := settle sp k (wordOps sp k) (.yields s)
/-- It completes, and control goes to a header. -/
def jumpsTo (sp : WSpec) (k : IC) (s : State) (pc : Nat) : State := settle sp k (wordOps sp k) (.jump s pc)
/-- It completes, and its effects in s hold the slot's new place. -/
def setsSlot (sp : WSpec) (k : IC) (s : State) : State := settle sp k (wordOps sp k) (.set s)
/-- Its trap condition is met. -/
def trapsWith (sp : WSpec) (k : IC) (s : State) (t : TrapInfo) : State := settle sp k (wordOps sp k) (.trap s t)
/-- It waits at issue. -/
def waitsAt (sp : WSpec) (k : IC) (s : State) : State := settle sp k (wordOps sp k) (.wait s)

/-- The place of a slot after a word of n words: the next word, or the header after the clause (R58, R104); after a class-4 word that
has been issued again, where the slot stood (R240). -/
def passed (x : Slot) (n : Nat) : Slot :=
  if x.back ≠ [] then comeBack x
  else if x.idx + n ≥ hdrCount x.hdrW then toNextHdr x else { x with idx := x.idx + n, phase := 0, walked := [] }

/-- Everything outside waves, cores, contexts, ropes and samples is the same, but that a sample reads the counter (R227). -/
structure SameMachine (s t : State) : Prop where
  now : t.now = s.now
  skew : t.skew = s.skew
  readMax : s.readMax ≤ t.readMax
  dev : t.dev = s.dev
  mem : t.mem = s.mem
  poison : t.poison = s.poison
  lease : t.lease = s.lease
  l1 : t.l1 = s.l1
  icache : t.icache = s.icache
  fetches : t.fetches = s.fetches
  walks : t.walks = s.walks
  hw : t.hw = s.hw
  ops : t.ops = s.ops
  slices : t.slices = s.slices
  peerMons : t.peerMons = s.peerMons
  eps : t.eps = s.eps
  launches : t.launches = s.launches
  groups : t.groups = s.groups
  blocks : t.blocks = s.blocks
  offers : t.offers = s.offers
  away : t.away = s.away
  irqs : t.irqs = s.irqs
  irqSent : t.irqSent = s.irqSent
  agenda : t.agenda = s.agenda
  fresh : t.fresh = s.fresh
  nextId : t.nextId = s.nextId
  hostData : t.hostData = s.hostData

/-- Of contexts, cores and ropes only what issuing itself changes differs: the watchdog's start, the count of spill traffic, the
marks of a yield and of a step, the energy. -/
structure SameUnits (s t : State) : Prop where
  ctxs : ∀ c, { ctxOf t c with dlStart := none, spillkib := 0, spillRem := 0 } =
    { ctxOf s c with dlStart := none, spillkib := 0, spillRem := 0 }
  cores : ∀ c, { coreOf t c with yields := [], dbg := {} } = { coreOf s c with yields := [], dbg := {} }
  ropes : ∀ r, { ropeOf t r with deficit := 0 } = { ropeOf s r with deficit := 0 }

/-- What an ended word leaves behind, apart from its own effects, which stand in s and, for its wave, in r: its slot
stands at a new place, everything else is as the effects left it. -/
structure Ended (s t : State) (k : IC) (place : Slot → Slot) (r : Wave) : Prop where
  machine : SameMachine s t
  units : SameUnits s t
  others : ∀ i, i ≠ k.wid → tget t.waves i = tget s.waves i
  wave : ∃ w', tget t.waves k.wid = some w' ∧
    w' = { setSlot { r with a := unstick r.a, b := unstick r.b } k.slotB (place (unstick (slotOf r k.slotB))) with
           readyAt := s.now, halted := w'.halted, stepping := w'.stepping, tag := w'.tag, level := w'.level, tmin := w'.tmin }

/-- The word has completed: its slot has moved past the word's n words. -/
abbrev Completed (s t : State) (k : IC) (n : Nat) (r : Wave) : Prop := Ended s t k (fun x => passed x n) r
/-- The word has completed, and control has gone to a header. -/
abbrev Jumped (s t : State) (k : IC) (pc : Nat) (r : Wave) : Prop := Ended s t k (fun x => { toNextHdr x with pc := pc }) r
/-- The word has completed, and r holds the slot's new place. -/
abbrev Placed (s t : State) (k : IC) (r : Wave) : Prop := Ended s t k id r

end Sys2Proof.Machine
end

