-- ==== Sys2Proof/Safety/Words.lean ====
section
/-! DEFINITION. The instruction words as claims name them, family by family: the instruction, its fixed facts, and, for
a word whose only effect is on its own wave, that effect as the rule of its card states it. -/

namespace Sys2Proof.Machine

/-- What a word does to its own wave. -/
abbrev Upd := IC → Wave → Wave

/-- s_d takes a value (R97). -/
def writeS (v : IC → W64) (k : IC) (w : Wave) : Wave := putS w (sNum k k.u.d) (v k)
/-- v_d, or its pair when wide, takes a value in each live lane (R71, R122). -/
def writeV (wide : IC → Bool) (v : IC → Nat → Nat) (k : IC) (w : Wave) : Wave :=
  putV w (wide k) (vNum k k.u.d) k.live (v k)
/-- p_d takes bits within MASK (R128). -/
def writeP (v : IC → Lanes) (k : IC) (w : Wave) : Wave := prPut w k.u.d k.x.mask (v k)
/-- A predicate takes a bit in each live lane (R127). -/
def writeL (d : Nat) (v : IC → Nat → Bool) (k : IC) (w : Wave) : Wave :=
  prPut w d k.live (laneSet ((lanesOf k.live).filter (v k)))
/-- MODE, windows or codes of the slot change (R47, R52, R95). -/
def writeC (f : IC → Ctl → Ctl) (k : IC) (w : Wave) : Wave := modSlot w k.slotB (fun x => { x with ctl := f k x.ctl })

/-- The scalar sources as numbers. -/
def srcA (k : IC) : Nat := (sVal k k.u.a).toNat
def srcB (k : IC) : Nat := (sVal k k.u.b).toNat
/-- The position and length fields of a bit-field word (R101, R126). -/
def fieldPos (w c : Nat) : Nat := if w == 64 then bits c 5 0 else bits c 4 0
def fieldLen (w c : Nat) : Nat := if w == 64 then min (bits c 14 8) 64 else min (bits c 13 8) 32

/-- The scalar mould with two register sources, or an immediate (R98 to R100). -/
def aluS (f : AluOp) (k : IC) : W64 := scResult f (tyOf k.u 7) (bit k.u.card 0) (srcA k) (srcB k)
def aluI (f : AluOp) (k : IC) : W64 := scResult f 7 false (srcA k) (wrapI 64 (immS k.u))
/-- Whether a word of the vector moulds names pairs, its type being the card's default when the word names none. -/
def wideAt (d : Nat) (k : IC) : Bool := isWide (tyOf k.u d)
/-- The vector integer mould with two sources, or one (R124). -/
def aluV (f : AluOp) (k : IC) (l : Nat) : Nat :=
  vInt f (tyOf k.u 5) (bit k.u.card 0) (vVal k (tyOf k.u 5) k.u.a l) (vVal k (tyOf k.u 5) k.u.b l)
def aluV1 (f : AluOp) (k : IC) (l : Nat) : Nat :=
  vInt f (tyOf k.u 5) (bit k.u.card 0) (vVal k (tyOf k.u 5) k.u.a l) 0
/-- v_a of a lane at the card's default type. -/
def laneA (d : Nat) (k : IC) (l : Nat) : Nat := vVal k (tyOf k.u d) k.u.a l

/-- VMAD in a lane: the exact a * b + c of each element, narrowed once (R126). -/
def madV (k : IC) (l : Nat) : Nat :=
  let t := tyOf k.u 5
  let w := tyWidth t
  let e := fun f j => sval (isSigned t) w (elem w j (vVal k t f l))
  mapEl t (fun j =>
    let r := e k.u.a j * e k.u.b j + e k.u.c j
    wrapI w (if bit k.u.card 0 then clampTy (isSigned t) w r else r))

/-- VDOT4 in a lane: c plus four products of bytes (R126). -/
def dot4V (k : IC) (l : Nat) : Nat :=
  let sa := k.u.ty == 1
  let sb := if k.u.ty2 == 0 then sa else k.u.ty2 == 1
  let p := fun j => sval sa 8 (elem 8 j (vVal k 5 k.u.a l)) * sval sb 8 (elem 8 j (vVal k 5 k.u.b l))
  let r := sextI (vVal k 5 k.u.c l) 32 + p 0 + p 1 + p 2 + p 3
  wrapI 32 (if bit k.u.card 0 then clampTy true 32 r else r)

/-- A floating word's source and the results of its lanes, with their exceptions (R129). -/
def fltA (k : IC) (l j : Nat) : Nat := fIn k (tyOf k.u 10) k.u.a l j
def fltB (k : IC) (l j : Nat) : Nat := fIn k (tyOf k.u 10) k.u.b l j
def fltC (k : IC) (l j : Nat) : Nat := fIn k (tyOf k.u 10) k.u.c l j
def fltBin (g : Fmt → Nat → Bool → Nat → Nat → Nat × Exc) (k : IC) (l : Nat) : Nat × Exc :=
  laneEl (tyOf k.u 10) (fun j => g (fmtOf (tyOf k.u 10)) (rmK k) (ftzOn k) (fltA k l j) (fltB k l j))
def fltMinMax (mx : Bool) (k : IC) (l : Nat) : Nat × Exc :=
  laneEl (tyOf k.u 10) (fun j => fMinMax (fmtOf (tyOf k.u 10)) mx (bit (modeOf k) 5) (fltA k l j) (fltB k l j))
def fltFma (k : IC) (l : Nat) : Nat × Exc :=
  laneEl (tyOf k.u 10) (fun j =>
    fFma (fmtOf (tyOf k.u 10)) (rmK k) (ftzOn k) (fltA k l j) (fltB k l j) (fltC k l j))
def fltRnd (k : IC) (l : Nat) : Nat × Exc :=
  laneEl (tyOf k.u 10) (fun j => fRnd (fmtOf (tyOf k.u 10)) (rmK k) (bit k.u.card 0) (fltA k l j))
def fltDot2 (k : IC) (l : Nat) : Nat × Exc :=
  fDot2 (fmtOf k.u.ty) (rmK k) (ftzOn k) (fIn k k.u.ty k.u.a l 0) (fIn k k.u.ty k.u.b l 0)
    (fIn k k.u.ty k.u.a l 1) (fIn k k.u.ty k.u.b l 1) (daz (dazOn k) f32 (vVal k 10 k.u.c l))

/-- Every word of a list completes when it passes its checks, and then changes its wave as the list says, and nothing
else but its place. -/
def EachCompletes (l : List (WordForm × Upd)) : Prop :=
  ∀ p ∈ l, ∀ (k : IC) (s : State), Passes p.1.sp k s →
    ∃ t, exec p.1.i s = .next t ∧ Completed s t k p.1.sp.u.words (p.2 k k.w)

/-- An operation entered under the next name (R56). -/
def entered (s : State) (o : Op) : State := { s with ops := tput s.ops s.nextId o, nextId := s.nextId + 1 }
/-- The operation of a word that issues now. -/
def opNow (k : IC) (s : State) (c : CntK) (body : Body) : Op := ⟨k.wid, c, originK k, s.now, body⟩
/-- The wave of a word whose operation is entered: it counts one more, and the destinations are empty (R54, R56). -/
def awaits (k : IC) (s : State) (c : CntK) (cls : SymCls) (nums : List Nat) : Wave :=
  markEmpty (cntUp k.w c) cls nums s.nextId
/-- Its slot's later words wait for the operation, when it is an acquire (R155). -/
def acquiring (k : IC) (s : State) (w : Wave) : Wave :=
  if k.u.order == 2 then modSlot w k.slotB (fun x => { x with acq := s.nextId :: x.acq }) else w
/-- n symbols from the one that the d field names. -/
def destSyms (k : IC) (n : Nat) : List Nat := (upto n).map (fun i => vNum k k.u.d + i)
/-- The state once a word's release side has been sent, which the wave's outstanding accesses hold back (R162, R277). -/
def sent (scope : Nat) (k : IC) (s : State) : State :=
  if k.x.phase == 0 && reachOf s k.core < scope && !memBusy s k.wid then
    setX k (releaseL1 s k.wid k.w.ctx k.core scope) (fun x => { x with phase := 1 })
  else s
/-- The state in which the rest of a word runs, once its release side is done: at device scope and wider the wave's later fetches are
ordered behind it (R162, R282). -/
def ended (scope : Nat) (k : IC) (s : State) : State :=
  if scope < 5 then sent scope k s else acquireFetch (sent scope k s) k.wid
/-- A word's release side has been sent and is done. -/
def released (scope : Nat) (k : IC) (s : State) : Prop := releaseDone (sent scope k s) k.wid k.core scope = true
/-- The order code 3 of a word asks for a release side first. -/
def begun (k : IC) (s : State) : State := if k.u.order == 3 then ended (scopeK k) k s else s
def beginDone (k : IC) (s : State) : Prop := k.u.order = 3 → released (scopeK k) k s
/-- With no lane live a word of a counted class performs no access and completes at once, its wave unchanged; without room in
its counter it waits (R57, R332). -/
def Laneless (f : WordForm) (k : IC) (s : State) (c : CntK) : Prop :=
  (k.live = 0 → cntGet k.w.cnt c < 63 → ∃ t, exec f.i s = .next t ∧ Completed s t k f.sp.u.words k.w) ∧
  (k.live = 0 → 63 ≤ cntGet k.w.cnt c → exec f.i s = .next (waitsAt f.sp k s))
/-- A value that the wave of k receives from outside its block, logged where its context logs (R394). -/
def logged (k : IC) (kind addr : Nat) (data : List Byte) (s : State) : State := logRec s k.wid kind addr (originK k) data
/-- A transfer to a target in the canonical space goes there; another target traps at the word (R104). -/
def Transfers (f : WordForm) (k : IC) (s : State) (t : Int) (r : Wave) : Prop :=
  if 0 ≤ t ∧ t < 2 ^ 64 ∧ canonical t.toNat = true then ∃ u, exec f.i s = .next u ∧ Jumped s u k t.toNat r
  else exec f.i s = .next (trapsWith f.sp k s { cause := 0x0E, sub := 2, addr := wrapI 64 t })
/-- A word that ends in its slot's new place, its wave being r and the rest as in s0. -/
def Places (f : WordForm) (k : IC) (s s0 : State) (r : Wave) : Prop := ∃ t, exec f.i s = .next t ∧ Placed s0 t k r
/-- The slot of the word continues at the header after it, or at a given one, with a mask. -/
def onPath (k : IC) (w : Wave) (m : Lanes) (pc : Nat) : Wave := modSlot w k.slotB (fun x => toPc { x with mask := m } pc)
/-- The slot executes a structured word with a mask. -/
def atWord (k : IC) (w : Wave) (m : Lanes) (l : Loc) : Wave := modSlot w k.slotB (fun x => toWord { x with mask := m } l)
/-- A class-4 word issues a request alone: with room it takes a reservation entry, its quads and vectors empty, and keeps the word for a
trap at the engine; else it waits (R54, R196, R229). -/
def IssuesAlone (f : WordForm) (k : IC) (s : State) (m : MatReq) (quads vecs : List Nat) : Prop :=
  if k.w.cnt.matrix < 63 ∧ resFull s (ropeOfCore k.core) = false then
    exec f.i s = .next (completes f.sp k (markQuads (modWave (entered s (opNow k s .matrix (.mat (wordAt k m)))) k.wid
      (fun w => markEmpty (cntUp w .matrix) .v vecs s.nextId)) k.w.blk k.wid s.nextId quads))
  else exec f.i s = .next (waitsAt f.sp k s)
/-- A word whose buffer ranges meet a condition traps with it; otherwise it issues its request alone (R189, R196). -/
def IssuesChecked (f : WordForm) (k : IC) (s : State) (offs : List Nat) (rs : List BufRange) (m : MatReq)
    (quads vecs : List Nat) : Prop :=
  (∀ t, rangeTrap k s offs rs = some t → exec f.i s = .next (trapsWith f.sp k s t)) ∧
  (rangeTrap k s offs rs = none → IssuesAlone f k s m quads vecs)


/-- The register forms of the scalar mould (R97 to R99). -/
noncomputable def scalarRegWords (w : CW) (m : ModW) : List (WordForm × Upd) :=
  [(⟨.sadd w, { u := ucw w, ok := fun _ => ok1 (ucw w), ops := fun _ => sDAB (ucw w) }⟩, writeS (aluS .add)),
    (⟨.saddLong w m, { u := umw w m, ok := fun _ => ok1 (umw w m), ops := fun _ => sDAB (umw w m) }⟩, writeS (aluS .add)),
    (⟨.ssub w, { u := ucw w, ok := fun _ => ok1 (ucw w), ops := fun _ => sDAB (ucw w) }⟩, writeS (aluS .sub)),
    (⟨.ssubLong w m, { u := umw w m, ok := fun _ => ok1 (umw w m), ops := fun _ => sDAB (umw w m) }⟩, writeS (aluS .sub)),
    (⟨.smul w, { u := ucw w, ok := fun _ => ok1 (ucw w), ops := fun _ => sDAB (ucw w) }⟩, writeS (aluS .mul)),
    (⟨.smulLong w m, { u := umw w m, ok := fun _ => ok1 (umw w m), ops := fun _ => sDAB (umw w m) }⟩, writeS (aluS .mul)),
    (⟨.smulhi w, { u := ucw w, ok := fun _ => ok3 (ucw w), ops := fun _ => sDAB (ucw w) }⟩, writeS (aluS .mulhi)),
    (⟨.smulhiLong w m, { u := umw w m, ok := fun _ => ok3 (umw w m), ops := fun _ => sDAB (umw w m) }⟩, writeS (aluS .mulhi)),
    (⟨.sdiv w, { u := ucw w, ok := fun _ => ok3 (ucw w), ops := fun _ => sDAB (ucw w) }⟩, writeS (aluS .div)),
    (⟨.sdivLong w m, { u := umw w m, ok := fun _ => ok3 (umw w m), ops := fun _ => sDAB (umw w m) }⟩, writeS (aluS .div)),
    (⟨.srem w, { u := ucw w, ok := fun _ => ok3 (ucw w), ops := fun _ => sDAB (ucw w) }⟩, writeS (aluS .rem)),
    (⟨.sremLong w m, { u := umw w m, ok := fun _ => ok3 (umw w m), ops := fun _ => sDAB (umw w m) }⟩, writeS (aluS .rem)),
    (⟨.sand w, { u := ucw w, ok := fun _ => ok3 (ucw w), ops := fun _ => sDAB (ucw w) }⟩, writeS (aluS .and)),
    (⟨.sandLong w m, { u := umw w m, ok := fun _ => ok3 (umw w m), ops := fun _ => sDAB (umw w m) }⟩, writeS (aluS .and)),
    (⟨.sor w, { u := ucw w, ok := fun _ => ok3 (ucw w), ops := fun _ => sDAB (ucw w) }⟩, writeS (aluS .or)),
    (⟨.sorLong w m, { u := umw w m, ok := fun _ => ok3 (umw w m), ops := fun _ => sDAB (umw w m) }⟩, writeS (aluS .or)),
    (⟨.sxor w, { u := ucw w, ok := fun _ => ok3 (ucw w), ops := fun _ => sDAB (ucw w) }⟩, writeS (aluS .xor)),
    (⟨.sxorLong w m, { u := umw w m, ok := fun _ => ok3 (umw w m), ops := fun _ => sDAB (umw w m) }⟩, writeS (aluS .xor)),
    (⟨.sshl w, { u := ucw w, ok := fun _ => ok3 (ucw w), ops := fun _ => sDAB (ucw w) }⟩, writeS (aluS .shl)),
    (⟨.sshlLong w m, { u := umw w m, ok := fun _ => ok3 (umw w m), ops := fun _ => sDAB (umw w m) }⟩, writeS (aluS .shl)),
    (⟨.sshr w, { u := ucw w, ok := fun _ => ok3 (ucw w), ops := fun _ => sDAB (ucw w) }⟩, writeS (aluS .shr)),
    (⟨.sshrLong w m, { u := umw w m, ok := fun _ => ok3 (umw w m), ops := fun _ => sDAB (umw w m) }⟩, writeS (aluS .shr)),
    (⟨.ssra w, { u := ucw w, ok := fun _ => ok3 (ucw w), ops := fun _ => sDAB (ucw w) }⟩, writeS (aluS .sra)),
    (⟨.ssraLong w m, { u := umw w m, ok := fun _ => ok3 (umw w m), ops := fun _ => sDAB (umw w m) }⟩, writeS (aluS .sra))] ++
  [(⟨.smin w, { u := ucw w, ok := fun _ => ok3 (ucw w), ops := fun _ => sDAB (ucw w) }⟩, writeS (aluS .min)),
    (⟨.sminLong w m, { u := umw w m, ok := fun _ => ok3 (umw w m), ops := fun _ => sDAB (umw w m) }⟩, writeS (aluS .min)),
    (⟨.smax w, { u := ucw w, ok := fun _ => ok3 (ucw w), ops := fun _ => sDAB (ucw w) }⟩, writeS (aluS .max)),
    (⟨.smaxLong w m, { u := umw w m, ok := fun _ => ok3 (umw w m), ops := fun _ => sDAB (umw w m) }⟩, writeS (aluS .max)),
    (⟨.sclz w, { u := ucw w, ok := fun _ => ok10 (ucw w), ops := fun _ => sDA (ucw w) }⟩, writeS (aluS .clz)),
    (⟨.sclzLong w m, { u := umw w m, ok := fun _ => ok10 (umw w m), ops := fun _ => sDA (umw w m) }⟩, writeS (aluS .clz)),
    (⟨.spopc w, { u := ucw w, ok := fun _ => ok10 (ucw w), ops := fun _ => sDA (ucw w) }⟩, writeS (aluS .popc)),
    (⟨.spopcLong w m, { u := umw w m, ok := fun _ => ok10 (umw w m), ops := fun _ => sDA (umw w m) }⟩, writeS (aluS .popc))]

/-- The immediate forms (R100). -/
noncomputable def scalarImmWords (w : CW) (v : IW) (x : XW) : List (WordForm × Upd) :=
  [(⟨.saddi v, { u := uiw v, ok := fun _ => ok2 (uiw v), ops := fun _ => sDA (uiw v) }⟩, writeS (aluI .add)),
    (⟨.saddiLong w x, { u := uiw2 w x, ok := fun _ => ok2 (uiw2 w x), ops := fun _ => sDA (uiw2 w x) }⟩, writeS (aluI .add)),
    (⟨.sandi v, { u := uiw v, ok := fun _ => ok2 (uiw v), ops := fun _ => sDA (uiw v) }⟩, writeS (aluI .and)),
    (⟨.sandiLong w x, { u := uiw2 w x, ok := fun _ => ok2 (uiw2 w x), ops := fun _ => sDA (uiw2 w x) }⟩, writeS (aluI .and)),
    (⟨.sori v, { u := uiw v, ok := fun _ => ok2 (uiw v), ops := fun _ => sDA (uiw v) }⟩, writeS (aluI .or)),
    (⟨.soriLong w x, { u := uiw2 w x, ok := fun _ => ok2 (uiw2 w x), ops := fun _ => sDA (uiw2 w x) }⟩, writeS (aluI .or)),
    (⟨.sxori v, { u := uiw v, ok := fun _ => ok2 (uiw v), ops := fun _ => sDA (uiw v) }⟩, writeS (aluI .xor)),
    (⟨.sxoriLong w x, { u := uiw2 w x, ok := fun _ => ok2 (uiw2 w x), ops := fun _ => sDA (uiw2 w x) }⟩, writeS (aluI .xor)),
    (⟨.sshli v, { u := uiw v, ok := fun _ => ok4 (uiw v), ops := fun _ => sDA (uiw v) }⟩, writeS (aluI .shl)),
    (⟨.sshliLong w x, { u := uiw2 w x, ok := fun _ => ok4 (uiw2 w x), ops := fun _ => sDA (uiw2 w x) }⟩, writeS (aluI .shl)),
    (⟨.sshri v, { u := uiw v, ok := fun _ => ok4 (uiw v), ops := fun _ => sDA (uiw v) }⟩, writeS (aluI .shr)),
    (⟨.sshriLong w x, { u := uiw2 w x, ok := fun _ => ok4 (uiw2 w x), ops := fun _ => sDA (uiw2 w x) }⟩, writeS (aluI .shr)),
    (⟨.ssrai v, { u := uiw v, ok := fun _ => ok4 (uiw v), ops := fun _ => sDA (uiw v) }⟩, writeS (aluI .sra)),
    (⟨.ssraiLong w x, { u := uiw2 w x, ok := fun _ => ok4 (uiw2 w x), ops := fun _ => sDA (uiw2 w x) }⟩, writeS (aluI .sra))]

/-- The moves, selections and bit fields of class 0 (R101). -/
noncomputable def scalarMoveWords (w : CW) (v : IW) (m : ModW) (x : XW) : List (WordForm × Upd) :=
  [(⟨.smov w, { u := ucw w, ok := fun _ => ok8 (ucw w), ops := fun _ => sDA (ucw w) }⟩, writeS (fun k => sVal k k.u.a)),
    (⟨.smovi v, { u := uiw v, ok := fun _ => ok9 (uiw v), ops := fun _ => sD (uiw v) }⟩, writeS (fun k => BitVec.ofInt 64 (immS k.u))),
    (⟨.smoviLong w x, { u := uiw2 w x, ok := fun _ => ok9 (uiw2 w x), ops := fun _ => sD (uiw2 w x) }⟩, writeS (fun k => BitVec.ofInt 64 (immS k.u))),
    (⟨.sluiShort v, { u := uiw v, ok := fun _ => ok2 (uiw v), ops := fun _ => sDA (uiw v) }⟩, writeS (fun k => w64 (srcA k * 2 ^ (if k.u.two then 25 else 11) ||| k.u.imm))),
    (⟨.slui w x, { u := uiw2 w x, ok := fun _ => ok2 (uiw2 w x), ops := fun _ => sDA (uiw2 w x) }⟩, writeS (fun k => w64 (srcA k * 2 ^ (if k.u.two then 25 else 11) ||| k.u.imm))),
    (⟨.ssel w, { u := ucw w, ok := fun _ => ok7 (ucw w), ops := fun _ => sDAB (ucw w) }⟩, writeS (fun k => if condCodes (bits k.u.card 4 0) k.x.ctl then sVal k k.u.a else sVal k k.u.b)),
    (⟨.sselLong w m, { u := umw w m, ok := fun _ => ok7 (umw w m), ops := fun _ => sDAB (umw w m) }⟩, writeS (fun k => if condCodes (bits k.u.card 4 0) k.x.ctl then sVal k k.u.a else sVal k k.u.b)),
    (⟨.sbfe w, { u := ucw w, ok := fun _ => ok11 (ucw w), ops := fun _ => sDAB (ucw w) }⟩, writeS (fun k => w64 (bfe (tyOf k.u 8 == 7) 64 (srcA k) (fieldPos 64 (srcB k)) (fieldLen 64 (srcB k))))),
    (⟨.sbfeLong w m, { u := umw w m, ok := fun _ => ok11 (umw w m), ops := fun _ => sDAB (umw w m) }⟩, writeS (fun k => w64 (bfe (tyOf k.u 8 == 7) 64 (srcA k) (fieldPos 64 (srcB k)) (fieldLen 64 (srcB k))))),
    (⟨.sbfi w, { u := ucw w, ok := fun _ => ok11 (ucw w), ops := fun _ => [dSrw (ucw w), aS (ucw w), bS (ucw w)] }⟩, writeS (fun k => w64 (bfi 64 (sVal k k.u.d).toNat (srcA k) (fieldPos 64 (srcB k)) (fieldLen 64 (srcB k))))),
    (⟨.sbfiLong w m, { u := umw w m, ok := fun _ => ok11 (umw w m), ops := fun _ => [dSrw (umw w m), aS (umw w m), bS (umw w m)] }⟩, writeS (fun k => w64 (bfi 64 (sVal k k.u.d).toNat (srcA k) (fieldPos 64 (srcB k)) (fieldLen 64 (srcB k)))))]

/-- SCMP and SCMPI (R101). -/
noncomputable def compareWords (w : CW) (v : IW) (m : ModW) (x : XW) : List (WordForm × Upd) :=
  [(⟨.scmp w, { u := ucw w, ok := fun _ => ok5 (ucw w), ops := fun _ => sAB (ucw w) }⟩, writeC (fun k => cmpCodes (tyWidth (tyOf k.u 7)) (srcA k) (srcB k))),
    (⟨.scmpLong w m, { u := umw w m, ok := fun _ => ok5 (umw w m), ops := fun _ => sAB (umw w m) }⟩, writeC (fun k => cmpCodes (tyWidth (tyOf k.u 7)) (srcA k) (srcB k))),
    (⟨.scmpi v, { u := uiw v, ok := fun _ => ok6 (uiw v), ops := fun _ => sA (uiw v) }⟩, writeC (fun k => cmpCodes 64 (srcA k) (wrapI 64 (immS k.u)))),
    (⟨.scmpiLong w x, { u := uiw2 w x, ok := fun _ => ok6 (uiw2 w x), ops := fun _ => sA (uiw2 w x) }⟩, writeC (fun k => cmpCodes 64 (srcA k) (wrapI 64 (immS k.u))))]

/-- SARG (R101). -/
noncomputable def argForms (w : CW) (v : IW) (x : XW) : List WordForm :=
  [⟨.sarg v, { u := uiw v, ok := fun _ => ok12 (uiw v), ops := fun _ => sD (uiw v) }⟩,
    ⟨.sargSx w x, { u := uiw2 w x, ok := fun _ => ok13 (uiw2 w x), ops := fun _ => sD (uiw2 w x) }⟩]

/-- The predicate words (R128). -/
noncomputable def predicateWords (w : CW) : List (WordForm × Upd) :=
  [(⟨.pand w, { u := ucw w, ok := fun _ => ok25 (ucw w), ops := fun _ => [dP (ucw w), aP (ucw w), bP (ucw w)] }⟩, writeP (fun k => prGet k.w k.u.a &&& prGet k.w k.u.b)),
    (⟨.por w, { u := ucw w, ok := fun _ => ok25 (ucw w), ops := fun _ => [dP (ucw w), aP (ucw w), bP (ucw w)] }⟩, writeP (fun k => prGet k.w k.u.a ||| prGet k.w k.u.b)),
    (⟨.pxor w, { u := ucw w, ok := fun _ => ok25 (ucw w), ops := fun _ => [dP (ucw w), aP (ucw w), bP (ucw w)] }⟩, writeP (fun k => prGet k.w k.u.a ^^^ prGet k.w k.u.b)),
    (⟨.pnot w, { u := ucw w, ok := fun _ => ok26 (ucw w), ops := fun _ => [dP (ucw w), aP (ucw w)] }⟩, writeP (fun k => ~~~(prGet k.w k.u.a))),
    (⟨.pmov w, { u := ucw w, ok := fun _ => ok26 (ucw w), ops := fun _ => [dP (ucw w), aP (ucw w)] }⟩, writeP (fun k => prGet k.w k.u.a)),
    (⟨.pfroms w, { u := ucw w, ok := fun _ => ok28 (ucw w), ops := fun _ => [dP (ucw w), aS (ucw w)] }⟩, writeP (fun k => sVal k k.u.a)),
    (⟨.ptos w, { u := ucw w, ok := fun _ => ok27 (ucw w), ops := fun _ => [dS (ucw w), aP (ucw w)] }⟩, writeS (fun k => prGet k.w k.u.a &&& allLanes k.w.width))]

/-- The integer mould of class 1 (R124). -/
noncomputable def vectorIntWords (w : CW) (m : ModW) : List (WordForm × Upd) :=
  [(⟨.vadd w, { u := ucw w, ok := fun _ => ok1 (ucw w), ops := fun _ => vDAB 5 (ucw w), lanes := true }⟩, writeV (wideAt 5) (aluV .add)),
    (⟨.vaddLong w m, { u := umw w m, ok := fun _ => ok1 (umw w m), ops := fun _ => vDAB 5 (umw w m), lanes := true }⟩, writeV (wideAt 5) (aluV .add)),
    (⟨.vsub w, { u := ucw w, ok := fun _ => ok1 (ucw w), ops := fun _ => vDAB 5 (ucw w), lanes := true }⟩, writeV (wideAt 5) (aluV .sub)),
    (⟨.vsubLong w m, { u := umw w m, ok := fun _ => ok1 (umw w m), ops := fun _ => vDAB 5 (umw w m), lanes := true }⟩, writeV (wideAt 5) (aluV .sub)),
    (⟨.vmul w, { u := ucw w, ok := fun _ => ok1 (ucw w), ops := fun _ => vDAB 5 (ucw w), lanes := true }⟩, writeV (wideAt 5) (aluV .mul)),
    (⟨.vmulLong w m, { u := umw w m, ok := fun _ => ok1 (umw w m), ops := fun _ => vDAB 5 (umw w m), lanes := true }⟩, writeV (wideAt 5) (aluV .mul)),
    (⟨.vmulhi w, { u := ucw w, ok := fun _ => ok3 (ucw w), ops := fun _ => vDAB 5 (ucw w), lanes := true }⟩, writeV (wideAt 5) (aluV .mulhi)),
    (⟨.vmulhiLong w m, { u := umw w m, ok := fun _ => ok3 (umw w m), ops := fun _ => vDAB 5 (umw w m), lanes := true }⟩, writeV (wideAt 5) (aluV .mulhi)),
    (⟨.vand w, { u := ucw w, ok := fun _ => ok3 (ucw w), ops := fun _ => vDAB 5 (ucw w), lanes := true }⟩, writeV (wideAt 5) (aluV .and)),
    (⟨.vandLong w m, { u := umw w m, ok := fun _ => ok3 (umw w m), ops := fun _ => vDAB 5 (umw w m), lanes := true }⟩, writeV (wideAt 5) (aluV .and)),
    (⟨.vor w, { u := ucw w, ok := fun _ => ok3 (ucw w), ops := fun _ => vDAB 5 (ucw w), lanes := true }⟩, writeV (wideAt 5) (aluV .or)),
    (⟨.vorLong w m, { u := umw w m, ok := fun _ => ok3 (umw w m), ops := fun _ => vDAB 5 (umw w m), lanes := true }⟩, writeV (wideAt 5) (aluV .or)),
    (⟨.vxor w, { u := ucw w, ok := fun _ => ok3 (ucw w), ops := fun _ => vDAB 5 (ucw w), lanes := true }⟩, writeV (wideAt 5) (aluV .xor)),
    (⟨.vxorLong w m, { u := umw w m, ok := fun _ => ok3 (umw w m), ops := fun _ => vDAB 5 (umw w m), lanes := true }⟩, writeV (wideAt 5) (aluV .xor)),
    (⟨.vshl w, { u := ucw w, ok := fun _ => ok3 (ucw w), ops := fun _ => vDAB 5 (ucw w), lanes := true }⟩, writeV (wideAt 5) (aluV .shl)),
    (⟨.vshlLong w m, { u := umw w m, ok := fun _ => ok3 (umw w m), ops := fun _ => vDAB 5 (umw w m), lanes := true }⟩, writeV (wideAt 5) (aluV .shl)),
    (⟨.vshr w, { u := ucw w, ok := fun _ => ok3 (ucw w), ops := fun _ => vDAB 5 (ucw w), lanes := true }⟩, writeV (wideAt 5) (aluV .shr)),
    (⟨.vshrLong w m, { u := umw w m, ok := fun _ => ok3 (umw w m), ops := fun _ => vDAB 5 (umw w m), lanes := true }⟩, writeV (wideAt 5) (aluV .shr)),
    (⟨.vsra w, { u := ucw w, ok := fun _ => ok3 (ucw w), ops := fun _ => vDAB 5 (ucw w), lanes := true }⟩, writeV (wideAt 5) (aluV .sra)),
    (⟨.vsraLong w m, { u := umw w m, ok := fun _ => ok3 (umw w m), ops := fun _ => vDAB 5 (umw w m), lanes := true }⟩, writeV (wideAt 5) (aluV .sra)),
    (⟨.vmin w, { u := ucw w, ok := fun _ => ok3 (ucw w), ops := fun _ => vDAB 5 (ucw w), lanes := true }⟩, writeV (wideAt 5) (aluV .min)),
    (⟨.vminLong w m, { u := umw w m, ok := fun _ => ok3 (umw w m), ops := fun _ => vDAB 5 (umw w m), lanes := true }⟩, writeV (wideAt 5) (aluV .min)),
    (⟨.vmax w, { u := ucw w, ok := fun _ => ok3 (ucw w), ops := fun _ => vDAB 5 (ucw w), lanes := true }⟩, writeV (wideAt 5) (aluV .max)),
    (⟨.vmaxLong w m, { u := umw w m, ok := fun _ => ok3 (umw w m), ops := fun _ => vDAB 5 (umw w m), lanes := true }⟩, writeV (wideAt 5) (aluV .max))] ++
  [(⟨.vnot w, { u := ucw w, ok := fun _ => ok10 (ucw w), ops := fun _ => vDA 5 (ucw w), lanes := true }⟩, writeV (wideAt 5) (aluV1 .not)),
    (⟨.vnotLong w m, { u := umw w m, ok := fun _ => ok10 (umw w m), ops := fun _ => vDA 5 (umw w m), lanes := true }⟩, writeV (wideAt 5) (aluV1 .not)),
    (⟨.vabs w, { u := ucw w, ok := fun _ => ok30 (ucw w), ops := fun _ => vDA 5 (ucw w), lanes := true }⟩, writeV (wideAt 5) (aluV1 .abs)),
    (⟨.vabsLong w m, { u := umw w m, ok := fun _ => ok30 (umw w m), ops := fun _ => vDA 5 (umw w m), lanes := true }⟩, writeV (wideAt 5) (aluV1 .abs)),
    (⟨.vneg w, { u := ucw w, ok := fun _ => ok30 (ucw w), ops := fun _ => vDA 5 (ucw w), lanes := true }⟩, writeV (wideAt 5) (aluV1 .neg)),
    (⟨.vnegLong w m, { u := umw w m, ok := fun _ => ok30 (umw w m), ops := fun _ => vDA 5 (umw w m), lanes := true }⟩, writeV (wideAt 5) (aluV1 .neg)),
    (⟨.vclz w, { u := ucw w, ok := fun _ => ok10 (ucw w), ops := fun _ => vDA 5 (ucw w), lanes := true }⟩, writeV (wideAt 5) (aluV1 .clz)),
    (⟨.vclzLong w m, { u := umw w m, ok := fun _ => ok10 (umw w m), ops := fun _ => vDA 5 (umw w m), lanes := true }⟩, writeV (wideAt 5) (aluV1 .clz)),
    (⟨.vpopc w, { u := ucw w, ok := fun _ => ok10 (ucw w), ops := fun _ => vDA 5 (ucw w), lanes := true }⟩, writeV (wideAt 5) (aluV1 .popc)),
    (⟨.vpopcLong w m, { u := umw w m, ok := fun _ => ok10 (umw w m), ops := fun _ => vDA 5 (umw w m), lanes := true }⟩, writeV (wideAt 5) (aluV1 .popc))]

/-- Immediates, multiply-adds, bit fields, selections and moves of class 1, and its floating bit operations (R125, R126, R129, R132). -/
noncomputable def vectorMoveWords (w : CW) (v : IW) (m : ModW) (x : XW) : List (WordForm × Upd) :=
  [(⟨.vaddi v, { u := uiw v, ok := fun _ => ok2 (uiw v), ops := fun _ => [dV (uiw v) 1, aV (uiw v) 1], lanes := true }⟩, writeV (fun _ => false) (fun k l => aluBits .add true false 32 (laneA 5 k l) (wrapI 32 (immS k.u)))),
    (⟨.vaddiLong w x, { u := uiw2 w x, ok := fun _ => ok2 (uiw2 w x), ops := fun _ => [dV (uiw2 w x) 1, aV (uiw2 w x) 1], lanes := true }⟩, writeV (fun _ => false) (fun k l => aluBits .add true false 32 (laneA 5 k l) (wrapI 32 (immS k.u)))),
    (⟨.vmovi v, { u := uiw v, ok := fun _ => ok9 (uiw v), ops := fun _ => [dV (uiw v) 1], lanes := true }⟩, writeV (fun _ => false) (fun k _ => wrapI 32 (immS k.u))),
    (⟨.vmoviLong w x, { u := uiw2 w x, ok := fun _ => ok9 (uiw2 w x), ops := fun _ => [dV (uiw2 w x) 1], lanes := true }⟩, writeV (fun _ => false) (fun k _ => wrapI 32 (immS k.u))),
    (⟨.vmad w m, { u := umw w m, ok := fun _ => ok29 (umw w m), ops := fun _ => vDABC 5 (umw w m), lanes := true }⟩, writeV (wideAt 5) madV),
    (⟨.vdot4 w m, { u := umw w m, ok := fun _ => ok36 (umw w m), ops := fun _ => [dV (umw w m) 1, aV (umw w m) 1, bV (umw w m) 1, cV (umw w m) 1], lanes := true }⟩, writeV (fun _ => false) dot4V),
    (⟨.vbfe w, { u := ucw w, ok := fun _ => ok31 (ucw w), ops := fun _ => [dV (ucw w) 1, aV (ucw w) 1, bV (ucw w) 1], lanes := true }⟩, writeV (fun _ => false) (fun k l => bfe (tyOf k.u 6 == 5) 32 (vVal k 6 k.u.a l) (fieldPos 32 (vVal k 6 k.u.b l)) (fieldLen 32 (vVal k 6 k.u.b l)))),
    (⟨.vbfeLong w m, { u := umw w m, ok := fun _ => ok31 (umw w m), ops := fun _ => [dV (umw w m) 1, aV (umw w m) 1, bV (umw w m) 1], lanes := true }⟩, writeV (fun _ => false) (fun k l => bfe (tyOf k.u 6 == 5) 32 (vVal k 6 k.u.a l) (fieldPos 32 (vVal k 6 k.u.b l)) (fieldLen 32 (vVal k 6 k.u.b l)))),
    (⟨.vbfi w, { u := ucw w, ok := fun _ => ok32 (ucw w), ops := fun _ => [dVrw (ucw w), aV (ucw w) 1, bV (ucw w) 1], lanes := true }⟩, writeV (fun _ => false) (fun k l => bfi 32 (vVal k 6 k.u.d l) (vVal k 6 k.u.a l) (fieldPos 32 (vVal k 6 k.u.b l)) (fieldLen 32 (vVal k 6 k.u.b l)))),
    (⟨.vbfiLong w m, { u := umw w m, ok := fun _ => ok32 (umw w m), ops := fun _ => [dVrw (umw w m), aV (umw w m) 1, bV (umw w m) 1], lanes := true }⟩, writeV (fun _ => false) (fun k l => bfi 32 (vVal k 6 k.u.d l) (vVal k 6 k.u.a l) (fieldPos 32 (vVal k 6 k.u.b l)) (fieldLen 32 (vVal k 6 k.u.b l)))),
    (⟨.vsel w, { u := ucw w, ok := fun _ => ok33 (ucw w), ops := fun _ => vDAB 6 (ucw w), lanes := true }⟩, writeV (wideAt 6) (fun k l => if (prGet k.w (bits k.u.card 4 0)).getLsbD l then laneA 6 k l else vVal k (tyOf k.u 6) k.u.b l)),
    (⟨.vselLong w m, { u := umw w m, ok := fun _ => ok33 (umw w m), ops := fun _ => vDAB 6 (umw w m), lanes := true }⟩, writeV (wideAt 6) (fun k l => if (prGet k.w (bits k.u.card 4 0)).getLsbD l then laneA 6 k l else vVal k (tyOf k.u 6) k.u.b l)),
    (⟨.vmov w, { u := ucw w, ok := fun _ => ok34 (ucw w), ops := fun _ => vDA 6 (ucw w), lanes := true }⟩, writeV (wideAt 6) (laneA 6)),
    (⟨.vmovLong w m, { u := umw w m, ok := fun _ => ok34 (umw w m), ops := fun _ => vDA 6 (umw w m), lanes := true }⟩, writeV (wideAt 6) (laneA 6)),
    (⟨.vbcast w, { u := ucw w, ok := fun _ => ok34 (ucw w), ops := fun _ => [dV (ucw w) (nOf (tyOf (ucw w) 6)), aS (ucw w)], lanes := true }⟩, writeV (wideAt 6) (fun k _ => srcA k % 2 ^ tyWidth (tyOf k.u 6))),
    (⟨.vbcastLong w m, { u := umw w m, ok := fun _ => ok34 (umw w m), ops := fun _ => [dV (umw w m) (nOf (tyOf (umw w m) 6)), aS (umw w m)], lanes := true }⟩, writeV (wideAt 6) (fun k _ => srcA k % 2 ^ tyWidth (tyOf k.u 6))),
    (⟨.vfabs w, { u := ucw w, ok := fun _ => ok40 (ucw w), ops := fun _ => vDA 10 (ucw w), lanes := true }⟩, writeV (wideAt 10) (fun k l => mapEl (tyOf k.u 10) (fun j => (fun x w => x % 2 ^ (w - 1)) (elem (tyWidth (tyOf k.u 10)) j (laneA 10 k l)) (tyWidth (tyOf k.u 10))))),
    (⟨.vfabsLong w m, { u := umw w m, ok := fun _ => ok40 (umw w m), ops := fun _ => vDA 10 (umw w m), lanes := true }⟩, writeV (wideAt 10) (fun k l => mapEl (tyOf k.u 10) (fun j => (fun x w => x % 2 ^ (w - 1)) (elem (tyWidth (tyOf k.u 10)) j (laneA 10 k l)) (tyWidth (tyOf k.u 10))))),
    (⟨.vfneg w, { u := ucw w, ok := fun _ => ok40 (ucw w), ops := fun _ => vDA 10 (ucw w), lanes := true }⟩, writeV (wideAt 10) (fun k l => mapEl (tyOf k.u 10) (fun j => (fun x w => x ^^^ 2 ^ (w - 1)) (elem (tyWidth (tyOf k.u 10)) j (laneA 10 k l)) (tyWidth (tyOf k.u 10))))),
    (⟨.vfnegLong w m, { u := umw w m, ok := fun _ => ok40 (umw w m), ops := fun _ => vDA 10 (umw w m), lanes := true }⟩, writeV (wideAt 10) (fun k l => mapEl (tyOf k.u 10) (fun j => (fun x w => x ^^^ 2 ^ (w - 1)) (elem (tyWidth (tyOf k.u 10)) j (laneA 10 k l)) (tyWidth (tyOf k.u 10))))),
    (⟨.vfclass w, { u := ucw w, ok := fun _ => ok40 (ucw w), ops := fun _ => [dV (ucw w) 1, aV (ucw w) (nOf (tyOf (ucw w) 10))], lanes := true }⟩, writeV (fun _ => false) (fun k l => let c := fun j => classBit (fmtOf (tyOf k.u 10)) (elem (tyWidth (tyOf k.u 10)) j (laneA 10 k l)); if elemsOf (tyOf k.u 10) == 2 then c 0 + 2 ^ 16 * c 1 else c 0)),
    (⟨.vfclassLong w m, { u := umw w m, ok := fun _ => ok40 (umw w m), ops := fun _ => [dV (umw w m) 1, aV (umw w m) (nOf (tyOf (umw w m) 10))], lanes := true }⟩, writeV (fun _ => false) (fun k l => let c := fun j => classBit (fmtOf (tyOf k.u 10)) (elem (tyWidth (tyOf k.u 10)) j (laneA 10 k l)); if elemsOf (tyOf k.u 10) == 2 then c 0 + 2 ^ 16 * c 1 else c 0))]

/-- Shuffles, matches, votes, a lane read, comparisons (R127, R137 to R139, R142, R143). -/
noncomputable def crossLaneWords (w : CW) (m : ModW) : List (WordForm × Upd) :=
  [(⟨.vshfl w, { u := ucw w, ok := fun _ => ok35 (ucw w), ops := fun _ => [dV (ucw w) (nOf (tyOf (ucw w) 6)), aV (ucw w) (nOf (tyOf (ucw w) 6)), bV (ucw w) 1], lanes := true }⟩, writeV (wideAt 6) (fun k l => laneA 6 k (vVal k 6 k.u.b l % k.w.width))),
    (⟨.vshflLong w m, { u := umw w m, ok := fun _ => ok35 (umw w m), ops := fun _ => [dV (umw w m) (nOf (tyOf (umw w m) 6)), aV (umw w m) (nOf (tyOf (umw w m) 6)), bV (umw w m) 1], lanes := true }⟩, writeV (wideAt 6) (fun k l => laneA 6 k (vVal k 6 k.u.b l % k.w.width))),
    (⟨.vshflx w, { u := ucw w, ok := fun _ => ok35 (ucw w), ops := fun _ => [dV (ucw w) (nOf (tyOf (ucw w) 6)), aV (ucw w) (nOf (tyOf (ucw w) 6)), bS (ucw w)], lanes := true }⟩, writeV (wideAt 6) (fun k l => laneA 6 k (if l ^^^ srcB k % 64 < k.w.width then l ^^^ srcB k % 64 else l))),
    (⟨.vshflxLong w m, { u := umw w m, ok := fun _ => ok35 (umw w m), ops := fun _ => [dV (umw w m) (nOf (tyOf (umw w m) 6)), aV (umw w m) (nOf (tyOf (umw w m) 6)), bS (umw w m)], lanes := true }⟩, writeV (wideAt 6) (fun k l => laneA 6 k (if l ^^^ srcB k % 64 < k.w.width then l ^^^ srcB k % 64 else l))),
    (⟨.vshflup w, { u := ucw w, ok := fun _ => ok35 (ucw w), ops := fun _ => [dV (ucw w) (nOf (tyOf (ucw w) 6)), aV (ucw w) (nOf (tyOf (ucw w) 6)), bS (ucw w)], lanes := true }⟩, writeV (wideAt 6) (fun k l => laneA 6 k (if srcB k % 64 ≤ l then l - srcB k % 64 else l))),
    (⟨.vshflupLong w m, { u := umw w m, ok := fun _ => ok35 (umw w m), ops := fun _ => [dV (umw w m) (nOf (tyOf (umw w m) 6)), aV (umw w m) (nOf (tyOf (umw w m) 6)), bS (umw w m)], lanes := true }⟩, writeV (wideAt 6) (fun k l => laneA 6 k (if srcB k % 64 ≤ l then l - srcB k % 64 else l))),
    (⟨.vshfldn w, { u := ucw w, ok := fun _ => ok35 (ucw w), ops := fun _ => [dV (ucw w) (nOf (tyOf (ucw w) 6)), aV (ucw w) (nOf (tyOf (ucw w) 6)), bS (ucw w)], lanes := true }⟩, writeV (wideAt 6) (fun k l => laneA 6 k (if l + srcB k % 64 < k.w.width then l + srcB k % 64 else l))),
    (⟨.vshfldnLong w m, { u := umw w m, ok := fun _ => ok35 (umw w m), ops := fun _ => [dV (umw w m) (nOf (tyOf (umw w m) 6)), aV (umw w m) (nOf (tyOf (umw w m) 6)), bS (umw w m)], lanes := true }⟩, writeV (wideAt 6) (fun k l => laneA 6 k (if l + srcB k % 64 < k.w.width then l + srcB k % 64 else l))),
    (⟨.vmatch w, { u := ucw w, ok := fun _ => ok34 (ucw w), ops := fun width => [dV (ucw w) (matchSyms width), aV (ucw w) (nOf (tyOf (ucw w) 6))], lanes := true }⟩, writeV (fun k => k.w.width == 64) (fun k l => (laneSet ((lanesOf k.live).filter (fun j => laneA 6 k j == laneA 6 k l))).toNat)),
    (⟨.vmatchLong w m, { u := umw w m, ok := fun _ => ok34 (umw w m), ops := fun width => [dV (umw w m) (matchSyms width), aV (umw w m) (nOf (tyOf (umw w m) 6))], lanes := true }⟩, writeV (fun k => k.w.width == 64) (fun k l => (laneSet ((lanesOf k.live).filter (fun j => laneA 6 k j == laneA 6 k l))).toNat)),
    (⟨.vlane w, { u := ucw w, ok := fun _ => ok35 (ucw w), ops := fun _ => [dS (ucw w), aV (ucw w) (nOf (tyOf (ucw w) 6)), bS (ucw w)] }⟩, writeS (fun k => w64 (laneA 6 k (srcB k % k.w.width)))),
    (⟨.vlaneLong w m, { u := umw w m, ok := fun _ => ok35 (umw w m), ops := fun _ => [dS (umw w m), aV (umw w m) (nOf (tyOf (umw w m) 6)), bS (umw w m)] }⟩, writeS (fun k => w64 (laneA 6 k (srcB k % k.w.width)))),
    (⟨.vvote w, { u := ucw w, ok := fun _ => ok45 (ucw w), ops := fun _ => [dS (ucw w), aP (ucw w)], lanes := true, always := [0] }⟩, writeS (fun k => let p := prGet k.w k.u.a &&& k.live; match bits k.u.card 1 0 with | 0 => p | 1 => if p != 0 then 1 else 0 | 2 => if p == k.live then 1 else 0 | _ => if p == k.live || p == 0 then 1 else 0)),
    (⟨.vvoteLong w m, { u := umw w m, ok := fun _ => ok45 (umw w m), ops := fun _ => [dS (umw w m), aP (umw w m)], lanes := true, always := [0] }⟩, writeS (fun k => let p := prGet k.w k.u.a &&& k.live; match bits k.u.card 1 0 with | 0 => p | 1 => if p != 0 then 1 else 0 | 2 => if p == k.live then 1 else 0 | _ => if p == k.live || p == 0 then 1 else 0)),
    (⟨.vcmp w, { u := ucw w, ok := fun _ => ok37 (ucw w), ops := fun _ => [dP (ucw w), aV (ucw w) (nOf (tyOf (ucw w) 5)), bV (ucw w) (nOf (tyOf (ucw w) 5))], lanes := true }⟩, fun k => writeL k.u.d (fun k l => let v := fun f => sval (isSigned (tyOf k.u 5)) (tyWidth (tyOf k.u 5)) (vVal k (tyOf k.u 5) f l); cmpInt (bits k.u.card 2 0) (v k.u.a) (v k.u.b)) k),
    (⟨.vcmpLong w m, { u := umw w m, ok := fun _ => ok37 (umw w m), ops := fun _ => [dP (umw w m), aV (umw w m) (nOf (tyOf (umw w m) 5)), bV (umw w m) (nOf (tyOf (umw w m) 5))], lanes := true }⟩, fun k => writeL k.u.d (fun k l => let v := fun f => sval (isSigned (tyOf k.u 5)) (tyWidth (tyOf k.u 5)) (vVal k (tyOf k.u 5) f l); cmpInt (bits k.u.card 2 0) (v k.u.a) (v k.u.b)) k)]

/-- VTOPK (R144). -/
noncomputable def topkForms (w : CW) (m : ModW) : List WordForm :=
  [⟨.vtopk w m, { u := umw w m, ok := fun _ => ok49 (umw w m), ops := fun _ => [dV (umw w m) 1, aV (umw w m) 1, bS (umw w m), cPw (umw w m)], lanes := true, always := [2] }⟩]

/-- The floating words of class 1 whose destination has their own type (R129). -/
noncomputable def floatWords (w : CW) (m : ModW) : List (WordForm × (IC → Nat → Nat × Exc)) :=
  [(⟨.vfadd w, { u := ucw w, ok := fun _ => ok38 (ucw w), ops := fun _ => vDAB 10 (ucw w), lanes := true }⟩, fltBin fAdd),
    (⟨.vfaddLong w m, { u := umw w m, ok := fun _ => ok38 (umw w m), ops := fun _ => vDAB 10 (umw w m), lanes := true }⟩, fltBin fAdd),
    (⟨.vfsub w, { u := ucw w, ok := fun _ => ok38 (ucw w), ops := fun _ => vDAB 10 (ucw w), lanes := true }⟩, fltBin fSub),
    (⟨.vfsubLong w m, { u := umw w m, ok := fun _ => ok38 (umw w m), ops := fun _ => vDAB 10 (umw w m), lanes := true }⟩, fltBin fSub),
    (⟨.vfmul w, { u := ucw w, ok := fun _ => ok38 (ucw w), ops := fun _ => vDAB 10 (ucw w), lanes := true }⟩, fltBin fMul),
    (⟨.vfmulLong w m, { u := umw w m, ok := fun _ => ok38 (umw w m), ops := fun _ => vDAB 10 (umw w m), lanes := true }⟩, fltBin fMul),
    (⟨.vfmin w, { u := ucw w, ok := fun _ => ok38 (ucw w), ops := fun _ => vDAB 10 (ucw w), lanes := true }⟩, fltMinMax false),
    (⟨.vfminLong w m, { u := umw w m, ok := fun _ => ok38 (umw w m), ops := fun _ => vDAB 10 (umw w m), lanes := true }⟩, fltMinMax false),
    (⟨.vfmax w, { u := ucw w, ok := fun _ => ok38 (ucw w), ops := fun _ => vDAB 10 (ucw w), lanes := true }⟩, fltMinMax true),
    (⟨.vfmaxLong w m, { u := umw w m, ok := fun _ => ok38 (umw w m), ops := fun _ => vDAB 10 (umw w m), lanes := true }⟩, fltMinMax true),
    (⟨.vfma w m, { u := umw w m, ok := fun _ => ok39 (umw w m), ops := fun _ => vDABC 10 (umw w m), lanes := true }⟩, fltFma),
    (⟨.vfrnd w, { u := ucw w, ok := fun _ => ok43 (ucw w), ops := fun _ => vDA 10 (ucw w), lanes := true }⟩, fltRnd),
    (⟨.vfrndLong w m, { u := umw w m, ok := fun _ => ok43 (umw w m), ops := fun _ => vDA 10 (umw w m), lanes := true }⟩, fltRnd)]

/-- VFDOT2 (R130). -/
noncomputable def dotForms (w : CW) (m : ModW) : List WordForm :=
  [⟨.vfdot2 w m, { u := umw w m, ok := fun _ => ok44 (umw w m), ops := fun _ => [dV (umw w m) 1, aV (umw w m) 1, bV (umw w m) 1, cV (umw w m) 1], lanes := true }⟩]

/-- VFCMP (R131). -/
noncomputable def floatCmpForms (w : CW) (m : ModW) : List WordForm :=
  [⟨.vfcmp w, { u := ucw w, ok := fun _ => ok41 (ucw w), ops := fun _ => [dP (ucw w), aV (ucw w) (nOf (tyOf (ucw w) 10)), bV (ucw w) (nOf (tyOf (ucw w) 10))], lanes := true }⟩,
    ⟨.vfcmpLong w m, { u := umw w m, ok := fun _ => ok41 (umw w m), ops := fun _ => [dP (umw w m), aV (umw w m) (nOf (tyOf (umw w m) 10)), bV (umw w m) (nOf (tyOf (umw w m) 10))], lanes := true }⟩]

/-- VCVT (R133). -/
noncomputable def cvtForms (w : CW) (m : ModW) : List WordForm :=
  [⟨.vcvt w m, { u := umw w m, ok := fun _ => ok42 (umw w m), ops := fun _ => [{ dV (umw w m) (nOf ((umw w m)).ty) with rd := true }, aV (umw w m) (nOf ((umw w m)).ty2)], lanes := true }⟩]

/-- VREDADD, VREDMIN and VREDMAX (R140). -/
noncomputable def reduceWords (w : CW) (m : ModW) : List (WordForm × RedOp) :=
  [(⟨.vredadd w, { u := ucw w, ok := fun _ => ok46 (ucw w), ops := fun _ => [dS (ucw w), aV (ucw w) (nOf (tyOf (ucw w) 5))], lanes := true, always := [0] }⟩, .add),
    (⟨.vredaddLong w m, { u := umw w m, ok := fun _ => ok46 (umw w m), ops := fun _ => [dS (umw w m), aV (umw w m) (nOf (tyOf (umw w m) 5))], lanes := true, always := [0] }⟩, .add),
    (⟨.vredmin w, { u := ucw w, ok := fun _ => ok47 (ucw w), ops := fun _ => [dS (ucw w), aV (ucw w) (nOf (tyOf (ucw w) 5))], lanes := true, always := [0] }⟩, .min),
    (⟨.vredminLong w m, { u := umw w m, ok := fun _ => ok47 (umw w m), ops := fun _ => [dS (umw w m), aV (umw w m) (nOf (tyOf (umw w m) 5))], lanes := true, always := [0] }⟩, .min),
    (⟨.vredmax w, { u := ucw w, ok := fun _ => ok47 (ucw w), ops := fun _ => [dS (ucw w), aV (ucw w) (nOf (tyOf (ucw w) 5))], lanes := true, always := [0] }⟩, .max),
    (⟨.vredmaxLong w m, { u := umw w m, ok := fun _ => ok47 (umw w m), ops := fun _ => [dS (umw w m), aV (umw w m) (nOf (tyOf (umw w m) 5))], lanes := true, always := [0] }⟩, .max)]

/-- VSCAN (R141). -/
noncomputable def scanForms (w : CW) (m : ModW) : List WordForm :=
  [⟨.vscan w, { u := ucw w, ok := fun _ => ok48 (ucw w), ops := fun _ => [dV (ucw w) 1, aV (ucw w) 1], lanes := true }⟩,
    ⟨.vscanLong w m, { u := umw w m, ok := fun _ => ok48 (umw w m), ops := fun _ => [dV (umw w m) 1, aV (umw w m) 1], lanes := true }⟩]

/-- The special-function words of class 2 with the number of their function (R134). -/
noncomputable def specialWords (w : CW) (m : ModW) : List (WordForm × Nat) :=
  [(⟨.vex2 w, { u := ucw w, ok := fun _ => ok50 (ucw w), ops := fun _ => [dV (ucw w) 1, aV (ucw w) 1], lanes := true, always := [0] }⟩, 0),
    (⟨.vex2Long w m, { u := umw w m, ok := fun _ => ok50 (umw w m), ops := fun _ => [dV (umw w m) 1, aV (umw w m) 1], lanes := true, always := [0] }⟩, 0),
    (⟨.vlg2 w, { u := ucw w, ok := fun _ => ok50 (ucw w), ops := fun _ => [dV (ucw w) 1, aV (ucw w) 1], lanes := true, always := [0] }⟩, 1),
    (⟨.vlg2Long w m, { u := umw w m, ok := fun _ => ok50 (umw w m), ops := fun _ => [dV (umw w m) 1, aV (umw w m) 1], lanes := true, always := [0] }⟩, 1),
    (⟨.vrcp w, { u := ucw w, ok := fun _ => ok51 (ucw w), ops := fun _ => [dV (ucw w) 1, aV (ucw w) 1], lanes := true, always := [0] }⟩, 2),
    (⟨.vrcpLong w m, { u := umw w m, ok := fun _ => ok51 (umw w m), ops := fun _ => [dV (umw w m) 1, aV (umw w m) 1], lanes := true, always := [0] }⟩, 2),
    (⟨.vrsq w, { u := ucw w, ok := fun _ => ok51 (ucw w), ops := fun _ => [dV (ucw w) 1, aV (ucw w) 1], lanes := true, always := [0] }⟩, 3),
    (⟨.vrsqLong w m, { u := umw w m, ok := fun _ => ok51 (umw w m), ops := fun _ => [dV (umw w m) 1, aV (umw w m) 1], lanes := true, always := [0] }⟩, 3),
    (⟨.vsqrt w, { u := ucw w, ok := fun _ => ok51 (ucw w), ops := fun _ => [dV (ucw w) 1, aV (ucw w) 1], lanes := true, always := [0] }⟩, 4),
    (⟨.vsqrtLong w m, { u := umw w m, ok := fun _ => ok51 (umw w m), ops := fun _ => [dV (umw w m) 1, aV (umw w m) 1], lanes := true, always := [0] }⟩, 4),
    (⟨.vsin w, { u := ucw w, ok := fun _ => ok50 (ucw w), ops := fun _ => [dV (ucw w) 1, aV (ucw w) 1], lanes := true, always := [0] }⟩, 5),
    (⟨.vsinLong w m, { u := umw w m, ok := fun _ => ok50 (umw w m), ops := fun _ => [dV (umw w m) 1, aV (umw w m) 1], lanes := true, always := [0] }⟩, 5),
    (⟨.vcos w, { u := ucw w, ok := fun _ => ok50 (ucw w), ops := fun _ => [dV (ucw w) 1, aV (ucw w) 1], lanes := true, always := [0] }⟩, 6),
    (⟨.vcosLong w m, { u := umw w m, ok := fun _ => ok50 (umw w m), ops := fun _ => [dV (umw w m) 1, aV (umw w m) 1], lanes := true, always := [0] }⟩, 6),
    (⟨.vtanh w, { u := ucw w, ok := fun _ => ok50 (ucw w), ops := fun _ => [dV (ucw w) 1, aV (ucw w) 1], lanes := true, always := [0] }⟩, 7),
    (⟨.vtanhLong w m, { u := umw w m, ok := fun _ => ok50 (umw w m), ops := fun _ => [dV (umw w m) 1, aV (umw w m) 1], lanes := true, always := [0] }⟩, 7)]

/-- NOP (R115). -/
noncomputable def nopForms (w : CW) : List WordForm :=
  [⟨.nop w, { u := ucw w, ok := fun _ => ok0 (ucw w) }⟩]

/-- YIELD (R115). -/
noncomputable def yieldForms (w : CW) : List WordForm :=
  [⟨.yield w, { u := ucw w, ok := fun _ => ok0 (ucw w), last := true }⟩]

/-- WAITCNT (R115). -/
noncomputable def waitcntForms (v : IW) : List WordForm :=
  [⟨.waitcnt v, { u := uiw v, ok := fun _ => ok22 (uiw v) }⟩]

/-- WIN and the immediate form of MODE (R47, R115, R116). -/
noncomputable def controlWords (w : CW) (v : IW) (x : XW) : List (WordForm × Upd) :=
  [(⟨.win v, { u := uiw v, ok := fun _ => ok23 (uiw v) }⟩, writeC (fun k => setWin k.u.d k.u.imm)),
    (⟨.modeFields w x, { u := uiw2 w x, ok := fun _ => ok24 (uiw2 w x) }⟩, writeC (fun k c => { c with mode := (c.mode &&& ~~~w32 (modeMask (bits k.u.imm 22 13))) ||| (w32 (bits k.u.imm 12 0) &&& w32 (modeMask (bits k.u.imm 22 13))) }))]

/-- MODE from a scalar (R52, R115). -/
noncomputable def modeForms (w : CW) : List WordForm :=
  [⟨.modeW w, { u := ucw w, ok := fun _ => ok16 (ucw w), ops := fun _ => sA (ucw w) }⟩]

/-- BR (R103). -/
noncomputable def brForms (w : CW) (v : IW) (x : XW) : List WordForm :=
  [⟨.br v, { u := uiw v, ok := fun _ => ok14 (uiw v), last := true }⟩,
    ⟨.brLong w x, { u := uiw2 w x, ok := fun _ => ok14 (uiw2 w x), last := true }⟩]

/-- JMP (R103). -/
noncomputable def jmpForms (w : CW) (v : IW) (x : XW) : List WordForm :=
  [⟨.jmp v, { u := uiw v, ok := fun _ => ok15 (uiw v), last := true }⟩,
    ⟨.jmpLong w x, { u := uiw2 w x, ok := fun _ => ok15 (uiw2 w x), last := true }⟩]

/-- CALL (R103). -/
noncomputable def callForms (w : CW) (v : IW) (x : XW) : List WordForm :=
  [⟨.call v, { u := uiw v, ok := fun _ => ok9 (uiw v), ops := fun _ => sD (uiw v), last := true }⟩,
    ⟨.callLong w x, { u := uiw2 w x, ok := fun _ => ok9 (uiw2 w x), ops := fun _ => sD (uiw2 w x), last := true }⟩]

/-- RET (R103). -/
noncomputable def retForms (w : CW) : List WordForm :=
  [⟨.ret w, { u := ucw w, ok := fun _ => ok16 (ucw w), ops := fun _ => sA (ucw w), last := true }⟩]

/-- IF (R107, R108). -/
noncomputable def ifForms (w : CW) : List WordForm :=
  [⟨.ifW w, { u := ucw w, ok := fun _ => ok17 (ucw w), last := true }⟩]

/-- ELSE (R108). -/
noncomputable def elseForms (w : CW) : List WordForm :=
  [⟨.elseW w, { u := ucw w, ok := fun _ => ok18 (ucw w), last := true }⟩]

/-- ENDIF (R108). -/
noncomputable def endifForms (w : CW) : List WordForm :=
  [⟨.endif w, { u := ucw w, ok := fun _ => ok18 (ucw w), last := true }⟩]

/-- LOOP with its iteration count, none when unbounded (R109). -/
noncomputable def loopWords (w : CW) (x : XW) : List (WordForm × (IC → Option Nat)) :=
  [(⟨.loopW w, { u := ucw w, ok := fun _ => ok19 (ucw w), ops := fun _ => (if ((ucw w)).b == 1 then sA (ucw w) else []), last := true }⟩, fun k => if k.u.b == 1 then some (srcA k) else none),
    (⟨.loopImm w x, { u := uiw2 w x, ok := fun _ => ok20 (uiw2 w x), last := true }⟩, fun k => some k.u.imm)]

/-- BREAK and CONT (R109). -/
noncomputable def leaveWords (w : CW) : List (WordForm × Bool) :=
  [(⟨.breakW w, { u := ucw w, ok := fun _ => ok21 (ucw w), last := true }⟩, true),
    (⟨.contW w, { u := ucw w, ok := fun _ => ok21 (ucw w), last := true }⟩, false)]

/-- ENDLOOP (R109). -/
noncomputable def endloopForms (w : CW) : List WordForm :=
  [⟨.endloop w, { u := ucw w, ok := fun _ => ok18 (ucw w), last := true }⟩]

/-- END (R117). -/
noncomputable def endForms (w : CW) : List WordForm :=
  [⟨.endW w, { u := ucw w, ok := fun _ => ok0 (ucw w), last := true }⟩]

/-- BAR.ARR (R119). -/
noncomputable def barArrForms (w : CW) : List WordForm :=
  [⟨.barArr w, { u := ucw w, ok := fun _ => ok16 (ucw w), ops := fun _ => [aBar (ucw w)] }⟩]

/-- BAR.WAIT (R119). -/
noncomputable def barWaitForms (w : CW) : List WordForm :=
  [⟨.barWait w, { u := ucw w, ok := fun _ => ok16 (ucw w), ops := fun _ => [aBar (ucw w)], last := true }⟩]

/-- BAR.SYNC (R119). -/
noncomputable def barSyncForms (w : CW) : List WordForm :=
  [⟨.barSync w, { u := ucw w, ok := fun _ => ok16 (ucw w), ops := fun _ => [aBar (ucw w)], last := true }⟩]

/-- BAR.DROP (R121). -/
noncomputable def barDropForms (w : CW) : List WordForm :=
  [⟨.barDrop w, { u := ucw w, ok := fun _ => ok16 (ucw w), ops := fun _ => [aBar (ucw w)] }⟩]

/-- LD (R157). -/
noncomputable def ldForms (w : CW) (n : MemW) : List WordForm :=
  [⟨.ld w, { u := ucw w, ok := fun _ => ok52 (ucw w), ops := fun _ => dV (ucw w) (memSyms (ucw w)) :: opsAB (ucw w), lanes := true, always := [0], addr := eaLow (bit ((ucw w)).card 1) }⟩,
    ⟨.ldLong w n, { u := uxw w n, ok := fun _ => ok52 (uxw w n), ops := fun _ => dV (uxw w n) (memSyms (uxw w n)) :: opsAB (uxw w n), lanes := true, always := [0], addr := eaLow (bit ((uxw w n)).card 1) }⟩]

/-- ST (R158). -/
noncomputable def stForms (w : CW) (n : MemW) : List WordForm :=
  [⟨.st w, { u := ucw w, ok := fun _ => ok53 (ucw w), ops := fun _ => dVr (ucw w) (memSyms (ucw w)) :: opsAB (ucw w), lanes := true, addr := eaLow (bit ((ucw w)).card 1) }⟩,
    ⟨.stLong w n, { u := uxw w n, ok := fun _ => ok53 (uxw w n), ops := fun _ => dVr (uxw w n) (memSyms (uxw w n)) :: opsAB (uxw w n), lanes := true, addr := eaLow (bit ((uxw w n)).card 1) }⟩]

/-- LDS (R161). -/
noncomputable def ldsForms (w : CW) (n : MemW) : List WordForm :=
  [⟨.lds w, { u := ucw w, ok := fun _ => ok54 (ucw w), ops := fun _ => dV (ucw w) (memSyms (ucw w)) :: aBuf (ucw w) :: (if ((ucw w)).nx == 1 then [] else [bV (ucw w) 1]), lanes := true, always := [0], addr := bufLow }⟩,
    ⟨.ldsLong w n, { u := uxw w n, ok := fun _ => ok54 (uxw w n), ops := fun _ => dV (uxw w n) (memSyms (uxw w n)) :: aBuf (uxw w n) :: (if ((uxw w n)).nx == 1 then [] else [bV (uxw w n) 1]), lanes := true, always := [0], addr := bufLow }⟩]

/-- STS (R161). -/
noncomputable def stsForms (w : CW) (n : MemW) : List WordForm :=
  [⟨.sts w, { u := ucw w, ok := fun _ => ok55 (ucw w), ops := fun _ => dVr (ucw w) (memSyms (ucw w)) :: aBufW (ucw w) :: (if ((ucw w)).nx == 1 then [] else [bV (ucw w) 1]), lanes := true, addr := bufLow }⟩,
    ⟨.stsLong w n, { u := uxw w n, ok := fun _ => ok55 (uxw w n), ops := fun _ => dVr (uxw w n) (memSyms (uxw w n)) :: aBufW (uxw w n) :: (if ((uxw w n)).nx == 1 then [] else [bV (uxw w n) 1]), lanes := true, addr := bufLow }⟩]

/-- FENCE (R162). -/
noncomputable def fenceForms (w : CW) (n : MemW) : List WordForm :=
  [⟨.fence w, { u := ucw w, ok := fun _ => ok62 (ucw w) }⟩,
    ⟨.fenceLong w n, { u := uxw w n, ok := fun _ => ok62 (uxw w n) }⟩]

/-- FENCE.I (R164). -/
noncomputable def fenceIForms (w : CW) : List WordForm :=
  [⟨.fenceI w, { u := ucw w, ok := fun _ => ok0 (ucw w) }⟩]

/-- PREF (R165). -/
noncomputable def prefForms (w : CW) (n : MemW) : List WordForm :=
  [⟨.pref w, { u := ucw w, ok := fun _ => ok63 (ucw w), ops := fun _ => opsAB (ucw w), lanes := true, addr := eaLow (bit (ucw w).card 1) }⟩,
    ⟨.prefLong w n, { u := uxw w n, ok := fun _ => ok63 (uxw w n), ops := fun _ => opsAB (uxw w n), lanes := true, addr := eaLow (bit (uxw w n).card 1) }⟩]

/-- CWB (R166). -/
noncomputable def cwbForms (w : CW) (n : MemW) : List WordForm :=
  [⟨.cwb w, { u := ucw w, ok := fun _ => ok64 (ucw w), ops := fun _ => opsAB (ucw w), lanes := true, addr := eaLow (bit ((ucw w)).card 1) }⟩,
    ⟨.cwbLong w n, { u := uxw w n, ok := fun _ => ok64 (uxw w n), ops := fun _ => opsAB (uxw w n), lanes := true, addr := eaLow (bit ((uxw w n)).card 1) }⟩]

/-- ATOM (R180). -/
noncomputable def atomForms (w : CW) (n : MemW) : List WordForm :=
  [⟨.atom w n, { u := uxw w n, ok := fun _ => ok59 (uxw w n), ops := fun _ => atOpsATOM (uxw w n), lanes := true, always := [0], addr := eaLow (atUns (uxw w n)) }⟩]

/-- RED (R181). -/
noncomputable def redForms (w : CW) (n : MemW) : List WordForm :=
  [⟨.red w n, { u := uxw w n, ok := fun _ => ok60 (uxw w n), ops := fun _ => atOpsRED (uxw w n), lanes := true, addr := eaLow (atUns (uxw w n)) }⟩]

/-- WAITC (R183). -/
noncomputable def waitcForms (w : CW) (n : MemW) : List WordForm :=
  [⟨.waitc w n, { u := uxw w n, ok := fun _ => ok61 (uxw w n), ops := fun _ => [dS (uxw w n), aS (uxw w n), cS (uxw w n)], last := true, addr := eaS }⟩]

/-- LDT (R169). -/
noncomputable def ldtForms (w : CW) (n : MemW) : List WordForm :=
  [⟨.ldt w, { u := ucw w, ok := fun _ => ok56 (ucw w), ops := fun _ => [dS (ucw w), aS (ucw w)], addr := eaS }⟩,
    ⟨.ldtLong w n, { u := uxw w n, ok := fun _ => ok56 (uxw w n), ops := fun _ => [dS (uxw w n), aS (uxw w n)], addr := eaS }⟩]

/-- RDM.V (R172). -/
noncomputable def rdmVForms (w : CW) (n : MemW) : List WordForm :=
  [⟨.rdmV w, { u := ucw w, ok := fun width => ok57 width (ucw w), ops := fun width => [dVn (ucw w) (rdmSyms width (tkCode (ucw w))), aS (ucw w)] }⟩,
    ⟨.rdmVLong w n, { u := uxw w n, ok := fun width => ok57 width (uxw w n), ops := fun width => [dVn (uxw w n) (rdmSyms width (tkCode (uxw w n))), aS (uxw w n)] }⟩]

/-- RDM.S (R173). -/
noncomputable def rdmSForms (w : CW) (n : MemW) : List WordForm :=
  [⟨.rdmS w, { u := ucw w, ok := fun _ => ok58 (ucw w), ops := fun _ => rdmSOps (ucw w) }⟩,
    ⟨.rdmSLong w n, { u := uxw w n, ok := fun _ => ok58 (uxw w n), ops := fun _ => rdmSOps (uxw w n) }⟩]

/-- TKREL (R176). -/
noncomputable def tkrelForms (w : CW) : List WordForm :=
  [⟨.tkrel w, { u := ucw w, ok := fun _ => ok16 (ucw w), ops := fun _ => [aS (ucw w)] }⟩]

/-- TKQ (R177). -/
noncomputable def tkqForms (w : CW) : List WordForm :=
  [⟨.tkq w, { u := ucw w, ok := fun _ => ok8 (ucw w), ops := fun _ => [dS (ucw w), aS (ucw w)] }⟩]

/-- TIDEF (R146). -/
noncomputable def tidefForms (w : CW) (n : MemW) : List WordForm :=
  [⟨.tidef w n, { u := uxw w n, ok := fun _ => ok65 (uxw w n), ops := fun _ => itOpsDef (uxw w n) }⟩]

/-- TSWEEP (R147). -/
noncomputable def tsweepForms (w : CW) (n : MemW) : List WordForm :=
  [⟨.tsweep w n, { u := uxw w n, ok := fun _ => ok66 (uxw w n), ops := fun _ => [itRec (uxw w n), itProg (uxw w n)] }⟩]

/-- TWALK (R149). -/
noncomputable def twalkForms (w : CW) (n : MemW) : List WordForm :=
  [⟨.twalk w n, { u := uxw w n, ok := fun _ => ok67 (uxw w n), ops := fun _ => [dSrw (uxw w n), itRec (uxw w n), { itProg (uxw w n) with field := 3 }] }⟩]

/-- GANG (R200). -/
noncomputable def gangForms (w : CW) (m : ModW) : List WordForm :=
  [⟨.gang w, { u := ucw w, ok := fun _ => ok68 (ucw w), ops := fun _ => [aS (ucw w)], mat := true }⟩,
    ⟨.gangLong w m, { u := umw w m, ok := fun _ => ok68 (umw w m), ops := fun _ => [aS (umw w m)], mat := true }⟩]

/-- MM (R191). -/
noncomputable def mmForms (w : CW) (m : ModW) : List WordForm :=
  [⟨.mm w, { u := ucw w, ok := fun _ => ok69 (ucw w), ops := fun _ => opsMM (ucw w), mat := true, gang := true }⟩,
    ⟨.mmLong w m, { u := umw w m, ok := fun _ => ok69 (umw w m), ops := fun _ => opsMM (umw w m), mat := true, gang := true }⟩]

/-- MMG (R192). -/
noncomputable def mmgForms (w : CW) (m : ModW) : List WordForm :=
  [⟨.mmg w, { u := ucw w, ok := fun width => ok70 width (ucw w), ops := fun width => opsMMG width (ucw w), mat := true, gang := true }⟩,
    ⟨.mmgLong w m, { u := umw w m, ok := fun width => ok70 width (umw w m), ops := fun width => opsMMG width (umw w m), mat := true, gang := true }⟩]

/-- MMB (R193). -/
noncomputable def mmbForms (w : CW) (m : ModW) : List WordForm :=
  [⟨.mmb w, { u := ucw w, ok := fun _ => ok71 (ucw w), ops := fun _ => opsMMB (ucw w), mat := true, gang := true }⟩,
    ⟨.mmbLong w m, { u := umw w m, ok := fun _ => ok71 (umw w m), ops := fun _ => opsMMB (umw w m), mat := true, gang := true }⟩]

/-- MTILE (R194). -/
noncomputable def mtileForms (w : CW) (m : ModW) : List WordForm :=
  [⟨.mtile w, { u := ucw w, ok := fun _ => ok72 (ucw w), ops := fun _ => opsTile (ucw w), mat := true }⟩,
    ⟨.mtileLong w m, { u := umw w m, ok := fun _ => ok72 (umw w m), ops := fun _ => opsTile (umw w m), mat := true }⟩]

/-- MSCL (R190). -/
noncomputable def msclForms (w : CW) (m : ModW) : List WordForm :=
  [⟨.mscl w, { u := ucw w, ok := fun _ => ok73 (ucw w), ops := fun _ => aBuf (ucw w) :: cOff (ucw w), mat := true }⟩,
    ⟨.msclLong w m, { u := umw w m, ok := fun _ => ok73 (umw w m), ops := fun _ => aBuf (umw w m) :: cOff (umw w m), mat := true }⟩]

/-- ACLR (R195). -/
noncomputable def aclrForms (w : CW) (m : ModW) : List WordForm :=
  [⟨.aclr w, { u := ucw w, ok := fun _ => ok74 (ucw w), ops := fun _ => [dQ (ucw w) (shapeQuads (shapeOf (ucw w)))], mat := true }⟩,
    ⟨.aclrLong w m, { u := umw w m, ok := fun _ => ok74 (umw w m), ops := fun _ => [dQ (umw w m) (shapeQuads (shapeOf (umw w m)))], mat := true }⟩]

/-- AFILL (R195). -/
noncomputable def afillForms (w : CW) (m : ModW) : List WordForm :=
  [⟨.afill w, { u := ucw w, ok := fun _ => ok76 (ucw w), ops := fun _ => [dQ (ucw w) (shapeQuads (shapeOf (ucw w))), aS (ucw w)], mat := true }⟩,
    ⟨.afillLong w m, { u := umw w m, ok := fun _ => ok76 (umw w m), ops := fun _ => [dQ (umw w m) (shapeQuads (shapeOf (umw w m))), aS (umw w m)], mat := true }⟩]

/-- AMOV (R195). -/
noncomputable def amovForms (w : CW) (m : ModW) : List WordForm :=
  [⟨.amov w, { u := ucw w, ok := fun width => ok75 width (ucw w), ops := fun width => opsAmov width (ucw w), mat := true }⟩,
    ⟨.amovLong w m, { u := umw w m, ok := fun width => ok75 width (umw w m), ops := fun width => opsAmov width (umw w m), mat := true }⟩]

/-- ALD (R195). -/
noncomputable def aldForms (w : CW) (m : ModW) : List WordForm :=
  [⟨.ald w, { u := ucw w, ok := fun _ => ok77 (ucw w), ops := fun _ => [dQ (ucw w) (shapeQuads (shapeOf (ucw w))), aBuf (ucw w)] ++ cOff (ucw w), mat := true }⟩,
    ⟨.aldLong w m, { u := umw w m, ok := fun _ => ok77 (umw w m), ops := fun _ => [dQ (umw w m) (shapeQuads (shapeOf (umw w m))), aBuf (umw w m)] ++ cOff (umw w m), mat := true }⟩]

/-- AST (R195). -/
noncomputable def astForms (w : CW) (m : ModW) : List WordForm :=
  [⟨.ast w, { u := ucw w, ok := fun _ => ok78 (ucw w), ops := fun _ => [dBuf (ucw w), aQ (ucw w) (shapeQuads (shapeOf (ucw w)))] ++ cOff (ucw w), mat := true }⟩,
    ⟨.astLong w m, { u := umw w m, ok := fun _ => ok78 (umw w m), ops := fun _ => [dBuf (umw w m), aQ (umw w m) (shapeQuads (shapeOf (umw w m)))] ++ cOff (umw w m), mat := true }⟩]

/-- MBSEND (R215). -/
noncomputable def mbsendForms (w : CW) (m : ModW) : List WordForm :=
  [⟨.mbsend w, { u := ucw w, ok := fun _ => ok81 (ucw w), ops := fun _ => mbOps (ucw w) }⟩,
    ⟨.mbsendLong w m, { u := umw w m, ok := fun _ => ok81 (umw w m), ops := fun _ => mbOps (umw w m) }⟩]

/-- MBRECV (R216). -/
noncomputable def mbrecvForms (w : CW) (m : ModW) : List WordForm :=
  [⟨.mbrecv w, { u := ucw w, ok := fun _ => ok81 (ucw w), ops := fun _ => mbOps (ucw w), last := true }⟩,
    ⟨.mbrecvLong w m, { u := umw w m, ok := fun _ => ok81 (umw w m), ops := fun _ => mbOps (umw w m), last := true }⟩]

/-- MBPOLL (R217). -/
noncomputable def mbpollForms (w : CW) (m : ModW) : List WordForm :=
  [⟨.mbpoll w, { u := ucw w, ok := fun _ => ok82 (ucw w), ops := fun _ => [dS (ucw w), aS (ucw w)] }⟩,
    ⟨.mbpollLong w m, { u := umw w m, ok := fun _ => ok82 (umw w m), ops := fun _ => [dS (umw w m), aS (umw w m)] }⟩]

/-- MBVER (R218). -/
noncomputable def mbverForms (w : CW) (m : ModW) : List WordForm :=
  [⟨.mbver w, { u := ucw w, ok := fun _ => ok83 (ucw w), ops := fun _ => [dS (ucw w)] }⟩,
    ⟨.mbverSet w m, { u := umw w m, ok := fun _ => ok84 (umw w m), ops := fun _ => if bit ((umw w m)).card 0 then [dS (umw w m), aS (umw w m)] else [dS (umw w m)] }⟩]

/-- TRAP (R220). -/
noncomputable def trapForms (v : IW) : List WordForm :=
  [⟨.trap v, { u := uiw v, ok := fun _ => ok22 (uiw v) }⟩]

/-- BKPT (R220). -/
noncomputable def bkptForms (v : IW) : List WordForm :=
  [⟨.bkpt v, { u := uiw v, ok := fun _ => ok22 (uiw v) }⟩]

/-- TREC (R222). -/
noncomputable def trecForms (w : CW) (m : ModW) : List WordForm :=
  [⟨.trec w, { u := ucw w, ok := fun _ => ok85 (ucw w), ops := fun _ => [dS (ucw w)], hOnly := true }⟩,
    ⟨.trecLong w m, { u := umw w m, ok := fun _ => ok85 (umw w m), ops := fun _ => [dS (umw w m)], hOnly := true }⟩]

/-- XGET (R223). -/
noncomputable def xgetForms (w : CW) (m : ModW) : List WordForm :=
  [⟨.xget w, { u := ucw w, ok := fun _ => ok82 (ucw w), ops := fun _ => [aS (ucw w)], hOnly := true, dest := xgDest (ucw w) }⟩,
    ⟨.xgetLong w m, { u := umw w m, ok := fun _ => ok82 (umw w m), ops := fun _ => [aS (umw w m)], hOnly := true, dest := xgDest (umw w m) }⟩]

/-- XSET (R223). -/
noncomputable def xsetForms (w : CW) (m : ModW) : List WordForm :=
  [⟨.xset w, { u := ucw w, ok := fun _ => ok86 (ucw w), ops := fun _ => [aS (ucw w)], hOnly := true }⟩,
    ⟨.xsetLong w m, { u := umw w m, ok := fun _ => ok86 (umw w m), ops := fun _ => [aS (umw w m)], hOnly := true }⟩]

/-- ERESUME.retry (R224). -/
noncomputable def retryForms (w : CW) : List WordForm :=
  [⟨.eresumeRetry w, { u := ucw w, ok := fun _ => ok0 (ucw w), hOnly := true, last := true }⟩]

/-- ERESUME.skip (R224). -/
noncomputable def skipForms (w : CW) : List WordForm :=
  [⟨.eresumeSkip w, { u := ucw w, ok := fun _ => ok87 (ucw w), hOnly := true, last := true }⟩]

/-- ERESUME.jmp (R224). -/
noncomputable def eresumeJmpForms (w : CW) : List WordForm :=
  [⟨.eresumeJmp w, { u := ucw w, ok := fun _ => ok88 (ucw w), ops := fun _ => [aS (ucw w)], hOnly := true, last := true }⟩]

/-- ERESUME with an offset (R224). -/
noncomputable def eresumeRelForms (w : CW) (x : XW) : List WordForm :=
  [⟨.eresumeRel w x, { u := uiw2 w x, ok := fun _ => ok89 (uiw2 w x), hOnly := true, last := true }⟩]

/-- GETSR (R225). -/
noncomputable def getsrForms (w : CW) : List WordForm :=
  [⟨.getsr w, { u := ucw w, ok := fun _ => ok90 (ucw w), ops := fun _ => getsrOps (ucw w) }⟩]

/-- SETSR (R225). -/
noncomputable def setsrForms (w : CW) : List WordForm :=
  [⟨.setsr w, { u := ucw w, ok := fun _ => ok91 (ucw w), ops := fun _ => setsrOps (ucw w) }⟩]

/-- TIME (R226). -/
noncomputable def timeForms (w : CW) : List WordForm :=
  [⟨.time w, { u := ucw w, ok := fun _ => ok83 (ucw w), ops := fun _ => [dS (ucw w)] }⟩]

/-- SAMPLE (R227). -/
noncomputable def sampleForms (w : CW) (m : ModW) : List WordForm :=
  [⟨.sample w, { u := ucw w, ok := fun _ => ok16 (ucw w), ops := fun _ => [aS (ucw w)], tags := true }⟩,
    ⟨.sampleMark w m, { u := umw w m, ok := fun _ => ok92 (umw w m), ops := fun _ => [aS (umw w m)], tags := !(bit ((umw w m)).card 0) }⟩]

/-- HOSTSIG (R228). -/
noncomputable def hostsigForms (w : CW) (v : IW) (x : XW) : List WordForm :=
  [⟨.hostsig v, { u := uiw v, ok := fun _ => ok93 (uiw v), ops := fun _ => [aS (uiw v)] }⟩,
    ⟨.hostsigLong w x, { u := uiw2 w x, ok := fun _ => ok94 (uiw2 w x), ops := fun _ => [aS (uiw2 w x)] }⟩]

/-- CPY, CPYM and CPYW with the number of their kind (R204, R211, R212). -/
noncomputable def copyWords (w : CW) (m : ModW) : List (WordForm × Nat) :=
  [(⟨.cpy w, { u := ucw w, ok := fun _ => ok79 (ucw w), ops := fun _ => opsCpy 3 (ucw w) }⟩, 0),
    (⟨.cpyLong w m, { u := umw w m, ok := fun _ => ok79 (umw w m), ops := fun _ => opsCpy 3 (umw w m) }⟩, 0),
    (⟨.cpym w, { u := ucw w, ok := fun _ => ok80 (ucw w), ops := fun _ => opsCpy 4 (ucw w) }⟩, 1),
    (⟨.cpymLong w m, { u := umw w m, ok := fun _ => ok80 (umw w m), ops := fun _ => opsCpy 4 (umw w m) }⟩, 1),
    (⟨.cpyw w, { u := ucw w, ok := fun _ => ok79 (ucw w), ops := fun _ => opsCpy 3 (ucw w), last := true }⟩, 2),
    (⟨.cpywLong w m, { u := umw w m, ok := fun _ => ok79 (umw w m), ops := fun _ => opsCpy 3 (umw w m), last := true }⟩, 2)]

/-- What MM, MMG or MMB asks of the engine: its request, the offsets and ranges to check, the quads of its result (R189,
R191 to R193). -/
structure Multiply where
  req : MatReq
  offs : List Nat
  ranges : List BufRange
  quads : List Nat

/-- The offsets of A and B in the halves of s_c (R189). -/
def halfLo (k : IC) : Nat := if k.u.two then bits (sVal k k.u.c).toNat 31 0 else 0
def halfHi (k : IC) : Nat := if k.u.two then bits (sVal k k.u.c).toNat 63 32 else 0
/-- Rows of the shape that a word names. -/
def askRows (k : IC) : Nat := if bits k.u.card 1 0 == 1 then 32 else 64
/-- The quads of a result of the shape that a word names. -/
def resultQuads (k : IC) : List Nat := quadNums k k.u.d (if bits k.u.card 1 0 == 1 then 1 else 4)

/-- MM multiplies rows of A from its offset by columns of B from its. -/
def mmAsks (k : IC) : Multiply :=
  { req := { kind := 0, shape := bits k.u.card 1 0, ty := typeA k.u, ty2 := typeB k.u, ns := bit k.u.card 2,
             d := qNum k k.u.d, a := k.u.a, b := k.u.b, offA := halfLo k, offB := halfHi k }
    offs := [halfLo k, halfHi k]
    ranges := [(k.u.a, halfLo k, askRows k * rowBytes (typeA k.u), false),
               (k.u.b, halfHi k, askRows k * rowBytes (typeB k.u), false)]
    quads := resultQuads k }

/-- The rows of A that MMG gathers: 16-bit numbers of v_c, or the rows in order. -/
def gathered (k : IC) : List Nat :=
  (upto (askRows k)).map (fun i =>
    if k.u.two then (veGet k.w (vNum k k.u.c + i / k.w.width) (i % k.w.width)).toNat % 65536 else i)

def mmgAsks (k : IC) : Multiply :=
  { req := { kind := 1, shape := bits k.u.card 1 0, ty := typeA k.u, ty2 := typeB k.u, ns := bit k.u.card 2,
             d := qNum k k.u.d, a := k.u.a, b := k.u.b, idxs := gathered k }
    offs := []
    ranges := (gathered k).map (fun i => (k.u.a, i * rowBytes (typeA k.u), rowBytes (typeA k.u), false)) ++
      [(k.u.b, 0, askRows k * rowBytes (typeB k.u), false)]
    quads := resultQuads k }

/-- MMB multiplies sixteen blocks of 16 rows of 32 elements. -/
def mmbAsks (k : IC) : Multiply :=
  { req := { kind := 2, ty := typeA k.u, ty2 := typeB k.u, ns := true, d := qNum k k.u.d, a := k.u.a, b := k.u.b,
             offA := halfLo k, offB := halfHi k }
    offs := [halfLo k, halfHi k]
    ranges := [(k.u.a, halfLo k, elBytes (typeA k.u) 8192, false), (k.u.b, halfHi k, elBytes (typeB k.u) 8192, false)]
    quads := quadNums k k.u.d 4 }

/-- MM, MMG and MMB with what they ask. -/
noncomputable def multiplyWords (w : CW) (m : ModW) : List (WordForm × (IC → Multiply)) :=
  (mmForms w m).map (·, mmAsks) ++ (mmgForms w m).map (·, mmgAsks) ++ (mmbForms w m).map (·, mmbAsks)

/-! All instruction words. -/

noncomputable def wordsPart1 (w : CW) (v : IW) (m : ModW) (x : XW) : List WordForm :=
  (scalarRegWords w m).map (·.1) ++
  (scalarImmWords w v x).map (·.1) ++
  (scalarMoveWords w v m x).map (·.1) ++
  (compareWords w v m x).map (·.1) ++
  argForms w v x ++
  (predicateWords w).map (·.1) ++
  (vectorIntWords w m).map (·.1) ++
  (vectorMoveWords w v m x).map (·.1) ++
  (crossLaneWords w m).map (·.1) ++
  topkForms w m ++
  (floatWords w m).map (·.1) ++
  dotForms w m
noncomputable def wordsPart2 (w : CW) (v : IW) (m : ModW) (x : XW) : List WordForm :=
  floatCmpForms w m ++
  cvtForms w m ++
  (reduceWords w m).map (·.1) ++
  scanForms w m ++
  (specialWords w m).map (·.1) ++
  nopForms w ++
  yieldForms w ++
  waitcntForms v ++
  (controlWords w v x).map (·.1) ++
  modeForms w ++
  brForms w v x ++
  jmpForms w v x
noncomputable def wordsPart3 (w : CW) (v : IW) (x : XW) : List WordForm :=
  callForms w v x ++
  retForms w ++
  ifForms w ++
  elseForms w ++
  endifForms w ++
  (loopWords w x).map (·.1) ++
  (leaveWords w).map (·.1) ++
  endloopForms w ++
  endForms w ++
  barArrForms w ++
  barWaitForms w ++
  barSyncForms w
noncomputable def wordsPart4 (w : CW) (n : MemW) : List WordForm :=
  barDropForms w ++
  ldForms w n ++
  stForms w n ++
  ldsForms w n ++
  stsForms w n ++
  fenceForms w n ++
  fenceIForms w ++
  prefForms w n ++
  cwbForms w n ++
  atomForms w n ++
  redForms w n ++
  waitcForms w n
noncomputable def wordsPart5 (w : CW) (m : ModW) (n : MemW) : List WordForm :=
  ldtForms w n ++
  rdmVForms w n ++
  rdmSForms w n ++
  tkrelForms w ++
  tkqForms w ++
  tidefForms w n ++
  tsweepForms w n ++
  twalkForms w n ++
  gangForms w m ++
  mmForms w m ++
  mmgForms w m ++
  mmbForms w m
noncomputable def wordsPart6 (w : CW) (v : IW) (m : ModW) : List WordForm :=
  mtileForms w m ++
  msclForms w m ++
  aclrForms w m ++
  afillForms w m ++
  amovForms w m ++
  aldForms w m ++
  astForms w m ++
  mbsendForms w m ++
  mbrecvForms w m ++
  mbpollForms w m ++
  mbverForms w m ++
  trapForms v
noncomputable def wordsPart7 (w : CW) (v : IW) (m : ModW) (x : XW) : List WordForm :=
  bkptForms v ++
  trecForms w m ++
  xgetForms w m ++
  xsetForms w m ++
  retryForms w ++
  skipForms w ++
  eresumeJmpForms w ++
  eresumeRelForms w x ++
  getsrForms w ++
  setsrForms w ++
  timeForms w ++
  sampleForms w m
noncomputable def wordsPart8 (w : CW) (v : IW) (m : ModW) (x : XW) : List WordForm :=
  hostsigForms w v x ++
  (copyWords w m).map (·.1)

/-- Every instruction word with its fixed facts. -/
noncomputable def allWords (w : CW) (v : IW) (m : ModW) (n : MemW) (x : XW) : List WordForm :=
  wordsPart1 w v m x ++
  wordsPart2 w v m x ++
  wordsPart3 w v x ++
  wordsPart4 w n ++
  wordsPart5 w m n ++
  wordsPart6 w v m ++
  wordsPart7 w v m x ++
  wordsPart8 w v m x

end Sys2Proof.Machine
end

