-- ==== Sys2Proof/WellFormed.lean ====
section
/-! DEFINITION. What makes an instruction well formed as syntax: an ERESUME's constructor agrees with its mode field
(R224), and an unimplemented opcode is a word that no assigned cell of its class reads (R68). Every other field takes
every value: the reserved-field checks belong to the issue of the word (R69). -/

namespace Sys2Proof

/-- The structural facts of an instruction, as a check (R68, R224). -/
noncomputable def wellFormed (i : Instr) : Bool :=
  match i with
  | .eresumeRetry w => w.d ≠ 1 && w.d ≠ 2
  | .eresumeSkip w => w.d = 1
  | .eresumeJmp w => w.d = 2
  | .unimplementedOpcode cls w1 w2 =>
    cls ≠ 7 && (isTwo w1 || w2 = 0) && (decodeAssigned cls w1 w2).isNone
  | _ => true

/-- The structural facts of an instruction hold (R68, R224). -/
abbrev WellFormed (i : Instr) : Prop := wellFormed i = true

end Sys2Proof
end

