-- ==== Sys2Proof/Certificates/Slice0/Obligations.lean ====
section
/-! DEFINITION. The statements for the provers: what each instruction word and each event of the machine does when it
completes, where words trap, what a step keeps, and that encodings are read as the spec gives them. -/

open Sys2Proof Sys2Proof.Machine

/-! Registers: every word here completes once it passes R69's checks, and changes its own wave only. -/

/-- R97 to R101: the register and immediate forms write the mould's result to s_d; moves, selections and bit fields write
s_d; SCMP and SCMPI write the codes of their slot and nothing else. -/
def Obligations.ScalarWordsComplete : Prop :=
  (∀ w m, EachCompletes (scalarRegWords w m)) ∧
  (∀ w v x, EachCompletes (scalarImmWords w v x)) ∧
  (∀ w v m x, EachCompletes (scalarMoveWords w v m x) ∧ EachCompletes (compareWords w v m x))

/-- R101: SARG writes the argument at its offset, extended as the form says; a size above 8 bytes, then a misaligned offset, then
one beyond the argument block, traps. -/
def Obligations.ArgumentReadsCompleteOrTrap : Prop :=
  ∀ v w x, ∀ f ∈ argForms w v x, ∀ (k : IC) (s : State), Passes f.sp k s →
    let n := 2 ^ k.u.a
    let off := k.u.imm % 2 ^ 11
    let args := argsOf s k.b
    (3 < k.u.a → exec f.i s = .next (trapsWith f.sp k s { cause := 2, sub := 0 })) ∧
    (k.u.a ≤ 3 → off % n ≠ 0 → exec f.i s = .next (trapsWith f.sp k s { cause := 8, sub := 1 })) ∧
    (k.u.a ≤ 3 → off % n = 0 → args.length < off + n → exec f.i s = .next (trapsWith f.sp k s { cause := 2, sub := 0 })) ∧
    (k.u.a ≤ 3 → off % n = 0 → off + n ≤ args.length → ∃ t, exec f.i s = .next t ∧ Completed s t k f.sp.u.words
      (writeS (fun _ => ext64 k.u.two (8 * n) (ofBytes ((args.drop off).take n))) k k.w))

/-- R122, R124 to R129, R132, R137 to R139, R142, R143: the predicate words write p_d within MASK, or s_d; the integer,
move, sign, shuffle, match, vote, lane-read and comparison words write v_d, p_d or s_d in the live lanes, a source lane being
read whether it is live or not. -/
def Obligations.VectorWordsComplete : Prop :=
  (∀ w, EachCompletes (predicateWords w)) ∧
  (∀ w m, EachCompletes (vectorIntWords w m)) ∧
  (∀ w v m x, EachCompletes (vectorMoveWords w v m x)) ∧
  (∀ w m, EachCompletes (crossLaneWords w m))

/-- R140, R141, R144: VTOPK ranks the live lanes' numbers by value, then by lane; the first s_b of them get their rank in
v_d and a 1 in p_c, every other live lane 0xFFFFFFFF and 0. Reductions fold the live lanes' values in the fixed tree, other
lanes standing for the identity; VSCAN gives each live lane the fold of the live lanes up to it. R53: where a step of either raises an
enabled exception, the word traps as a whole with cause 0x10, every live lane in FAULTMASK, and writes nothing. -/
def Obligations.RankingsReductionsAndScansComplete : Prop :=
  (∀ w m, ∀ f ∈ topkForms w m, ∀ (k : IC) (s : State), Passes f.sp k s →
    let t := tyOf k.u 10
    let cand := (lanesOf k.live).filter (fun l => !(isFltTy t && isNan (unpack f32 (vVal k t k.u.a l))))
    let sel := (sortBy (topBefore k t (bit k.u.card 0)) cand).take (min (srcB k) k.w.width)
    ∃ t', exec f.i s = .next t' ∧ Completed s t' k f.sp.u.words
      (writeL k.u.c (fun _ l => sel.contains l) k
        (writeV (fun _ => false) (fun _ l => if sel.contains l then sel.idxOf l else 0xFFFFFFFF) k k.w))) ∧
  (∀ w m, ∀ p ∈ reduceWords w m, ∀ (k : IC) (s : State), Passes p.1.sp k s →
    let t := tyOf k.u 5
    let r := redTree (redStep p.2 k t) (Nat.log2 k.w.width)
      ((upto k.w.width).map (fun l => if k.live.getLsbD l then vVal k t k.u.a l else redIdent p.2 t)) {}
    (r.2.traps (modeOf k) = false → ∃ t', exec p.1.i s = .next t' ∧
      Completed s t' k p.1.sp.u.words (writeS (fun _ => ext64 (t == 5) (tyWidth t) r.1) k k.w)) ∧
    (r.2.traps (modeOf k) = true → exec p.1.i s = .next (trapsWith p.1.sp k s { cause := 0x10, sub := r.2.sub, fmask := k.live }))) ∧
  (∀ w m, ∀ f ∈ scanForms w m, ∀ (k : IC) (s : State), Passes f.sp k s →
    let t := tyOf k.u 5
    let o : RedOp := match bits k.u.card 2 1 with | 0 => .add | 1 => .min | _ => .max
    let r := scanRun (redStep o { k with u := { k.u with card := 0 } } t) (bit k.u.card 0) (vVal k t k.u.a)
      (lanesOf k.live) (redIdent o t)
    (r.2.traps (modeOf k) = false → ∃ t', exec f.i s = .next t' ∧
      Completed s t' k f.sp.u.words (writeV (fun _ => false) (fun _ l => tgetD r.1 l 0) k k.w)) ∧
    (r.2.traps (modeOf k) = true → exec f.i s = .next (trapsWith f.sp k s { cause := 0x10, sub := r.2.sub, fmask := k.live })))

/-- R53, R129 to R131: a floating word writes its lanes' results, and VFCMP the bits of its condition in p_d; where a lane raises an
enabled exception the word traps with cause 0x10 and writes nothing. A NaN operand and a zero sum of VFDOT2 rest on log entry 53. -/
def Obligations.FloatWordsCompleteOrTrap : Prop :=
  (∀ w m, ∀ p ∈ floatWords w m, ∀ (k : IC) (s : State), Passes p.1.sp k s →
    (fpTrap k (fun l => (p.2 k l).2) = none → ∃ t, exec p.1.i s = .next t ∧
      Completed s t k p.1.sp.u.words (writeV (wideAt 10) (fun k l => (p.2 k l).1) k k.w)) ∧
    (∀ tr, fpTrap k (fun l => (p.2 k l).2) = some tr → exec p.1.i s = .next (trapsWith p.1.sp k s tr))) ∧
  (∀ w m, ∀ f ∈ dotForms w m, ∀ (k : IC) (s : State), Passes f.sp k s →
    (fpTrap k (fun l => (fltDot2 k l).2) = none → ∃ t, exec f.i s = .next t ∧
      Completed s t k f.sp.u.words (writeV (fun _ => false) (fun k l => (fltDot2 k l).1) k k.w)) ∧
    (∀ tr, fpTrap k (fun l => (fltDot2 k l).2) = some tr → exec f.i s = .next (trapsWith f.sp k s tr))) ∧
  (∀ w m, ∀ f ∈ floatCmpForms w m, ∀ (k : IC) (s : State), Passes f.sp k s →
    let r := fun l => cmpFp (fmtOf (tyOf k.u 10)) (bits k.u.card 2 0) (fltA k l 0) (fltB k l 0)
    (fpTrap k (fun l => (r l).2) = none → ∃ t, exec f.i s = .next t ∧
      Completed s t k f.sp.u.words (writeL k.u.d (fun _ l => (r l).1) k k.w)) ∧
    (∀ tr, fpTrap k (fun l => (r l).2) = some tr → exec f.i s = .next (trapsWith f.sp k s tr)))

/-- R53, R133: VCVT writes the converted element of each live lane into the half or byte of v_d that the card names, and keeps
the rest of v_d; only rounding .rs to a floating type reads and advances SEED. Where a lane raises an enabled exception it traps with
cause 0x10 and writes nothing. -/
def Obligations.ConversionsComplete : Prop :=
  ∀ w m, ∀ f ∈ cvtForms w m, ∀ (k : IC) (s : State), Passes f.sp k s →
    let t := k.u.ty
    let t2 := k.u.ty2
    let src := fun l => elem (tyWidth t2) (bits k.u.card 6 4) (vVal k t2 k.u.a l)
    let next := fun l => xorshift (seedGet k s l)
    let r := fun l => cvtEl t t2 (bit k.u.card 0) (rmK k) (ftzOn k) (bit (modeOf k) 6) (bits (next l).toNat 31 16)
      (if isFltTy t2 then daz (dazOn k) (fmtOf t2) (src l) else src l)
    let lo := tyWidth t * bits k.u.card 3 1
    (fpTrap k (fun l => (r l).2) = none →
      exec f.i s = .next (completes f.sp k (modWave (if rmK k == 4 && isFltTy t then seedPut k s next else s) k.wid
        (writeV (fun _ => isWide t) (fun k l => if tyWidth t == 64 then (r l).1
          else setBits (vVal k t k.u.d l) (lo + tyWidth t - 1) lo (r l).1) k)))) ∧
    (∀ tr, fpTrap k (fun l => (r l).2) = some tr → exec f.i s = .next (trapsWith f.sp k s tr))

/-- R56, R134: a special-function word with room in the special counter enters its operation with the live lanes' sources
and the MODE in force, leaves v_d empty and counts one more; at 63 it waits. With no lane live it completes at once (R332). -/
def Obligations.SpecialFunctionWordsIssue : Prop :=
  ∀ w m, ∀ p ∈ specialWords w m, ∀ (k : IC) (s : State), Passes p.1.sp k s →
    Laneless p.1 k s .special ∧
    (k.live ≠ 0 → k.w.cnt.special < 63 → ∃ t, exec p.1.i s = .next t ∧
      Completed (entered s (opNow k s .special (.sfu p.2 (vNum k k.u.d)
        ((lanesOf k.live).map (fun l => (l, veGet k.w (vNum k k.u.a) l))) k.x.ctl.mode (rmK k)))) t k p.1.sp.u.words
        (awaits k s .special .v [vNum k k.u.d])) ∧
    (k.live ≠ 0 → 63 ≤ k.w.cnt.special → exec p.1.i s = .next (waitsAt p.1.sp k s))

/-! Control (R103 to R121). -/

/-- R115, R116: NOP does nothing; WIN sets its window and the two-word MODE its fields; MODE takes a scalar of legal value
and traps on another; WAITCNT completes once every selected counter is at most its limit, and waits till then; YIELD
completes, and its wave ranks last in its core's next arbitration. -/
def Obligations.HousekeepingWordsComplete : Prop :=
  (∀ w, ∀ f ∈ nopForms w, ∀ (k : IC) (s : State), Passes f.sp k s →
    ∃ t, exec f.i s = .next t ∧ Completed s t k f.sp.u.words k.w) ∧
  (∀ w v x, EachCompletes (controlWords w v x)) ∧
  (∀ w, ∀ f ∈ modeForms w, ∀ (k : IC) (s : State), Passes f.sp k s →
    let m := srcA k % 2 ^ 32
    (modeOk m = true → ∃ t, exec f.i s = .next t ∧
      Completed s t k f.sp.u.words (writeC (fun _ c => { c with mode := w32 m }) k k.w)) ∧
    (modeOk m = false → exec f.i s = .next (trapsWith f.sp k s { cause := 2, sub := 0 }))) ∧
  (∀ v, ∀ f ∈ waitcntForms v, ∀ (k : IC) (s : State), Passes f.sp k s →
    let c := k.w.cnt
    let met := ∀ p ∈ [(0, c.load), (1, c.store), (2, c.ticket), (3, c.matrix), (4, c.copy), (5, c.special)],
      bit k.u.imm p.1 = true → p.2 ≤ bits k.u.imm 10 6
    (met → ∃ t, exec f.i s = .next t ∧ Completed s t k f.sp.u.words k.w) ∧
    (¬met → exec f.i s = .next (waitsAt f.sp k s))) ∧
  (∀ w, ∀ f ∈ yieldForms w, ∀ (k : IC) (s : State), Passes f.sp k s →
    ∃ t, exec f.i s = .next t ∧ Completed s t k f.sp.u.words k.w ∧ (coreOf t k.core).yields = [k.wid])

/-- R103, R104: BR goes to its target when its condition holds and to the next header when not; JMP and CALL go to theirs,
CALL writing the next header's address to s_d; RET goes to s_a. A target outside the canonical space, and for RET a
misaligned one, traps at the word, which then has no effect. R104 speaks of passing the top of the space: that a target below 0 traps
as well is the model's reading (log entry 40). -/
def Obligations.TransfersComplete : Prop :=
  (∀ w v x, ∀ f ∈ brForms w v x, ∀ (k : IC) (s : State), Passes f.sp k s →
    (condBr k.w k.x k.u.d k.u.a = true → Transfers f k s (wordAddr k.x + 4 * immS k.u) k.w) ∧
    (condBr k.w k.x k.u.d k.u.a = false → ∃ t, exec f.i s = .next t ∧ Completed s t k f.sp.u.words k.w)) ∧
  (∀ w v x, ∀ f ∈ jmpForms w v x, ∀ (k : IC) (s : State), Passes f.sp k s →
    Transfers f k s (wordAddr k.x + 4 * immS k.u) k.w) ∧
  (∀ w v x, ∀ f ∈ callForms w v x, ∀ (k : IC) (s : State), Passes f.sp k s →
    Transfers f k s (wordAddr k.x + 4 * immS k.u)
      (writeS (fun k => w64 (wordAddr k.x + 4 * k.u.words)) k k.w)) ∧
  (∀ w, ∀ f ∈ retForms w, ∀ (k : IC) (s : State), Passes f.sp k s →
    (srcA k % 4 = 0 → Transfers f k s (srcA k) k.w) ∧
    (srcA k % 4 ≠ 0 → exec f.i s = .next (trapsWith f.sp k s { cause := 8, sub := 1, addr := srcA k })))

/-- R106, R108: IF pushes its frame and runs the arm that has lanes; with lanes in both and an ELSE it splits onto
slot B, or spills the else-arm when slot B is busy. The 65th frame and the 33rd spill trap; that the 65th does so before its scan is
the model's choice (log entry 53). R108: ELSE of a spilled IF takes its slot's newest entry, exchanging MODE, windows and codes, and
traps with poison on one that an error has struck (R249); of another IF it goes to the ENDIF with no lane. ENDIF joins a split, and
restores the then-arm's state after a spill. -/
def Obligations.IfElseEndifComplete : Prop :=
  (∀ w, ∀ f ∈ ifForms w, ∀ (k : IC) (s : State), Passes f.sp k s →
    let c := if k.u.b = 0 then prGet k.w k.u.a else if k.u.b = 1 then ~~~(prGet k.w k.u.a) else BitVec.allOnes 64
    let t := k.x.mask &&& c
    let e := k.x.mask &&& ~~~c
    let nxt := wordAddr k.x + 4 * k.u.words
    (64 ≤ frameCount k.w → exec f.i s = .next (trapsWith f.sp k s { cause := 0x0D, sub := 1 })) ∧
    (frameCount k.w < 64 → ∀ s1 els fin, scan s k.b k.core k.w.ctx k.x true = .found s1 els fin →
      let fr : IfFrame := ⟨wordAddr k.x, k.x.mask, e, false, .plain, els, fin, {}⟩
      match els with
      | none =>
        (t = 0 → Places f k s s1 (atWord k (pushTop k.w k.slotB (.ifF { fr with inElse := true })) e fin)) ∧
        (t ≠ 0 → Places f k s s1 (onPath k (pushTop k.w k.slotB (.ifF fr)) t nxt))
      | some l =>
        (t = 0 → Places f k s s1 (onPath k (pushTop k.w k.slotB (.ifF { fr with inElse := true })) e l.nxt)) ∧
        (t ≠ 0 → e = 0 → Places f k s s1 (onPath k (pushTop k.w k.slotB (.ifF fr)) t nxt)) ∧
        (t ≠ 0 → e ≠ 0 → k.w.b.used = false → Places f k s s1
          { onPath k (pushTop k.w k.slotB (.ifF { fr with div := .split })) t nxt with
            b := { used := true, pc := l.nxt, mask := e, ctl := k.x.ctl } }) ∧
        (t ≠ 0 → e ≠ 0 → k.w.b.used = true → k.w.spills.length < 32 → Places f k s s1
          { onPath k (pushTop k.w k.slotB (.ifF { fr with div := .spilled })) t nxt with
            spills := ⟨k.slotB, l.nxt, e, k.x.ctl, false⟩ :: k.w.spills }) ∧
        (t ≠ 0 → e ≠ 0 → k.w.b.used = true → 32 ≤ k.w.spills.length →
          exec f.i s = .next (trapsWith f.sp k s1 { cause := 0x0D, sub := 2 })))) ∧
  ((∀ w, ∀ f ∈ elseForms w, ∀ (k : IC) (s : State), Passes f.sp k s →
    ∀ fr l, topFrame k.w k.slotB = some (.ifF fr) → fr.elseAt = some l → atLoc k.x l = true →
      (fr.div ≠ .spilled → Places f k s s (atWord k k.w 0 fr.endAt)) ∧
      (fr.div = .spilled → ∀ e rest, popSpill k.slotB k.w.spills = some (e, rest) →
        (e.bad = false → Places f k s s (modSlot (setTop { k.w with spills := rest } k.slotB
          (.ifF { fr with inElse := true, div := .spilledElse, saved := k.x.ctl })) k.slotB
          (fun x => toPc { x with mask := e.mask, ctl := e.ctl } e.pc))) ∧
        (e.bad = true → exec f.i s = .next (trapsWith f.sp k s { cause := 0x14, sub := 2 })))) ∧
  (∀ w, ∀ f ∈ endifForms w, ∀ (k : IC) (s : State), Passes f.sp k s →
    ∀ fr, topFrame k.w k.slotB = some (.ifF fr) → atLoc k.x fr.endAt = true →
      let nxt := wordAddr k.x + 4 * k.u.words
      let m := fr.entry &&& ~~~k.w.exited
      (fr.div = .split → (slotOf k.w (!k.slotB)).park ≠ .joining →
        Places f k s s (modSlot k.w k.slotB (fun x => { x with park := .joining }))) ∧
      (fr.div = .split → (slotOf k.w (!k.slotB)).park = .joining →
        Places f k s s (goMask (popTop { k.w with a := { toNextHdr k.w.a with park := .run }, b := {} } false) false m nxt)) ∧
      (fr.div = .plain ∨ fr.div = .spilled → Places f k s s (goMask (popTop k.w k.slotB) k.slotB m nxt)) ∧
      (fr.div = .spilledElse → Places f k s s
        (goMask (popTop (modSlot k.w k.slotB (fun x => { x with ctl := fr.saved })) k.slotB) k.slotB m nxt))))

/-- R106, R109: LOOP pushes its frame, or goes past its ENDLOOP when its count is 0; BREAK and CONT take their lanes out;
ENDLOOP runs the body again while lanes and trips remain, and otherwise leaves the loop. R108: the 65th frame traps; that it does so
before the scan is the model's choice (log entry 53). -/
def Obligations.LoopWordsComplete : Prop :=
  (∀ w x, ∀ p ∈ loopWords w x, ∀ (k : IC) (s : State), Passes p.1.sp k s →
    let n := p.2 k
    let nxt := wordAddr k.x + 4 * k.u.words
    (n ≠ some 0 → 64 ≤ frameCount k.w → exec p.1.i s = .next (trapsWith p.1.sp k s { cause := 0x0D, sub := 1 })) ∧
    (∀ s1 els fin, scan s k.b k.core k.w.ctx k.x false = .found s1 els fin →
      (n = some 0 → ∃ t, exec p.1.i s = .next t ∧ Jumped s1 t k fin.nxt k.w) ∧
      (n ≠ some 0 → frameCount k.w < 64 → Places p.1 k s s1
        (modSlot (pushTop k.w k.slotB (.loopF ⟨k.x.mask, 0, 0, n, nxt, fin⟩)) k.slotB (fun x => toPc x nxt))))) ∧
  (∀ w, ∀ p ∈ leaveWords w, ∀ (k : IC) (s : State), Passes p.1.sp k s →
    let c := if k.u.b = 0 then prGet k.w k.u.a else if k.u.b = 1 then ~~~(prGet k.w k.u.a) else BitVec.allOnes 64
    let l := k.x.mask &&& c
    let inLoop := ∃ fr, Frame.loopF fr ∈ framesOf k.w k.slotB
    (¬inLoop → exec p.1.i s = .next (trapsWith p.1.sp k s { cause := 0x0D, sub := 4 })) ∧
    (inLoop → Places p.1 k s s (goMask (setFrames k.w k.slotB (takeLanes p.2 l (framesOf k.w k.slotB))) k.slotB
      (k.x.mask &&& ~~~l) (wordAddr k.x + 4 * k.u.words)))) ∧
  (∀ w, ∀ f ∈ endloopForms w, ∀ (k : IC) (s : State), Passes f.sp k s →
    ∀ fr, topFrame k.w k.slotB = some (.loopF fr) → atLoc k.x fr.endAt = true →
      let l := k.x.mask ||| fr.cnt
      let left := fr.left.map (· - 1)
      (l ≠ 0 → left ≠ some 0 → Places f k s s
        (modSlot (setTop k.w k.slotB (.loopF { fr with cnt := 0, left := left })) k.slotB
          (fun x => toPc { x with mask := l } fr.head))) ∧
      (l = 0 ∨ left = some 0 → Places f k s s (goMask (popTop k.w k.slotB) k.slotB (fr.entry &&& ~~~k.w.exited)
        (wordAddr k.x + 4 * k.u.words))))

/-- R110, as it stands: ELSE, ENDIF or ENDLOOP traps with divergence stack, subcode 5, when the top frame is not of its
kind, or its address is not the one recorded in that frame. -/
def Obligations.StructureMismatchTraps : Prop :=
  (∀ w, ∀ f ∈ elseForms w, ∀ (k : IC) (s : State), Passes f.sp k s →
    (∀ fr l, topFrame k.w k.slotB = some (.ifF fr) → fr.elseAt = some l → atLoc k.x l = false) →
    exec f.i s = .next (trapsWith f.sp k s { cause := 0x0D, sub := 5 })) ∧
  (∀ w, ∀ f ∈ endifForms w, ∀ (k : IC) (s : State), Passes f.sp k s →
    (∀ fr, topFrame k.w k.slotB = some (.ifF fr) → atLoc k.x fr.endAt = false) →
    exec f.i s = .next (trapsWith f.sp k s { cause := 0x0D, sub := 5 })) ∧
  (∀ w, ∀ f ∈ endloopForms w, ∀ (k : IC) (s : State), Passes f.sp k s →
    (∀ fr, topFrame k.w k.slotB = some (.loopF fr) → atLoc k.x fr.endAt = false) →
    exec f.i s = .next (trapsWith f.sp k s { cause := 0x0D, sub := 5 }))

/-- R117: END takes the lanes of MASK out of the wave and of every frame, and adds them to the exited set; with lanes left
elsewhere its slot follows the empty-mask rule, with none left the wave drains its counters before it retires. -/
def Obligations.EndCompletes : Prop :=
  ∀ w, ∀ f ∈ endForms w, ∀ (k : IC) (s : State), Passes f.sp k s →
    let l := k.x.mask
    let out := fun (x : Slot) => { x with frames := x.frames.map (exitFrame l) }
    let w0 : Wave := { k.w with
      exited := k.w.exited ||| l, a := out k.w.a, b := out k.w.b, shared := k.w.shared.map (exitFrame l) }
    let w1 := modSlot w0 k.slotB (fun x => { toNextHdr x with mask := 0 })
    let gone := (k.w.exited ||| l) &&& allLanes k.w.width = allLanes k.w.width
    (gone → Places f k s s { w1 with st := .draining, a := {}, b := {}, spills := [] }) ∧
    (¬gone → Places f k s s (emptyMask w1 k.slotB))

/-- R119 to R121: a barrier word traps when its wave is diverged, has left, or finds the barrier broken, in that order;
otherwise BAR.ARR arrives once its release side is done, and traps on an arrival not yet awaited; BAR.WAIT continues when
the recorded phase is over, parks till then, and traps without an arrival; BAR.DROP leaves. -/
def Obligations.BarrierWordsComplete : Prop :=
  ∀ w, ∀ p ∈ (barArrForms w).map (·, 0) ++ (barWaitForms w).map (·, 1) ++ (barDropForms w).map (·, 2) ++
      (barSyncForms w).map (·, 3), ∀ (k : IC) (s : State), Passes p.1.sp k s →
    ∀ x, barOf s k.b k.u.a = some x →
    let div := k.w.b.used = true ∨ k.w.spills ≠ []
    let scope := if x.rope then 3 else 2
    let open_ := ¬div ∧ k.wid ∉ x.left ∧ x.broken = false
    (div → exec p.1.i s = .next (trapsWith p.1.sp k s { cause := 0x0D, sub := 3 })) ∧
    (¬div → k.wid ∈ x.left → exec p.1.i s = .next (trapsWith p.1.sp k s { cause := 0x0B, sub := 4 })) ∧
    (¬div → k.wid ∉ x.left → x.broken = true → exec p.1.i s = .next (trapsWith p.1.sp k s { cause := 0x0B, sub := 1 })) ∧
    (open_ → p.2 = 2 → exec p.1.i s = .next (completes p.1.sp k (barLeave s k.w.blk k.wid x))) ∧
    (open_ → (p.2 = 0 ∨ p.2 = 3) → (flagOf x k.wid).isSome = true →
      exec p.1.i s = .next (trapsWith p.1.sp k s { cause := 0x0B, sub := 2 })) ∧
    (open_ → p.2 = 0 → flagOf x k.wid = none → released scope k s →
      exec p.1.i s = .next (completes p.1.sp k (barArrive (ended scope k s) k.w.blk k.wid x))) ∧
    (open_ → p.2 = 1 → flagOf x k.wid = none → exec p.1.i s = .next (trapsWith p.1.sp k s { cause := 0x0B, sub := 3 })) ∧
    (open_ → p.2 = 1 → replayOf s k.w = false → ∀ ph, flagOf x k.wid = some ph →
      let s1 := setBar s k.w.blk { x with flags := x.flags.filter (fun f => f.1 ≠ k.wid) }
      (ph < x.phase → exec p.1.i s = .next (completes p.1.sp k
        (acquireFetch (acquire scope k (if x.rope then logged k 5 0 (bytesOf 8 ph) s1 else s1)) k.wid))) ∧
      (x.phase ≤ ph → Places p.1 k s s (modSlot k.w k.slotB (fun y => { y with park := .barrier x.rope x.num ph, phase := 0 })))) ∧
    (open_ → p.2 = 3 → flagOf x k.wid = none → released scope k s →
      let s1 := barArrive (ended scope k s) k.w.blk k.wid x
      ∀ y ph, (tget s1.blocks k.w.blk).bind (fun b => barOf s1 b k.u.a) = some y → flagOf y k.wid = some ph →
        replayOf s1 k.w = false →
        let s2 := setBar s1 k.w.blk { y with flags := y.flags.filter (fun f => f.1 ≠ k.wid) }
        (ph < y.phase → exec p.1.i s = .next (completes p.1.sp k
          (acquireFetch (acquire (if y.rope then 3 else 2) k (if y.rope then logged k 5 0 (bytesOf 8 ph) s2 else s2))
            k.wid))) ∧
        (y.phase ≤ ph → exec p.1.i s = .next (setsSlot p.1.sp k
          (setX k s1 (fun z => { z with park := .barrier y.rope y.num ph, phase := 0 })))))

/-! Memory (R150 to R185, R265 to R267, R299 to R316). -/

/-- R153: the checks of a word's addresses, in their order: alignment, the canonical space, translation, permission, range
locks. The lanes that meet the first condition met are the faulting lanes, the lowest gives the address. -/
def Obligations.AddressChecksComeInOrder : Prop :=
  ∀ (k : IC) (s : State) (lanes : Bool) (q : Need) (accs : List (Nat × Nat)),
    let lane := fun (bad : List (Nat × Nat)) => if lanes then laneSet (bad.map (·.1)) else 0
    let first := fun (bad : List (Nat × Nat)) => (bad.headD (0, 0)).2
    let mis := accs.filter (fun a => a.2 % q.n != 0)
    let non := accs.filter (fun a => !canonical a.2)
    let kn := fun (a : Nat × Nat) => xlatKnown s k.core k.w.ctx k.x a.2
    let inv := accs.filter (fun a => kn a == some none)
    let leaf := fun (a : Nat × Nat) => ((kn a).bind (fun l => l)).getD ⟨0, 0, false, false, false⟩
    let ref := accs.filter (fun a => (permBad s q (leaf a) a.2).isSome)
    let hit := accs.filter (fun a => (lockMem s (ropeOfCore k.core) k.w.ctx a.2 q.n q.wr).isSome)
    let known := mis = [] ∧ non = [] ∧ ∀ a ∈ accs, ∃ l, kn a = some (some l)
    (mis ≠ [] → memCheck k s lanes q accs =
      .trap { cause := 8, sub := 1, fmask := lane mis, addr := first mis, kind := q.kind }) ∧
    (mis = [] → non ≠ [] → memCheck k s lanes q accs =
      .trap { cause := 6, sub := 2, fmask := lane non, addr := first non, kind := q.kind }) ∧
    (mis = [] → non = [] → (∀ a ∈ accs, kn a ≠ none) → inv ≠ [] → memCheck k s lanes q accs =
      .trap { cause := 6, sub := 1, fmask := lane inv, addr := first inv, kind := q.kind }) ∧
    (known → ∀ a sub, ref.head? = some a → permBad s q (leaf a) a.2 = some sub → memCheck k s lanes q accs =
      .trap { cause := 7, sub := sub, fmask := lane ref, addr := a.2, kind := q.kind }) ∧
    (known → ref = [] → ∀ a h, hit.head? = some a → lockMem s (ropeOfCore k.core) k.w.ctx a.2 q.n q.wr = some h →
      memCheck k s lanes q accs =
        .trap { cause := 9, sub := h.1, fmask := lane hit, addr := a.2, kind := q.kind, extra := w64 h.2.seq }) ∧
    (known → ref = [] → hit = [] → memCheck k s lanes q accs = .go (accs.map (fun a => ⟨a.1, a.2, leafPa s (leaf a) a.2⟩)))

/-- R155, R157, R165: an LD whose addresses pass enters its load with the lanes' physical addresses, its destinations
empty, its counter raised; it waits while an acquire of its slot is not done or its counter is full, and takes the trap of
its addresses. With no lane live it completes at once (R332). PREF only moves on. -/
def Obligations.LoadsIssue : Prop :=
  (∀ w n, ∀ f ∈ ldForms w n, ∀ (k : IC) (s : State), Passes f.sp k s →
    let size := if k.u.two then 2 ^ k.u.size else 4
    let chk := memCheck k s true ⟨size, true, false, regAccepts size k.u.order, 1⟩ (laneEas (bit k.u.card 1) k)
    Laneless f k s .load ∧
    (k.live ≠ 0 → acqHeld k s = true → exec f.i s = .next (waitsAt f.sp k s)) ∧
    (k.live ≠ 0 → acqHeld k s = false →
      (∀ t, chk = .trap t → exec f.i s = .next (trapsWith f.sp k s t)) ∧
      (∀ accs, chk = .go accs → 63 ≤ k.w.cnt.load → exec f.i s = .next (waitsAt f.sp k s)) ∧
      (∀ accs, chk = .go accs → k.w.cnt.load < 63 → ∃ t, exec f.i s = .next t ∧
        Completed (entered s (opNow k s .load (.load size k.u.order (scopeK k) (bit k.u.card 0) (vNum k k.u.d) accs)))
          t k f.sp.u.words (acquiring k s (awaits k s .load .v (destSyms k (max 1 (size / 4)))))))) ∧
  (∀ w n, ∀ f ∈ prefForms w n, ∀ (k : IC) (s : State), Passes f.sp k s →
    ∃ t, exec f.i s = .next t ∧ Completed s t k f.sp.u.words k.w)

/-- R160, R161, R229, R399: an LDS whose offsets pass, with room in its counter and no error of the block's own scratchpad in the
bytes it reads, completes: it reads its lanes' bytes of the buffer as it issues, its destinations empty till they are written, with
the mark of the first byte that was poisoned when it was fetched; an error in the block's own scratchpad traps at the LDS. An STS
whose offsets pass, with room in its counter, completes: it writes its lanes' bytes at their offsets in ascending lane order as it
issues, counts, and writes no other byte of the scratchpad. Both take the trap of their offsets, wait without room or while an acquire
is not done, and complete at once with no lane live (R332). -/
def Obligations.ScratchpadWordsAct : Prop :=
  (∀ w n, ∀ f ∈ ldsForms w n, ∀ (k : IC) (s : State), Passes f.sp k s →
    let size := if k.u.two then 2 ^ k.u.size else 4
    let d := vNum k k.u.d
    let lo := fun l => bufAt k.b.var.info k.u.a + (bufOff k l).toNat
    let bad := (lanesOf k.live).flatMap (fun l => k.b.bufPois.filter (fun p => decide (lo l ≤ p.off ∧ p.off < lo l + size)))
    let syms := destSyms k (max 1 (size / 4))
    Laneless f k s .load ∧
    (k.live ≠ 0 → acqHeld k s = true → exec f.i s = .next (waitsAt f.sp k s)) ∧
    (k.live ≠ 0 → acqHeld k s = false →
      (∀ t, bufCheck k s false = some t → exec f.i s = .next (trapsWith f.sp k s t)) ∧
      (bufCheck k s false = none → (∀ p ∈ bad, p.sub ≠ 2) → 63 ≤ k.w.cnt.load → exec f.i s = .next (waitsAt f.sp k s)) ∧
      (bufCheck k s false = none → (∀ p ∈ bad, p.sub ≠ 2) → k.w.cnt.load < 63 →
        ∃ t, exec f.i s = .next t ∧
          Completed (entered s (opNow k s .load (.vals ((lanesOf k.live).flatMap (fun l =>
            (loadWords size (bit k.u.card 0) (bufBytes k.b k.u.a (bufOff k l).toNat size)).zipIdx.map
              (fun x => (d + x.2, l, w32 x.1)))) [] []
            (bad.head?.elim [] (fun p => syms.map (fun n => ⟨.v, n, p.sub, p.orig, p.addr⟩))) []))) t k f.sp.u.words
            (awaits k s .load .v syms)) ∧
      (bufCheck k s false = none → (∃ p ∈ bad, p.sub = 2) →
        ∃ p ∈ bad, p.sub = 2 ∧ exec f.i s = .next (trapsWith f.sp k s { cause := 0x14, sub := 2, addr := p.addr })))) ∧
  (∀ w n, ∀ f ∈ stsForms w n, ∀ (k : IC) (s : State), Passes f.sp k s →
    let size := if k.u.two then 2 ^ k.u.size else 4
    let at_ := fun l => (bufAt k.b.var.info k.u.a : Int) + bufOff k l
    let covers := fun (l p : Nat) => at_ l ≤ (p : Int) ∧ (p : Int) < at_ l + (size : Nat)
    Laneless f k s .store ∧
    (k.live ≠ 0 → acqHeld k s = true → exec f.i s = .next (waitsAt f.sp k s)) ∧
    (k.live ≠ 0 → acqHeld k s = false →
      (∀ t, bufCheck k s true = some t → exec f.i s = .next (trapsWith f.sp k s t)) ∧
      (bufCheck k s true = none → 63 ≤ k.w.cnt.store → exec f.i s = .next (waitsAt f.sp k s)) ∧
      (bufCheck k s true = none → k.w.cnt.store < 63 → ∃ s1 t b1, exec f.i s = .next t ∧
        Completed s1 t k f.sp.u.words (cntUp k.w .store) ∧
        s1 = { entered s (opNow k s .store (.store [] s.now)) with blocks := s1.blocks } ∧
        (∀ i, i ≠ k.w.blk → tget s1.blocks i = tget s.blocks i) ∧ tget s1.blocks k.w.blk = some b1 ∧
        b1 = { k.b with scr := b1.scr, bufPois := b1.bufPois } ∧
        (∀ p, (∀ l ∈ lanesOf k.live, ¬covers l p) → tgetD b1.scr p 0 = tgetD k.b.scr p 0) ∧
        (∀ l ∈ lanesOf k.live, ∀ p, covers l p → (∀ j ∈ lanesOf k.live, l < j → ¬covers j p) →
          tgetD b1.scr p 0 = (laneBytes k k.u.d size l).getD (p - (at_ l).toNat) 0))))

/-- R154, R155, R158: an ST whose addresses pass performs its lanes' writes at its scope once earlier accesses of its wave to
the bytes are done, and an .rel once its release side is; it waits till then, and takes the trap of its addresses. With no
lane live it completes at once (R332). -/
def Obligations.StoresIssue : Prop :=
  ∀ w n, ∀ f ∈ stForms w n, ∀ (k : IC) (s : State), Passes f.sp k s →
    let size := if k.u.two then 2 ^ k.u.size else 4
    let chk := memCheck k s true ⟨size, false, true, regAccepts size k.u.order, 2⟩ (laneEas (bit k.u.card 1) k)
    Laneless f k s .store ∧
    (k.live ≠ 0 → acqHeld k s = true → exec f.i s = .next (waitsAt f.sp k s)) ∧
    (k.live ≠ 0 → acqHeld k s = false →
      (∀ t, chk = .trap t → exec f.i s = .next (trapsWith f.sp k s t)) ∧
      (∀ accs, chk = .go accs → storeHeld k s accs size = true ∨ 63 ≤ k.w.cnt.store →
        exec f.i s = .next (waitsAt f.sp k s)) ∧
      (∀ accs, chk = .go accs → storeHeld k s accs size = false → k.w.cnt.store < 63 →
        beginDone k s → exec f.i s = .next (completes f.sp k
          (storeAll k (begun k s) (scopeK k) accs (laneBytes k k.u.d size)))))

/-- R154, R266, R401: a store in an L1 that holds no update-only copy of its line, kept there, makes the line dirty with its
bytes, and leaves every other dirty byte, every other line, the homes and the writes on their way as they were, where the L1
holds the line or has room for it; one to a departed peer's memory is dropped; beyond the reach, it sends its bytes home together
with the line's dirty bytes, and leaves the homes and every other line. -/
def Obligations.StoresChangeTheirBytesOnly : Prop :=
  (∀ (s : State) (cid ctx pa scope blk : Nat) (bs : List Byte),
    (∀ code size el c g, getLine s cid (lineOf pa) ≠ some ⟨.upd code size el, c, g⟩) →
    (l1Of s cid).length < 2048 ∨ (getLine s cid (lineOf pa)).isSome = true →
    pa % 128 + bs.length ≤ 128 → departed s pa = false →
    let t := narrowStore s cid ctx pa bs scope blk
    let was := match getLine s cid (lineOf pa) with | some ⟨.dirty by_ _, _, g⟩ => (by_, g) | _ => ([], blk)
    ∃ now, getLine t cid (lineOf pa) = some ⟨.dirty now scope, ctx, if was.2 = blk then blk else s.nextId⟩ ∧
      (∀ i, i < bs.length → tget now (pa + i) = bs[i]?) ∧
      (∀ a, (a < pa ∨ pa + bs.length ≤ a) → tget now a = tget was.1 a) ∧
      (∀ c ln, (c, ln) ≠ (cid, lineOf pa) → getLine t c ln = getLine s c ln) ∧
      t = { s with l1 := t.l1, nextId := s.nextId + 1 }) ∧
  (∀ (s : State) (cid ctx pa scope blk : Nat) (bs : List Byte), departed s pa = true →
    narrowStore s cid ctx pa bs scope blk = s) ∧
  (∀ (s : State) (wid ctx cid pa op scope : Nat) (bs : List Byte),
    (∀ code size el c g, getLine s cid (lineOf pa) ≠ some ⟨.upd code size el, c, g⟩) →
    pa % 128 + bs.length ≤ 128 →
    let r := wideStore s wid ctx cid pa bs op scope
    let was := match getLine s cid (lineOf pa) with | some ⟨.dirty by_ _, _, _⟩ => by_ | _ => []
    ∃ sent, tget r.2.hw r.1 = some ⟨wid, ctx, cid, sent, none, some op, scope, none, []⟩ ∧
      (∀ i, i < bs.length → tget sent (pa + i) = bs[i]?) ∧
      (∀ a, (a < pa ∨ pa + bs.length ≤ a) → tget sent a = tget was a) ∧
      (∀ c ln, (c, ln) ≠ (cid, lineOf pa) → getLine r.2 c ln = getLine s c ln) ∧
      (∀ h, h ≠ r.1 → tget r.2.hw h = tget s.hw h) ∧
      r.2 = { s with l1 := r.2.l1, hw := r.2.hw, nextId := r.2.nextId })

/-- R267: bytes performed at their homes read there from then on, in every form of their address; every other byte of
memory reads as before. -/
def Obligations.PerformedWritesChangeTheirBytesOnly : Prop :=
  ∀ (s : State) (bytes : Tbl Byte),
    (∀ e ∈ bytes, isStorage s e.1 = true ∧ departed s e.1 = false) →
    (bytes.map (fun e => canonPa s e.1)).Nodup →
    let t := (performBytes s bytes).1
    (∀ e ∈ bytes, rdByte t e.1 = e.2) ∧
    (∀ a, (∀ e ∈ bytes, canonPa s e.1 ≠ canonPa s a) → rdByte t a = rdByte s a)

/-- R162, R164, R166, R271, R282: FENCE completes once the sides that its card keeps are done; FENCE.I waits for its slot's
acquires, empties its core's fetched words, and drops those on their way that were read before the wave's last acquire or release
at device scope; CWB sends its lines' bytes to their homes, and counts until they are performed. That the acquire side waits for the
wave's reads, that FENCE.I waits for its slot's acquires, and which fetched words it drops are the DEDUCED choices of log entry 41;
that R153 checks a CWB lane as one byte is the DESIGN CHOICE of log entry 53. -/
def Obligations.FencesComplete : Prop :=
  (∀ w n, ∀ f ∈ fenceForms w n, ∀ (k : IC) (s : State), Passes f.sp k s →
    let x := scopeK k
    (bit k.u.card 0 = true → readBusy s k.wid = true → exec f.i s = .next (waitsAt f.sp k s)) ∧
    (bit k.u.card 0 = true → readBusy s k.wid = false → exec f.i s = .next (completes f.sp k (acquire x k s))) ∧
    (bit k.u.card 0 = false → released x k s → exec f.i s = .next (completes f.sp k
      (if bit k.u.card 1 then ended x k s else acquire x k (ended x k s)))) ∧
    (bit k.u.card 0 = false → ¬released x k s → exec f.i s = .next (waitsAt f.sp k (sent x k s)))) ∧
  (∀ w, ∀ f ∈ fenceIForms w, ∀ (k : IC) (s : State), Passes f.sp k s →
    (acqHeld k s = true → exec f.i s = .next (waitsAt f.sp k s)) ∧
    (acqHeld k s = false → ∃ t, exec f.i s = .next t ∧ Completed { s with
      icache := tdel s.icache k.core
      fetches := tset [] s.fetches k.core ((tgetD s.fetches k.core []).filter (fun e => k.w.acqAt ≤ e.2.2)) }
      t k f.sp.u.words k.w)) ∧
  (∀ w n, ∀ f ∈ cwbForms w n, ∀ (k : IC) (s : State), Passes f.sp k s →
    Laneless f k s .store ∧
    ∀ accs, k.live ≠ 0 → acqHeld k s = false → k.w.cnt.store < 63 →
      memCheck k s true ⟨1, false, true, fun _ => false, 2⟩ (laneEas (bit k.u.card 1) k) = .go accs →
      let lines := (accs.map (fun a => 128 * lineOf a.pa)).eraseDups
      let r := lines.foldl (cwbLine k s.nextId) ({ s with nextId := s.nextId + 1 }, [], 0)
      exec f.i s = .next (completes f.sp k (modWave
        { r.1 with ops := tput r.1.ops s.nextId (opNow k s .store (.store r.2.1 r.2.2)) } k.wid (fun w => cntUp w .store))))

/-- R179 to R185, R301, R302: ATOM enters its update with its lanes' operands, its destinations empty; RED performs its
lanes' updates at its scope; both take the trap of their addresses, wait while an acquire of their slot is not done, their counter is
full or an earlier access of the wave to the bytes stands in their way, and complete at once with no lane live (R332). WAITC
completes with the word that meets its condition, and otherwise parks at its monitor. That WAITC first writes back its own L1's
line is the DEDUCED choice of log entry 21, that a departed peer's word waits that of log entry 33, and that a RED waits for its
L1's writes on their way to its lines that of log entry 38. -/
def Obligations.AtomicsIssue : Prop :=
  (∀ w n, ∀ f ∈ atomForms w n, ∀ (k : IC) (s : State), Passes f.sp k s → Laneless f k s .load ∧
    (k.live ≠ 0 → acqHeld k s = true → exec f.i s = .next (waitsAt f.sp k s)) ∧ (k.live ≠ 0 → acqHeld k s = false →
    let size := 2 ^ (k.u.size % 4)
    let chk := memCheck k s true ⟨size, false, true, fun _ => false, 3⟩ (laneEas (bit k.u.size 2) k)
    (∀ t, chk = .trap t → exec f.i s = .next (trapsWith f.sp k s t)) ∧
    (∀ accs, chk = .go accs → fetchHeld k s accs size = true ∨ 63 ≤ k.w.cnt.load →
      exec f.i s = .next (waitsAt f.sp k s)) ∧
    (∀ accs, chk = .go accs → fetchHeld k s accs size = false → k.w.cnt.load < 63 → beginDone k s →
      let s1 := atDrain k (begun k s) (accs.map (·.pa))
      exec f.i s = .next (completes f.sp k (modWave
        (entered s1 (opNow k s1 .load (.atom k.u.card size k.u.order (scopeK k) (vNum k k.u.d) (accs.map (atLane k)) [] [])))
        k.wid (fun w => acquiring k s1 (markEmpty (cntUp w .load) .v (destSyms k (size / 4)) s1.nextId))))))) ∧
  (∀ w n, ∀ f ∈ redForms w n, ∀ (k : IC) (s : State), Passes f.sp k s → Laneless f k s .store ∧
    (k.live ≠ 0 → acqHeld k s = true → exec f.i s = .next (waitsAt f.sp k s)) ∧ (k.live ≠ 0 → acqHeld k s = false →
    let size := 2 ^ (k.u.size % 4)
    let chk := memCheck k s true ⟨size, false, true, fun _ => false, 3⟩ (laneEas (bit k.u.size 2) k)
    (∀ t, chk = .trap t → exec f.i s = .next (trapsWith f.sp k s t)) ∧
    (∀ accs, chk = .go accs → storeHeld k s accs size = true ∨ 63 ≤ k.w.cnt.store → exec f.i s = .next (waitsAt f.sp k s)) ∧
    (∀ accs, chk = .go accs → storeHeld k s accs size = false → k.w.cnt.store < 63 → beginDone k s →
      let s0 := begun k s
      let s1 := if scopeK k ≤ reachOf s0 k.core then s0
        else ((accs.map (fun a => 128 * lineOf a.pa)).eraseDups).foldl (fun s a =>
          writeBack s k.wid k.w.ctx (cacheOf s k.core a) (lineOf a)) s0
      (linesBusy s1 k.core (accs.map (·.pa)) = true → exec f.i s = .next (waitsAt f.sp k s1)) ∧
      (linesBusy s1 k.core (accs.map (·.pa)) = false →
      let r := (accs.map (atLane k)).foldl (redLane k s1.nextId) ({ s1 with nextId := s1.nextId + 1 }, [])
      exec f.i s = .next (completes f.sp k (if r.2 = [] then r.1
        else modWave { r.1 with ops := tput r.1.ops s1.nextId (opNow k s1 .store (.store r.2 0)) } k.wid
          (fun w => cntUp w .store))))))) ∧
  (∀ w n, ∀ f ∈ waitcForms w n, ∀ (k : IC) (s : State), Passes f.sp k s → acqHeld k s = true →
    exec f.i s = .next (waitsAt f.sp k s)) ∧
  (∀ w n, ∀ f ∈ waitcForms w n, ∀ (k : IC) (s : State), Passes f.sp k s → acqHeld k s = false → replayOf s k.w = false →
    let va := wrapI 64 (((sVal k k.u.a).toNat : Int) + sextI k.u.disp 12)
    let size := if k.u.two then 2 ^ k.u.size else 4
    ∀ l pa, memCheck k s false ⟨size, true, false, fun _ => false, 1⟩ [(0, va)] = .go [⟨l, va, pa⟩] →
      let s0 := reachNow s k.wid (homeLevel s k.core pa)
      let s1 := writeBack s0 k.wid k.w.ctx (cacheOf s0 k.core pa) (lineOf pa)
      linesBusy s1 k.core [pa] = false → storeHeld k s1 [⟨l, va, pa⟩] size = false →
      let r := homeRead (dropClean s1 (cacheOf s1 k.core pa) (lineOf pa)) pa size
      (departed s0 pa = true → exec f.i s = .next (setsSlot f.sp k (waitMon k s1 va pa))) ∧
      (departed s0 pa = false → (∀ i < size, unitPois r.2 (pa + i) = false) → (∀ w1, tget r.2.waves k.wid = some w1 → replayOf r.2 w1 = false) →
      let m := ofBytes r.1
      let v := monExt k.u.card size m
      (monCond k.u.card size m (sVal k k.u.c) = false → exec f.i s = .next (setsSlot f.sp k (waitMon k r.2 va pa))) ∧
      (monCond k.u.card size m (sVal k k.u.c) = true →
        let s2 := setD k (logged k 2 va (bytesOf 8 v.toNat) r.2) v
        exec f.i s = .next (completes f.sp k (if k.u.order == 2 then acquire (scopeK k) k s2 else s2)))))

/-! Tickets, iterators, copies, mailboxes (R145 to R149, R167 to R178, R204 to R219). -/

/-- R169 to R171: an LDT of an aligned, canonical, known and unlocked range drains the range from its L1 and issues, with a
fault in place of a page it may not read; its ticket is written to s_d later. Beyond the quota it traps with subcode 6. Where its
slice has no free entry or no bytes for it, its slot keeps the fetch in hand: that the word issues and its slot waits is the DEDUCED
choice of log entry 22. -/
def Obligations.TicketFetchesIssue : Prop :=
  ∀ w n, ∀ f ∈ ldtForms w n, ∀ (k : IC) (s : State), Passes f.sp k s →
    let va := wrapI 64 (((sVal k k.u.a).toNat : Int) + sextI k.u.disp 12)
    let size := 64 * 2 ^ (if k.u.two then k.u.card % 8 else 1)
    let issues := fun (s1 : State) (pa g : Nat) (flt : Option Nat) =>
      let u := tkUse s1 k.w.ctx g
      let c := ctxOf s1 k.w.ctx
      let over_ := c.tkent ≤ u.1 ∨ (flt = none ∧ c.tkkib * 1024 < u.2 + size)
      (replayOf s1 k.w = false → over_ → exec f.i s = .next (trapsWith f.sp k s1 { cause := 0x0A, sub := 6 })) ∧
      ((replayOf s1 k.w = true ∨ ¬over_) → 63 ≤ k.w.cnt.ticket → exec f.i s = .next (waitsAt f.sp k s1)) ∧
      ((replayOf s1 k.w = true ∨ ¬over_) → k.w.cnt.ticket < 63 →
        let t := modWave (entered s1 (opNow k s1 .ticket (.ldt (sNum k k.u.d) va pa size (scopeK k) flt g))) k.wid
          (fun w => markEmpty (cntUp w .ticket) .s [sNum k k.u.d] s1.nextId)
        exec f.i s = .next (completes f.sp k (if replayOf s1 k.w = false ∧ sliceFull s1 g size flt = true
          then setX k t (fun x => { x with ldt := some s1.nextId }) else t)))
    (acqHeld k s = true → exec f.i s = .next (waitsAt f.sp k s)) ∧
    (acqHeld k s = false → va % size ≠ 0 → exec f.i s = .next (trapsWith f.sp k s { cause := 8, sub := 1, addr := va })) ∧
    (acqHeld k s = false → va % size = 0 → canonical va = false →
      exec f.i s = .next (trapsWith f.sp k s { cause := 6, sub := 2, addr := va })) ∧
    (acqHeld k s = false → va % size = 0 → canonical va = true → ∀ lf, xlatKnown s k.core k.w.ctx k.x va = some lf →
      let regs := ∃ l, lf = some l ∧ regionOf s (leafPa s l va) = .regs
      let lock := lockMem s (ropeOfCore k.core) k.w.ctx va size false
      (regs → exec f.i s = .next (trapsWith f.sp k s { cause := 7, sub := 4, addr := va })) ∧
      (¬regs → ∀ h, lock = some h → exec f.i s = .next (trapsWith f.sp k s
        { cause := 9, sub := h.1, addr := va, extra := w64 h.2.seq })) ∧
      (¬regs → lock = none → lf = none → issues s 0 (stackOfCore k.core) (some 6)) ∧
      (¬regs → lock = none → ∀ l, lf = some l → l.rd = false → issues s 0 (stackOfCore k.core) (some 7)) ∧
      (¬regs → lock = none → ∀ l, lf = some l → l.rd = true →
        let pa := leafPa s l va
        let s1 := drainLines k s pa size
        linesBusy s1 k.core ((upto (max 1 (size / 128))).map (fun i => pa + 128 * i)) = false →
        issues s1 pa (if isDevMem s pa then homeSlice s pa else stackOfCore k.core) none))

/-- R172 to R175, R307: a redeem of a ticket that is not live traps with the subcode of its state, of the wrong size with 5,
of a faulted one with 4, which moves the entry on; a ready one moves on and its bytes are delivered; a pending one is
claimed, and the destinations stay empty. -/
def Obligations.RedeemsComplete : Prop :=
  ∀ w n, ∀ p ∈ (rdmVForms w n).map (·, true) ++ (rdmSForms w n).map (·, false), ∀ (k : IC) (s : State), Passes p.1.sp k s →
    acqHeld k s = false → k.w.cnt.load < 63 → replayOf s k.w = false →
    let off := (if k.u.nx = 1 then 0 else sextI (sVal k k.u.b).toNat 64) + sextI k.u.disp 12
    let size := 64 * 2 ^ (if k.u.two then k.u.card % 8 else 1)
    (p.2 = true ∨ (0 ≤ off ∧ off + (size : Nat) ≤ (bufSize k.b k.u.d : Int) ∧ off % 16 = 0 ∧
      lockBuf s (ropeOfCore k.core) k.w.blk k.u.d off.toNat size true = none)) →
    let t := sVal k k.u.a
    let e := ticketAt s (tkSlice t) (tkIndex t)
    let st := claimState s k.w.ctx t
    let dst := if p.2 then RdmDest.vec (vNum k k.u.d) else RdmDest.buf k.u.d off.toNat
    let empties := fun (id : Nat) (w : Wave) => if p.2 then markEmpty w .v (destSyms k (max 1 (size / (4 * k.w.width)))) id
      else markEmpty w .v [] id
    (3 ≤ st → exec p.1.i s = .next (trapsWith p.1.sp k s { cause := 0x0A, sub := st - 2, extra := t })) ∧
    (st < 3 → e.size ≠ size → exec p.1.i s = .next (trapsWith p.1.sp k s { cause := 0x0A, sub := 5, extra := t })) ∧
    (st < 3 → e.size = size → e.st = .faulted → exec p.1.i s =
      .next (trapsWith p.1.sp k (putTicket s (tkSlice t) (tkIndex t) (moveOn e false))
        { cause := 0x0A, sub := 4 + 256 * e.cause, addr := e.va, orig := some e.orig, extra := t })) ∧
    (st < 3 → e.size = size → e.st = .ready →
      let s1 := logged k 3 e.va (tkData e) (putTicket s (tkSlice t) (tkIndex t) (moveOn e false))
      exec p.1.i s = .next (completes p.1.sp k (modWave
        (entered s1 (opNow k s1 .load (rdmBody k.w.width dst e (tkData e)))) k.wid
        (fun w => empties s1.nextId (cntUp w .load))))) ∧
    (st < 3 → e.size = size → e.st = .pending →
      let s1 := modWave (entered s (opNow k s .load (.rdm dst t size))) k.wid (fun w => empties s.nextId (cntUp w .load))
      exec p.1.i s = .next (completes p.1.sp k
        (putTicket s1 (tkSlice t) (tkIndex t) { e with claim := some (.wave s.nextId) })))

/-- R176, R177: TKREL moves a pending, ready or faulted entry on and traps on another; TKQ asks for a state word and never
traps on the state. -/
def Obligations.TicketReleaseAndQueryComplete : Prop :=
  (∀ w, ∀ f ∈ tkrelForms w, ∀ (k : IC) (s : State), Passes f.sp k s →
    let t := sVal k k.u.a
    let st := claimState s k.w.ctx t
    (replayOf s k.w = true → ∃ u, exec f.i s = .next u ∧ Completed s u k f.sp.u.words k.w) ∧
    (replayOf s k.w = false → 3 ≤ st →
      exec f.i s = .next (trapsWith f.sp k s { cause := 0x0A, sub := st - 2, extra := t })) ∧
    (replayOf s k.w = false → st < 3 → ∃ u, exec f.i s = .next u ∧
      Completed (putTicket s (tkSlice t) (tkIndex t) (moveOn (ticketAt s (tkSlice t) (tkIndex t)) false)) u k f.sp.u.words k.w)) ∧
  (∀ w, ∀ f ∈ tkqForms w, ∀ (k : IC) (s : State), Passes f.sp k s →
    (63 ≤ k.w.cnt.ticket → exec f.i s = .next (waitsAt f.sp k s)) ∧
    (k.w.cnt.ticket < 63 → ∃ t, exec f.i s = .next t ∧
      Completed (entered s (opNow k s .ticket (.tkq (sNum k k.u.d) (sVal k k.u.a)))) t k f.sp.u.words
        (awaits k s .ticket .s [sNum k k.u.d])))

/-- R145 to R149: TIDEF writes the checked record to its eight symbols, or traps with the offset of the first bad word;
TSWEEP runs the elements that are left in ascending order, TWALK the segments that are not done, those without elements being done;
a trap in them leaves the work done and its PROGRESS. The order in which TWALK visits its segments is the DESIGN CHOICE of log entry
13, and that both check locks element by element the DEDUCED choice of log entry 39. -/
def Obligations.IteratorWordsComplete : Prop :=
  (∀ w n, ∀ f ∈ tidefForms w n, ∀ (k : IC) (s : State), Passes f.sp k s →
    (∀ bad, iterBad (iterAt k) = some bad → exec f.i s = .next (trapsWith f.sp k s { cause := 2, sub := bad })) ∧
    (iterBad (iterAt k) = none → ∃ t, exec f.i s = .next t ∧ Completed s t k f.sp.u.words
      (putScalars k.w (sNum k k.u.d) (iterInit (iterAt k) k.u.scope k.u.order)))) ∧
  (∀ w n, ∀ f ∈ tsweepForms w n, ∀ (k : IC) (s : State), Passes f.sp k s → acqHeld k s = false →
    let r := iterAt k
    let sym := sNum k k.u.a + 7
    let left := r.count - r.progress
    let good := r.valid = true ∧ r.progress ≤ r.count ∧ r.type ∈ iterTys ∧ ¬(isFltTy r.type = true ∧ 5 ≤ k.u.card ∧ k.u.card ≤ 7)
    let p := prepass k s r (sweepAccs r k.u.card) ((upto left).map (fun i => r.progress + i))
    let s0 := sweepDrain k s r p.2
    let ready := p.1 = [] ∧ linesBusy s0 k.core p.2 = false ∧ (∀ pa ∈ p.2, storeHeld k s0 [⟨0, 0, pa⟩] r.size = false) ∧
      k.w.cnt.load < 63
    (¬good → exec f.i s = .next (trapsWith f.sp k s { cause := 2, sub := 0 })) ∧
    (good → ready → ∀ s1, sweepRun k r k.u.card left r.progress s0 = .all s1 →
      exec f.i s = .next (completes f.sp k (modWave
        (entered s1 (opNow k s1 .load (.vals [] [(sym, withProgress r r.count)] [] [] []))) k.wid
        (fun w => markEmpty (cntUp w .load) .s [sym] s1.nextId)))) ∧
    (good → ready → ∀ s1 e t, sweepRun k r k.u.card left r.progress s0 = .at_ s1 e t →
      exec f.i s = .next (trapsWith f.sp k (modWave s1 k.wid (fun w => putS w sym (withProgress r e))) t))) ∧
  (∀ w n, ∀ f ∈ twalkForms w n, ∀ (k : IC) (s : State), Passes f.sp k s → acqHeld k s = false →
    let r := iterAt k
    let d := sNum k k.u.d
    let sym := sNum k k.u.a + 7
    let js := walkSegs r (Config.walkOrder s.fresh)
    let s0 := { s with fresh := s.fresh + 1 }
    let good := r.valid = true ∧ r.type ∈ iterTys ∧ isFltTy r.type = false
    let ready := let p := prepass k s0 r (fun e => [(r.addr 1 e, false)]) (js.flatMap (segElems r.count))
      p.1 = [] ∧ linesBusy s k.core p.2 = false ∧ (∀ pa ∈ p.2, storeHeld k s [⟨0, 0, pa⟩] r.size = false) ∧ k.w.cnt.load < 63
    (¬good → exec f.i s = .next (trapsWith f.sp k s { cause := 2, sub := 0 })) ∧
    (good → ready → ∀ s1 acc, walkRun k r k.u.card js s0 (scGet k.w d) (walkDone r) = .all s1 acc →
      exec f.i s = .next (completes f.sp k (modWave
        (entered s1 (opNow k s1 .load (.vals [] [(d, acc), (sym, withProgress r 0xFFFFFFFF)] [] [] []))) k.wid
        (fun w => markEmpty (cntUp w .load) .s [d, sym] s1.nextId)))) ∧
    (good → ready → ∀ s1 acc prog t, walkRun k r k.u.card js s0 (scGet k.w d) (walkDone r) = .at_ s1 acc prog t →
      exec f.i s = .next (trapsWith f.sp k
        (modWave s1 k.wid (fun w => putS (putS w d acc) sym (withProgress r prog))) t)))

/-- R204 to R206, R212: a copy word whose descriptor passes its checks joins its slice to the block's next copy and gives
s_d the copy's number; CPYW parks its slot until the copy's record is written. A word that issues again behind a trap that left its
copy running keeps its part in it (DEDUCED, log entry 33). -/
def Obligations.CopyWordsComplete : Prop :=
  ∀ w m, ∀ p ∈ copyWords w m, ∀ (k : IC) (s : State), Passes p.1.sp k s → acqHeld k s = false →
    let sl := sliceOfWord k p.2 none
    let n := (nextCopy k (originK k)).1
    let joins := fun (s : State) (x : CopySlice) =>
      if (nextCopy k (originK k)).2 then s else joinCopy s k.w.blk n (neverComes s k.b n) x
    let buf := fun (b off : Nat) => b < k.b.var.info.bufs.length ∧ off + sl.len ≤ bufSize k.b b
    let good := (bit sl.card 0 = true → buf sl.sbuf sl.src) ∧ (bit sl.card 1 = false → buf sl.dbuf sl.dst) ∧
      (∀ x ∈ [sl.src, sl.dst, sl.len, sl.recVa], x % 16 = 0) ∧ recordTrap k s sl.recVa = some none ∧
      sliceReserved k sl = false
    let numbered := modWave s k.wid (fun w => { writeS (fun _ => w64 n) k w with copyK := n })
    let late := ∃ c, tget k.b.copies n = some c ∧ c.st = 2
    (good → ¬late → p.2 ≠ 2 → k.w.cnt.copy < 63 → exec p.1.i s = .next (completes p.1.sp k
      (joins (modWave (entered numbered (opNow k s .copy (.cpy n))) k.wid (fun w => cntUp w .copy)) { sl with op := some s.nextId }))) ∧
    (good → ¬late → p.2 ≠ 2 → 63 ≤ k.w.cnt.copy → exec p.1.i s = .next (waitsAt p.1.sp k s)) ∧
    (good → ¬late → p.2 = 2 → exec p.1.i s = .next (setsSlot p.1.sp k
      (setX k (joins numbered { sl with undo := some (sdOld k) }) (fun x => { x with park := .cpyw n })))) ∧
    (good → late → (p.2 = 2 ∨ k.w.cnt.copy < 63) → exec p.1.i s = .next (completes p.1.sp k numbered))

/-- R213 to R218: MBSEND takes the mailbox's next sequence number and sends its message once its release side is done, and
MBRECV takes a waiting observation or parks; both trap on the first check of R215 that fails.
MBPOLL asks for the mailbox's state word, s_d empty till it comes; MBVER raises its context's POLICY once its release side is done
and gives s_d the new value; both trap on a reserved bit, an unbound or foreign mailbox, a version out of range. -/
def Obligations.MailboxWordsComplete : Prop :=
  (∀ w m, ∀ f ∈ mbsendForms w m, ∀ (k : IC) (s : State), Passes f.sp k s → acqHeld k s = false →
    let e := bits (sVal k k.u.a).toNat 8 0
    (∀ t, mbTrap k s true = some t → exec f.i s = .next (trapsWith f.sp k s t)) ∧
    (mbTrap k s true = none → k.w.cnt.copy < 63 → released 5 k s →
      let s1 := ended 5 k s
      (∀ w1, tget s1.waves k.wid = some w1 → replayOf s1 w1 = false) → replayOf s1 k.w = false →
      let seq := w64 (epOf s1 e).actSeq
      (actsUsed s1 e < mbDepth →
        let s2 := modEp (setD k (logged k 4 0 (bytesOf 8 seq.toNat) s1) seq) e (fun x => { x with actSeq := x.actSeq + 1 })
        exec f.i s = .next (completes f.sp k (modWave (entered s2 (opNow k s2 .copy
          (.mbsend e k.u.b (mbOff k) (mbLen k) (ctxOf s1 k.w.ctx).policy seq))) k.wid (fun w => cntUp w .copy)))) ∧
      (mbDepth ≤ actsUsed s1 e → bit k.u.card 0 = true →
        exec f.i s = .next (completes f.sp k (setD k (logged k 4 0 (bytesOf 8 0) s1) 0))) ∧
      (mbDepth ≤ actsUsed s1 e → bit k.u.card 0 = false → exec f.i s = .next (waitsAt f.sp k s1)))) ∧
  (∀ w m, ∀ f ∈ mbrecvForms w m, ∀ (k : IC) (s : State), Passes f.sp k s → acqHeld k s = false → replayOf s k.w = false →
    let e := bits (sVal k k.u.a).toNat 8 0
    let d := sNum k k.u.d
    let held := ∃ i ∈ (epOf s e).waiters, ∃ o mb buf off dd, tget s.ops i = some o ∧ o.body = .mbrecv mb buf off dd none
    let joins := fun (got : Option Msg) (s : State) =>
      modWave (entered s (opNow k s .copy (.mbrecv e k.u.b (mbOff k) d got))) k.wid
        (fun w => markEmpty (cntUp w .copy) .s [d] s.nextId)
    (∀ t, mbTrap k s false = some t → exec f.i s = .next (trapsWith f.sp k s t)) ∧
    (mbTrap k s false = none → k.w.cnt.copy < 63 → ¬held → ∀ x rest, (epOf s e).obs = x :: rest →
      exec f.i s = .next (completes f.sp k (holdSlot k (modEp (joins (some x) s) e (fun y =>
        { y with obs := rest, waiters := y.waiters ++ [s.nextId] })) s.nextId))) ∧
    (mbTrap k s false = none → k.w.cnt.copy < 63 → (held ∨ (epOf s e).obs = []) → bit k.u.card 0 = false →
      exec f.i s = .next (setsSlot f.sp k (setX k (modEp (joins none s) e (fun y =>
        { y with waiters := y.waiters ++ [s.nextId] })) (fun x => { x with park := .mbrecv s.nextId, phase := 0 })))) ∧
    (mbTrap k s false = none → k.w.cnt.copy < 63 → (held ∨ (epOf s e).obs = []) → bit k.u.card 0 = true →
      exec f.i s = .next (completes f.sp k (setD k (logged k 4 0 (bytesOf 8 0) s) 0)))) ∧
  (∀ w m, ∀ f ∈ mbpollForms w m, ∀ (k : IC) (s : State), Passes f.sp k s →
    let a := (sVal k k.u.a).toNat
    let e := bits a 8 0
    (bits a 63 9 ≠ 0 → exec f.i s = .next (trapsWith f.sp k s { cause := 2, sub := 0 })) ∧
    (bits a 63 9 = 0 → replayOf s k.w = false →
      ((epOf s e).bound = false → exec f.i s = .next (trapsWith f.sp k s { cause := 0x0F, sub := 2, extra := w64 e })) ∧
      ((epOf s e).bound = true → (epOf s e).owner ≠ k.w.ctx →
        exec f.i s = .next (trapsWith f.sp k s { cause := 0x0F, sub := 1, extra := w64 e })) ∧
      ((epOf s e).bound = true → (epOf s e).owner = k.w.ctx → 63 ≤ k.w.cnt.copy → exec f.i s = .next (waitsAt f.sp k s)) ∧
      ((epOf s e).bound = true → (epOf s e).owner = k.w.ctx → k.w.cnt.copy < 63 → ∃ t, exec f.i s = .next t ∧
        Completed (entered s (opNow k s .copy (.mbpoll e (sNum k k.u.d)))) t k f.sp.u.words
          (awaits k s .copy .s [sNum k k.u.d])))) ∧
  (∀ w m, ∀ f ∈ mbverForms w m, ∀ (k : IC) (s : State), Passes f.sp k s → acqHeld k s = false →
    (∀ t, verNew k s = .error t → exec f.i s = .next (trapsWith f.sp k s t)) ∧
    (∀ v, verNew k s = .ok v → released 5 k s →
      let s1 := ended 5 k s
      (∀ w1, tget s1.waves k.wid = some w1 → replayOf s1 w1 = false) → replayOf s1 k.w = false → verNew k s1 = .ok v →
      let s2 := setPolicy s1 k.w.ctx v
      (∀ w1, tget s2.waves k.wid = some w1 → replayOf s2 w1 = false) →
      exec f.i s = .next (completes f.sp k (setD k (logged k 4 0 (bytesOf 8 v.toNat) s2) (w64 v.toNat)))))

/-! The matrix engine (R186 to R203). -/

/-- R189, R191 to R193, R196: MM, MMG and MMB of a wave outside a gang check their buffers and issue their request, the
quads of their result empty. -/
def Obligations.MatrixMultipliesIssue : Prop :=
  ∀ w m, ∀ p ∈ multiplyWords w m, ∀ (k : IC) (s : State), Passes p.1.sp k s → gangN k.w.gang = 0 →
    IssuesChecked p.1 k s (p.2 k).offs (p.2 k).ranges (p.2 k).req (p.2 k).quads []

/-- R200 to R202: GANG takes a legal list and traps on another. A ganged MM, MMG or MMB of a broken gang traps with subcode
3, of one with a member gone with 4; the first member to arrive opens a latch entry, in which its request waits, unless an
entry of its wave has stood for 1,048,576 rns or waits for it under another list. -/
def Obligations.GangWordsComplete : Prop :=
  (∀ w m, ∀ f ∈ gangForms w m, ∀ (k : IC) (s : State), Passes f.sp k s →
    let g := sVal k k.u.a
    (gangOk s k.b k.w g = false → exec f.i s = .next (trapsWith f.sp k s { cause := 2, sub := 0 })) ∧
    (gangOk s k.b k.w g = true → ∃ t, exec f.i s = .next t ∧
      Completed s t k f.sp.u.words { k.w with gang := g, gangBad := false, gangK := 0 })) ∧
  (∀ w m, ∀ p ∈ multiplyWords w m, ∀ (k : IC) (s : State), Passes p.1.sp k s →
    gangN k.w.gang ≠ 0 → rangeTrap k s (p.2 k).offs (p.2 k).ranges = none → gangLate k s = [] →
    let rope := ropeOfCore k.core
    let n := k.w.gangK + 1
    (k.w.gangBad = true → exec p.1.i s = .next (trapsWith p.1.sp k s { cause := 0x0C, sub := 3 })) ∧
    (k.w.gangBad = false → memberGone s k n = true →
      exec p.1.i s = .next (trapsWith p.1.sp k s { cause := 0x0C, sub := 4 })) ∧
    (k.w.gangBad = false → memberGone s k n = false → k.w.cnt.matrix < 63 → (ropeOf s rope).latch.length < 8 →
      (∀ e ∈ (ropeOf s rope).latch, ¬(e.2.gang = k.w.gang ∧ e.2.k = n ∧ e.2.grp = k.b.grp)) → gangOther k s = none →
      let s1 := modWave (entered s (opNow k s .matrix (.mat { wordAt k (p.2 k).req with latched := true }))) k.wid
        (fun w => { cntUp w .matrix with gangK := n })
      let s2 := if gangFollower k.b k.w then s1 else markQuads s1 k.w.blk k.wid s.nextId (p.2 k).quads
      exec p.1.i s = .next (completes p.1.sp k (modRope s2 rope (fun x => { x with
        latch := tput x.latch (freeLatch x) ⟨k.w.gang, n, s.now, k.b.grp, [(k.wid, s.nextId)]⟩ })))))

/-- R190, R194, R195: MSCL, ACLR, AFILL, AMOV, ALD and AST issue their requests; MTILE issues its tiles when its descriptor
names legal counts and its working quads and buffers pass. -/
def Obligations.AccumulatorWordsIssue : Prop :=
  (∀ w m, ∀ f ∈ msclForms w m, ∀ (k : IC) (s : State), Passes f.sp k s →
    let o := if k.u.two then bits (sVal k k.u.c).toNat 31 0 else 0
    IssuesChecked f k s [o] [(k.u.a, o, 1024, false)] { kind := 4, a := k.u.a, offA := o } [] []) ∧
  (∀ w m, ∀ f ∈ aclrForms w m, ∀ (k : IC) (s : State), Passes f.sp k s →
    let sh := bits k.u.card 1 0
    IssuesAlone f k s { kind := 5, shape := sh, d := qNum k k.u.d } (quadNums k k.u.d (if sh == 1 then 1 else 4)) []) ∧
  (∀ w m, ∀ f ∈ afillForms w m, ∀ (k : IC) (s : State), Passes f.sp k s →
    let sh := bits k.u.card 1 0
    IssuesAlone f k s { kind := 9, shape := sh, d := qNum k k.u.d, val := sVal k k.u.a }
      (quadNums k k.u.d (if sh == 1 then 1 else 4)) []) ∧
  (∀ w m, ∀ f ∈ amovForms w m, ∀ (k : IC) (s : State), Passes f.sp k s →
    let n := 1024 / k.w.width
    (bits k.u.card 3 2 = 1 → IssuesAlone f k s { kind := 7, shape := 1, d := vNum k k.u.d, a := qNum k k.u.a } []
      ((upto n).map (fun i => vNum k k.u.d + i))) ∧
    (bits k.u.card 3 2 = 2 → 
      let vs := (upto 1024).map (fun i => veGet k.w (vNum k k.u.a + i / k.w.width) (i % k.w.width))
      IssuesAlone f k s { kind := 8, shape := 1, d := qNum k k.u.d, vecs := vs } [qNum k k.u.d] []) ∧
    (bits k.u.card 3 2 = 0 → IssuesAlone f k s { kind := 6, shape := 1, d := qNum k k.u.d, a := qNum k k.u.a }
      [qNum k k.u.d] [])) ∧
  (∀ w m, ∀ f ∈ aldForms w m, ∀ (k : IC) (s : State), Passes f.sp k s →
    let sh := bits k.u.card 1 0
    let ty := if k.u.ty == 12 then 12 else 10
    let o := if k.u.two then bits (sVal k k.u.c).toNat 31 0 else 0
    IssuesChecked f k s [o] [(k.u.a, o, resBytes sh ty, false)]
      { kind := 10, shape := sh, ty := ty, d := qNum k k.u.d, a := k.u.a, offA := o }
      (quadNums k k.u.d (if sh == 1 then 1 else 4)) []) ∧
  (∀ w m, ∀ f ∈ astForms w m, ∀ (k : IC) (s : State), Passes f.sp k s →
    let sh := bits k.u.card 1 0
    let ty := if k.u.ty == 12 then 12 else 10
    let o := if k.u.two then bits (sVal k k.u.c).toNat 31 0 else 0
    let rm := if rmK k == 4 then 0 else rmK k
    IssuesChecked f k s [o] [(k.u.d, o, resBytes sh ty, true)]
      { kind := 11, shape := sh, ty := ty, d := k.u.d, a := qNum k k.u.a, offA := o, rm := rm } [] []) ∧
  (∀ w m, ∀ f ∈ mtileForms w m, ∀ (k : IC) (s : State), Passes f.sp k s →
    let x := (sVal k k.u.d).toNat
    let qb := bits x 63 57
    let ob := bits x 55 48
    let kc := bits x 47 32
    let np := bits x 15 8
    let mp := bits x 7 0
    let obf := bit k.u.card 3
    let good := 1 ≤ kc ∧ kc ≤ 512 ∧ 1 ≤ np ∧ np ≤ 4 ∧ 1 ≤ mp ∧ mp ≤ 4
    let own : List Opnd := [{ field := 0, cls := .q, f := qb, n := 4, wr := true, al := 4 },
      { field := 0, cls := .buf, f := ob, wr := true }]
    (¬good → exec f.i s = .next (trapsWith f.sp k s { cause := 2, sub := 0 })) ∧
    (good → boundTrap s k.b k.x own = none → emptyCheck k.b k.wid k.w k.x true own = .full →
      rangeTrap { k with b := { k.b with bufPois := [] } } s [] [(k.u.a, 0, elBytes (typeA k.u) (64 * mp * 128 * kc), false),
        (k.u.b, 0, elBytes (typeB k.u) (64 * np * 128 * kc), false),
        (ob, 0, 64 * mp * 64 * np * (if obf then 2 else 4), true)] = none →
      let req : MatReq := {
        kind := 3, ty := typeA k.u, ty2 := typeB k.u, ns := true, d := qNum k qb, a := k.u.a, b := k.u.b,
        offA := ob, offB := kc, val := w64 (np * 256 + mp), rm := if obf then 1 else 0 }
      IssuesAlone f k s req (quadNums k qb 4) []))

/-! System words and traps (R49 to R52, R220 to R235). -/

/-- R220, R323: TRAP takes a trap of cause 0x11 with its immediate as subcode, BKPT one of cause 0x12, or, under the debug
right with breakpoint stops enabled, completes and asks its core to stop. -/
def Obligations.TrapWordsTrap : Prop :=
  (∀ v, ∀ f ∈ trapForms v, ∀ (k : IC) (s : State), Passes f.sp k s →
    exec f.i s = .next (trapsWith f.sp k s { cause := 0x11, sub := k.u.imm })) ∧
  (∀ v, ∀ f ∈ bkptForms v, ∀ (k : IC) (s : State), Passes f.sp k s →
    (bkptStops s k.core k.w.ctx = false → exec f.i s = .next (trapsWith f.sp k s { cause := 0x12, sub := k.u.imm })) ∧
    (bkptStops s k.core k.w.ctx = true → exec f.i s = .next (completes f.sp k (modCore s k.core (fun c =>
      { c with dbg := { c.dbg with stops := askStop c.dbg.stops k.w.ctx, frozen := true } })))))

/-- R231, R233, R234: a trap of a wave whose context has a handler parks its slot with the record, whose first word holds
the cause in [7:0] and the subcode in [63:32]; with no handler the wave is killed; a handler's trap kills the handler's
parked wave. -/
def Obligations.TrapsAreTaken : Prop :=
  ∀ (s : State) (wid : Nat) (slotB : Bool) (p : Site) (t : TrapInfo) (w : Wave) (b : Block),
    tget s.waves wid = some w → blockOf s w = some b →
    let now := waveClock s w b.core
    let s1 := sawTime s wid now
    let r := mkRecord now b (slotOf w slotB) slotB p t
    (t.cause < 256 → t.sub < 2 ^ 32 → (r.getD 0 0).toNat % 256 = t.cause ∧ (r.getD 0 0).toNat / 2 ^ 32 = t.sub) ∧
    (w.parent = none → handlerOf s w.ctx w.width ≠ none → ∃ w', takeTrap s wid slotB p t = setWave s1 wid w' ∧
      (slotOf w' slotB).park = .trapped ∧ slotOf w' (!slotB) = slotOf w (!slotB) ∧
      w'.trap = some { words := r, slotB := slotB, atHdr := p.atHdr, handler := none } ∧
      w'.sc = w.sc ∧ w'.ve = w.ve ∧ w'.preds = w.preds ∧ w'.cnt = w.cnt) ∧
    (w.parent = none → handlerOf s w.ctx w.width = none →
      takeTrap s wid slotB p t = killWave (faultLog s1 w.ctx r b.idx w.idx 1) wid) ∧
    (∀ pid, w.parent = some pid → ∃ rp, takeTrap s wid slotB p t =
      killWave (faultLog (faultLog s1 w.ctx rp b.idx w.idx 2) w.ctx r b.idx w.idx 3) pid)

/-- R222, as it stands: TREC writes word a of the parked wave's record to s_d, and traps with reserved field when a is
above 31, or when its two-word cell has a modifier. -/
def Obligations.TrecGivesTheRecord : Prop :=
  ∀ w m, ∀ f ∈ trecForms w m, ∀ (k : IC) (s : State),
    (Passes f.sp k s → ∀ pid p t, k.w.parent = some pid → tget s.waves pid = some p → p.trap = some t →
      k.u.a ≤ 31 ∧ ∃ u, exec f.i s = .next u ∧
        Completed s u k f.sp.u.words (writeS (fun k => t.words.getD k.u.a 0) k k.w)) ∧
    (Offered f.sp k s → 31 < k.u.a → exec f.i s = .next (trapsWith f.sp k s { cause := 2, sub := 0 })) ∧
    (Offered f.sp k s → f.i = .trecLong w m → m ≠ ⟨0, 0, 0, 0, 0, 0, 0⟩ →
      exec f.i s = .next (trapsWith f.sp k s { cause := 2, sub := 0 }))

/-- R223: with a legal selector of a full, unpoisoned symbol and operands of its own that pass, XGET takes the parked symbol whole, or
a lane, a scalar or a predicate of it to s_d, and XSET gives the parked symbol its operand. R224: ERESUME, once its handler's counters
are zero, resumes the parked wave at its word, after it, at s_a or at the word's address plus 4 * imm25, and waits till then; a skip
where no count can be trusted traps, and so do a misaligned target and one outside the canonical space. Where a resumed slot
continues: the trapping word again; the word after it, or the header after its clause; the header after the clause that the record
counts; a target. It is no longer parked. R240: a class-4 word that trapped at the engine is issued again where it stood, after which,
or when it is skipped, its slot goes on from where the trap found it (DEDUCED, log entry 44). That a selector's reserved bits are
ignored is the DEDUCED choice of log entry 39, and that a target below 0 traps that of log entry 40. -/
def Obligations.ParkedWavesAreEditedAndResumed : Prop :=
  (let legal := fun (s : State) (k : IC) (p : Wave) (q : Sel) (own : List Opnd) =>
    selReserved p.width q = false ∧ (∃ b, blockOf s p = some b ∧ declared s b (selCls q) q.num = true) ∧
    boundTrap s k.b k.x own = none ∧ emptyCheck k.b k.wid k.w k.x false own = .full ∧ poisonRead k.b k.w k.x own = none ∧
    isEmpty p (selCls q) q.num = false
  (∀ w m, ∀ f ∈ xgetForms w m, ∀ (k : IC) (s : State), Passes f.sp k s →
    ∀ pid p t, k.w.parent = some pid → tget s.waves pid = some p → p.trap = some t →
    let q := selOf (srcA k)
    (selReserved p.width q = true → exec f.i s = .next (trapsWith f.sp k s { cause := 2, sub := 0 })) ∧
    ((∀ x ∈ p.pois, ¬(x.cls = selCls q ∧ x.num = q.num)) →
      (q.tov = true → legal s k p q [dV k.u 1] → ∃ u, exec f.i s = .next u ∧ Completed s u k f.sp.u.words
        (putV k.w false (vNum k k.u.d) (allLanes k.w.width) (fun l => (veGet p q.num l).toNat))) ∧
      (q.tov = false → legal s k p q [dS k.u] → ∃ u, exec f.i s = .next u ∧ Completed s u k f.sp.u.words
        (writeS (fun _ => match q.cls with
          | 0 => w64 (veGet p q.num q.lane).toNat
          | 1 => scGet p q.num
          | _ => prGet p q.num &&& allLanes p.width) k k.w)))) ∧
  (∀ w m, ∀ f ∈ xsetForms w m, ∀ (k : IC) (s : State), Passes f.sp k s →
    ∀ pid p t, k.w.parent = some pid → pid ≠ k.wid → tget s.waves pid = some p → p.trap = some t →
    let q := selOf (srcA k)
    (selReserved p.width q = true → exec f.i s = .next (trapsWith f.sp k s { cause := 2, sub := 0 })) ∧
    (q.tov = true → legal s k p q [bV k.u 1] → exec f.i s = .next (completes f.sp k (modWave s pid (fun p =>
      putV p false q.num (allLanes p.width) (fun l => (veGet k.w (vNum k k.u.b) l).toNat))))) ∧
    (q.tov = false → legal s k p q [bS k.u] → exec f.i s = .next (completes f.sp k (modWave s pid (fun p =>
      match q.cls with
      | 0 => vePut p q.num (laneSet [q.lane]) (fun _ => w32 (srcB k))
      | 1 => putS p q.num (sVal k k.u.b)
      | _ => prPut p q.num (allLanes p.width) (sVal k k.u.b))))))) ∧
  ((∀ w x, ∀ p ∈ (retryForms w).map (·, 0) ++ (skipForms w).map (·, 1) ++ (eresumeJmpForms w).map (·, 2) ++
      (eresumeRelForms w x).map (·, 3), ∀ (k : IC) (s : State), Passes p.1.sp k s →
    ∀ pid v t, k.w.parent = some pid → tget s.waves pid = some v → v.trap = some t →
    let dest : Int := if p.2 = 2 then srcA k else (wordAddr (slotOf v t.slotB) : Int) + 4 * immS k.u
    let good := 0 ≤ dest ∧ dest < 2 ^ 64 ∧ canonical dest.toNat = true
    let goes := fun (r : Resume) =>
      (cntZero k.w.cnt = true → exec p.1.i s = .next (setsSlot p.1.sp k (resumeWave s k.wid pid r))) ∧
      (cntZero k.w.cnt = false → exec p.1.i s = .next (waitsAt p.1.sp k s))
    (p.2 = 0 → goes .retry) ∧
    (p.2 = 1 → skipOk t = true → goes .skip) ∧
    (p.2 = 1 → skipOk t = false → exec p.1.i s = .next (trapsWith p.1.sp k s { cause := 2, sub := 0 })) ∧
    (2 ≤ p.2 → dest % 4 ≠ 0 → exec p.1.i s = .next (trapsWith p.1.sp k s { cause := 8, sub := 1, addr := wrapI 64 dest })) ∧
    (2 ≤ p.2 → dest % 4 = 0 → good → goes (.jump dest.toNat)) ∧
    (2 ≤ p.2 → dest % 4 = 0 → ¬good →
      exec p.1.i s = .next (trapsWith p.1.sp k s { cause := 0x0E, sub := 2, addr := wrapI 64 dest }))) ∧
  (∀ (t : Trap) (x : Slot),
    (∀ r, (resumeSlot t r x).park = .run) ∧
    (t.atHdr = false → t.again = none → (resumeSlot t .retry x).idx = x.idx ∧ (resumeSlot t .retry x).hdr = x.hdr ∧
      (resumeSlot t .retry x).inClause = x.inClause) ∧
    (∀ st, t.again = some st → let y := resumeSlot t .retry x
      y.idx = st.idx ∧ y.hdr = st.hdr ∧ y.inClause = st.inClause ∧ y.mask = st.mask ∧ y.ctl = st.ctl ∧
      ∃ here, y.back = here :: x.back ∧ here.idx = x.idx ∧ here.hdr = x.hdr ∧ here.mask = x.mask ∧ here.ctl = x.ctl) ∧
    (∀ pc, (resumeSlot t (.jump pc) x).pc = pc ∧ (resumeSlot t (.jump pc) x).inClause = false) ∧
    (t.stay = false → x.back = [] → t.atHdr = true → (resumeSlot t .skip x).pc = x.pc + 4 * (bits (t.words.getD 3 0).toNat 3 0 + 1)) ∧
    (t.stay = false → x.inClause = true → ∀ here rest, x.back = here :: rest →
      let y := resumeSlot t .skip x
      y.idx = here.idx ∧ y.hdr = here.hdr ∧ y.mask = here.mask ∧ y.ctl = here.ctl ∧ y.back = rest) ∧
    (t.stay = false → x.back = [] → t.atHdr = false → x.inClause = true →
      let n := if bit (t.words.getD 4 0).toNat 25 then 2 else 1
      (x.idx + n < hdrCount x.hdrW → (resumeSlot t .skip x).idx = x.idx + n ∧ (resumeSlot t .skip x).inClause = true) ∧
      (hdrCount x.hdrW ≤ x.idx + n → (resumeSlot t .skip x).pc = nextHdr x ∧ (resumeSlot t .skip x).inClause = false))))

/-- R49, R50, R225: GETSR gives s_d, every live lane, or a pair, its register's value; a per-lane register gives each
live lane its own value and a scalar the lowest live lane's; the value of ROPE, SGROUP, TIME, POLICY or ACC_OWNER is
logged where the context logs. A number outside R49 traps, and so does an odd pair. R50, R52, R225: SETSR of MODE or a
window of legal value writes it for its slot and traps on another value, which leaves it as it was; of SEED it writes
the live lanes, 0 as 1; of a register that is read only it traps with permission. -/
def Obligations.SystemRegistersAreReadAndWritten : Prop :=
  (∀ w, ∀ f ∈ getsrForms w, ∀ (k : IC) (s : State),
    let n := k.u.a
    let regs : List (Nat × W64) := [(1, w64 k.w.idx), (2, w64 k.b.idx), (3, w64 (ropeOfCore k.core)),
      (4, w64 (stackOfCore k.core)), (5, w64 s.dev.devnum.toNat), (6, w64 k.w.ctx), (8, w64 k.w.width),
      (9, w64 k.x.ctl.mode.toNat), (10, w64 k.x.ctl.winV.toNat), (11, w64 k.x.ctl.winS.toNat), (12, w64 k.x.ctl.winQ.toNat),
      (0x10, k.w.gang), (0x18, w64 (waveClock s k.w k.core)), (0x1A, w64 (ctxOf s k.w.ctx).policy.toNat)]
    let pair := n = 0x10 ∨ n = 0x18
    let s0 := if n = 0x18 then sawTime s k.wid (waveClock s k.w k.core) else s
    let shown := n = 3 ∨ n = 4 ∨ n = 0x18 ∨ n = 0x1A
    (Offered f.sp k s → n ∉ regs.map (·.1) → n ≠ 0 → n ≠ 0x19 → n ≠ 0x11 →
      exec f.i s = .next (trapsWith f.sp k s { cause := 2, sub := 0 })) ∧
    (Offered f.sp k s → f.sp.ok k.w.width = true → guardWave k.w k.x.mask k.u.g = true → pair → k.u.b = 1 → k.u.d % 2 = 1 →
      vNum k k.u.d + 1 < k.b.var.info.nV → exec f.i s = .next (trapsWith f.sp k s { cause := 4, sub := 4 })) ∧
    (Passes f.sp k s → replayOf s k.w = false →
      (∀ v, (n, v) ∈ regs → k.u.b = 0 →
        exec f.i s = .next (completes f.sp k (setD k (if shown then logged k 4 0 (bytesOf 8 v.toNat) s0 else s0) v))) ∧
      (∀ v, (n, v) ∈ regs → k.u.b = 1 →
        exec f.i s = .next (completes f.sp k (modWave (if shown then logged k 4 0 (bytesOf 8 v.toNat) s0 else s0) k.wid
          (writeV (fun _ => n == 0x10 || n == 0x18) (fun _ _ => v.toNat) k)))) ∧
      (n = 0 ∨ n = 0x19 → k.u.b = 1 → ∃ t, exec f.i s = .next t ∧ Completed s t k f.sp.u.words
        (writeV (fun _ => false) (fun _ l => if n = 0 then l % 2 ^ 32 else (seedGet k s l).toNat) k k.w)) ∧
      (n = 0 ∨ n = 0x19 → k.u.b = 0 → ∃ t, exec f.i s = .next t ∧ Completed s t k f.sp.u.words
        (writeS (fun k => w64 (if n = 0 then lowLane k.live % 2 ^ 32 else (seedGet k s (lowLane k.live)).toNat)) k k.w)) ∧
      (n = 0x11 → let v := w64 (accOwner k s (qNum k k.u.b))
        exec f.i s = .next (completes f.sp k (setD k (logged k 4 0 (bytesOf 8 v.toNat) s) v))))) ∧
  (∀ w, ∀ f ∈ setsrForms w, ∀ (k : IC) (s : State),
    let n := k.u.a
    let v := srcB k
    (Offered f.sp k s → n ∉ [0, 1, 2, 3, 4, 5, 6, 8, 9, 10, 11, 12, 0x10, 0x11, 0x18, 0x19, 0x1A] →
      exec f.i s = .next (trapsWith f.sp k s { cause := 2, sub := 0 })) ∧
    (Passes f.sp k s →
      (n ∉ [9, 10, 11, 12, 0x19] → exec f.i s = .next (trapsWith f.sp k s { cause := 7, sub := 5 })) ∧
      (n = 9 → modeOk (v % 2 ^ 32) = true → ∃ t, exec f.i s = .next t ∧ Completed s t k f.sp.u.words
        (writeC (fun _ c => { c with mode := w32 v }) k k.w)) ∧
      (n = 9 → modeOk (v % 2 ^ 32) = false → exec f.i s = .next (trapsWith f.sp k s { cause := 2, sub := 0 })) ∧
      (n = 10 ∨ n = 11 ∨ n = 12 → v ≤ (if n = 12 then 1 else 31) → ∃ t, exec f.i s = .next t ∧
        Completed s t k f.sp.u.words (writeC (fun _ => setWin (n - 10) v) k k.w)) ∧
      (n = 10 ∨ n = 11 ∨ n = 12 → (if n = 12 then 1 else 31) < v →
        exec f.i s = .next (trapsWith f.sp k s { cause := 2, sub := 0 })) ∧
      (n = 0x19 → k.w.parent = none → ∃ t, exec f.i s = .next t ∧ Completed s t k f.sp.u.words
        { k.w with seed := (upto k.w.width).map (fun l =>
          let x := if k.u.d = 1 then veGet k.w (vNum k k.u.b) l else w32 v
          if k.live.getLsbD l then (if x = 0 then 1 else x) else k.w.seed.getD l 0) })))

/-- R226 to R228: TIME gives s_d the counter once the wave's earlier accesses are performed, and waits till then; SAMPLE
tags the wave's next word, or with .mark writes a record, and does nothing with sampling off; HOSTSIG posts its signal once
its release side is done, waits while the queue is full, and traps when the slot cannot be written. -/
def Obligations.TimeSamplesAndSignalsComplete : Prop :=
  (∀ w, ∀ f ∈ timeForms w, ∀ (k : IC) (s : State), Passes f.sp k s → replayOf s k.w = false →
    let v := w64 (waveClock s k.w k.core)
    let done := memBusy s k.wid = false ∧ ownOwed s k.wid = false
    (¬done → exec f.i s = .next (waitsAt f.sp k s)) ∧
    (done → exec f.i s = .next (completes f.sp k
      (setD k (logged k 4 0 (bytesOf 8 v.toNat) (sawTime s k.wid (waveClock s k.w k.core))) v)))) ∧
  (∀ w m, ∀ f ∈ sampleForms w m, ∀ (k : IC) (s : State), Passes f.sp k s →
    let tag := BitVec.ofNat 16 (srcA k)
    let off := (ctxOf s k.w.ctx).speriod = 0
    (off → ∃ t, exec f.i s = .next t ∧ Completed s t k f.sp.u.words k.w) ∧
    (¬off → bit k.u.card 0 = false → exec f.i s = .next (completes f.sp k (modWave s k.wid (fun w => { w with tag := some tag })))) ∧
    (¬off → bit k.u.card 0 = true → exec f.i s = .next (completes f.sp k (samplePush
      (sawTime s k.wid (waveClock s k.w k.core)) k.w.ctx
      (cairnWords 2 k.w.ctx tag k.b.idx k.b.var.image (imgOff k.b.var (wordAddr k.x)) k.w.idx
        (ropeOf s (ropeOfCore k.core)).point k.slotB false (waveClock s k.w k.core) 0))))) ∧
  (∀ w v x, ∀ f ∈ hostsigForms w v x, ∀ (k : IC) (s : State), Passes f.sp k s → acqHeld k s = false →
    sigWaits s k.wid k.slotB = false → released 7 k s →
    let s1 := ended 7 k s
    let ring := (ctxOf s1 k.w.ctx).sigq
    (ringFull ring = true → exec f.i s = .next (waitsAt f.sp k (holdSignal k s1))) ∧
    (ringFull ring = false → ∀ s2, putSignal s1 k.w.ctx (sigWords k.b k.w k.u.imm (sVal k k.u.a)) = some s2 →
      exec f.i s = .next (completes f.sp k s2)) ∧
    (ringFull ring = false → putSignal s1 k.w.ctx (sigWords k.b k.w k.u.imm (sVal k k.u.a)) = none →
      exec f.i s = .next (trapsWith f.sp k s1 (sigTrap s1 k.w.ctx))))

/-! What happens after issue: memory, tickets, waits (R154 to R185, R265 to R267, R299 to R320). -/

/-- R157, R159, R161, R174: a load whose turn has come reads its lanes and fills its destinations; values known at issue go to their
symbols and buffers; in a replay a redeem is given its bytes by the record. R134: a special-function result is written to v_d, or,
where a lane raises an enabled exception, deferred as a trap of cause 0x10, v_d keeping its value. R154, R158, R162, R179 to R182,
R266, R267, R301: a lane of an atomic is applied to the word at its home, the old value kept for v_d, once what its wave's L1 has of
the line is written back, and after the last lane v_d is written; a write on its way is performed behind the earlier writes of its L1
to its lines, and a store's count falls when every write of it has completed. R265, R266, R303, R316, R414: a clean copy goes when its
lease has ended, and not before; an evicted line goes, a dirty one writing its bytes back, one of combined updates sending them home;
a finished walk gives its slot the leaf and its TLBs a valid translation. That a load reads all its lanes at one instant and that a
line is clean again after its write-back are the DEDUCED choices of log entry 42. -/
def Obligations.MemoryEventsHappen : Prop :=
  ((∀ (s : State) (op : Nat) (o : Op) (w : Wave), tget s.ops op = some o → tget s.waves o.wid = some w →
    awayWave s o.wid = false →
    (∀ size order scope sx d lanes, o.body = .load size order scope sx d lanes →
      (∀ a ∈ lanes, accessHeld s op o a.pa size = false) → notTurn s o.wid o.orig (some op) [false, true] = false →
      (∀ a ∈ lanes, regionOf s a.pa ≠ .regs) → ∀ s1 got, loadLanes o size order scope lanes s [] = some (s1, got) →
      let vs := got.flatMap (fun g => (loadWords size sx g.2.1).zipIdx.map (fun x => (d + x.2, g.1.lane, w32 x.1)))
      (order ≠ 2 → (∀ g ∈ got, g.2.2 = false) →
        exec (.loadResult op) s = .next (modWave (endOp s1 op) o.wid (fun w => addPois (fillAll w vs) []))) ∧
      (order = 2 → (∀ g ∈ got, g.2.2 = false) → exec (.loadResult op) s = .next
        (acquireBy (modWave (endOp s1 op) o.wid (fun w => addPois (fillAll w vs) [])) o.wid (opCore s1 o) scope)) ∧
      (∀ g, got.find? (fun g => g.2.2) = some g →
        let t := modWave (endOp s1 op) o.wid (fun w => addPois (fillAll w vs)
          ((upto (max 1 (size / 4))).map (fun i => ⟨.v, d + i, 1, o.orig, g.1.va⟩)))
        exec (.loadResult op) s = .next (if order = 2 then acquireBy t o.wid (opCore s1 o) scope else t))) ∧
    (∀ vs ss bs pm bp, o.body = .vals vs ss bs pm bp → exec (.loadResult op) s = .next
      (modBlock (modWave (endOp s op) o.wid (fun w =>
          addPois (ss.foldl (fun w e => unPoison (scPut w e.1 e.2) .s e.1) (fillAll w vs)) pm)) w.blk (fun b =>
        let b1 := bufPutAll b bs
        { b1 with bufPois := b1.bufPois ++ bp.map (fun e => { e.2 with off := bufAt b.var.info e.1 + e.2.off }) }))) ∧
    (∀ dst t size, o.body = .rdm dst t size → replayOf s w = true → notTurn s o.wid o.orig (some op) [false, true] = false →
      (receive s o.wid 3 0 o.orig (List.replicate size 0) = none → exec (.loadResult op) s = .next (replayFail s o.wid)) ∧
      (∀ s1 data, receive s o.wid 3 0 o.orig (List.replicate size 0) = some (s1, data) →
        (∀ d, dst = .vec d → exec (.loadResult op) s = .next (valsDone s1 op o w.blk (rdmVals w.width d data) [] [] [] [])) ∧
        (∀ b off, dst = .buf b off → exec (.loadResult op) s = .next
          (valsDone s1 op o w.blk [] [] (data.zipIdx.map (fun x => (b, off + x.2, x.1))) [] []))))) ∧
  (∀ (s : State) (op : Nat) (o : Op), tget s.ops op = some o → ∀ fn d lanes mode rm, o.body = .sfu fn d lanes mode rm →
    awayWave s o.wid = false →
    let bad := lanes.filter (fun e => (sfLane fn rm mode e.2).2.traps mode.toNat)
    (bad = [] → exec (.specialFunctionResult op) s = .next (modWave (endOp s op) o.wid (fun w =>
      putV w false d (laneSet (lanes.map (·.1))) (fun l => (sfLane fn rm mode (tgetD lanes l 0)).1)))) ∧
    (∀ e rest, bad = e :: rest → exec (.specialFunctionResult op) s = .next (modWave (endOp s op) o.wid (fun w => { w with
      defer := w.defer ++ [{ cause := 0x10, sub := (sfLane fn rm mode e.2).2.sub, orig := o.orig,
                             fmask := laneSet (bad.map (·.1)), src0 := w64 e.2.toNat }] }))))) ∧
  ((∀ (s : State) (op : Nat) (o : Op) (w : Wave), tget s.ops op = some o → tget s.waves o.wid = some w →
    ∀ code size order scope d lanes old pm, o.body = .atom code size order scope d lanes old pm →
    (∀ a, lanes[old.length]? = some a → accessHeld s op o a.pa size = true → exec (.atomHomeUpdate op) s = .next s) ∧
    (∀ a, lanes[old.length]? = some a → accessHeld s op o a.pa size = false →
      lineOwn s (cacheOf s (opCore s o) a.pa) (lineOf a.pa) = true →
      exec (.atomHomeUpdate op) s = .next (evictLine s (cacheOf s (opCore s o) a.pa) (lineOf a.pa))) ∧
    (∀ a, lanes[old.length]? = some a → accessHeld s op o a.pa size = false →
      lineOwn s (cacheOf s (opCore s o) a.pa) (lineOf a.pa) = false →
      let cid := cacheOf s (opCore s o) a.pa
      let s1 := match getLine s cid (lineOf a.pa) with | some ⟨.clean .., _, _⟩ => dropLine s cid (lineOf a.pa) | _ => s
      let r := homeRead (reachOp s1 o.wid o.orig (homeLevel s (opCore s o) a.pa)) a.pa size
      let m := ofBytes r.1
      let new := atomVal code (8 * size) m a.y a.y2
      ((∀ i < size, unitPois r.2 (a.pa + i) = false) →
        let p := performBytes r.2 ((bytesOf size new).zipIdx.map (fun e => (a.pa + e.2, e.1)))
        exec (.atomHomeUpdate op) s = .next (setBody (raiseT p.1 o.wid p.2 true) op
          (.atom code size order scope d lanes (old ++ [(a.lane, m)]) (pm ++ [])))) ∧
      ((∃ i < size, unitPois r.2 (a.pa + i) = true) → pm = [] →
        exec (.atomHomeUpdate op) s = .next (setBody (raiseT r.2 o.wid r.2.now true) op
          (.atom code size order scope d lanes (old ++ [(a.lane, m)])
            ((upto (size / 4)).map (fun i => ⟨.v, d + i, 1, o.orig, a.va⟩)))))) ∧
    (lanes[old.length]? = none → awayWave s o.wid = false → notTurn s o.wid o.orig (some op) [false, true] = false → order ≠ 2 →
      ∀ s1 vals, laneReceive s o ((lanes.map (·.va)).headD 0) old = some (s1, vals) →
      exec (.atomHomeUpdate op) s = .next (modWave (endOp s1 op) o.wid (fun w => addPois (fillAll w
        (vals.flatMap (fun v => (upto (size / 4)).map (fun i => (d + i, v.1, w32 (v.2 >>> (32 * i))))))) pm)))) ∧
  (∀ (s : State) (hw : Nat) (h : HomeWrite), tget s.hw hw = some h → hwBehind s hw h = false →
    let p := hwPerform { s with hw := tdel s.hw hw } h
    let s2 := cleanAfter (updateCopy (raiseT (raiseCacheT (coverDone p.1 h) h.cache h.ctx hw p.2) h.wid p.2 h.wb.isNone) h.cache h.bytes h.scope) h
    (h.op = none → exec (.homeWritePerform hw) s = .next s2) ∧
    (∀ id o left t, h.op = some id → tget s2.ops id = some o → o.body = .store left t →
      exec (.homeWritePerform hw) s = .next (setBody s2 id (.store (left.filter (· ≠ hw)) (max t p.2))))) ∧
  (∀ (s : State) (op : Nat) (o : Op) (left : List Nat) (t : Nat), tget s.ops op = some o → o.body = .store left t →
    (left = [] → t ≤ s.now → exec (.writeCompletionTime op) s = .next (endOp s op)) ∧
    (left ≠ [] ∨ s.now < t → exec (.writeCompletionTime op) s = .next s))) ∧
  ((∀ (s : State) (cache line : Nat) (l : Line), getLine s cache line = some l →
    (∀ data le sc pois, l.st = .clean data le sc pois →
      (le ≤ s.now → exec (.l1LeaseExpiry cache line) s = .next (dropLine s cache line)) ∧
      (s.now < le → exec (.l1LeaseExpiry cache line) s = .next s) ∧
      exec (.l1Eviction cache line) s = .next (dropLine s cache line)) ∧
    (∀ bytes scope, l.st = .dirty bytes scope → exec (.l1Eviction cache line) s = .next
      (pushHw (dropLine s cache line) ⟨0, l.ctx, cache, bytes, none, none, 0, none, []⟩).2) ∧
    (∀ code size elems, l.st = .upd code size elems → exec (.l1Eviction cache line) s = .next (recallLine s line))) ∧
  (∀ (s : State) (walk : Nat) (k : Walk), tget s.walks walk = some k →
    let leaf := walkTable s k.ctx (k.page * 65536)
    let s1 := modWave { s with walks := tdel s.walks walk } k.wid (fun w =>
      modSlot w k.slotB (fun x => { x with walked := ⟨k.page, leaf⟩ :: x.walked }))
    (leaf = none → exec (.translationWalkComplete walk) s = .next s1) ∧
    (∀ l w, leaf = some l → tget s1.waves k.wid = some w →
      exec (.translationWalkComplete walk) s = .next (tlbFill s1 (coreOfWave s1 w) k.ctx (k.page * 65536) l))))

/-- R168 to R178, R306: a fetch reads its lines one by one at their homes, each once what its wave's L1 has of the line is written
back (DEDUCED, log entry 21); a free entry with room in the line buffers takes a fetch, and its ticket goes to s_d; with its last line
a ticket is ready, or its data go to the redeem that claimed it (DESIGN CHOICE, log entry 53); TKQ gets its state word; a lease that
ends unclaimed reclaims its entry. R184, R185, R233, R319, R362: of a wave that no trap parks, each slot that polls reads its word
again: a poll that finds its condition true wakes its slot, one that meets poison traps, and another leaves its slot waiting, at a
monitor where one is free (DEDUCED, log entry 33); an external wait or a page request past its limit traps its slots; the deadlock
watchdog traps every waiting wave of its context and counts. -/
def Obligations.TicketsAdvanceAndWaitsEnd : Prop :=
  ((∀ (s : State) (g i line : Nat), let e := ticketAt s g i
    e.st = .pending → line < tkLines e → tget e.lines line = none →
    let n := min 128 e.size
    let pa := e.pa + 128 * line
    earlierTouches s e.op e.wid pa n = false →
    let reads := fun (s : State) =>
      let r := homeRead s pa n
      let bad := ((upto (n / 64)).filter (fun u => unitPois r.2 (pa + 64 * u))).map (fun u => 2 * line + u)
      putTicket r.2 g i { e with lines := tput e.lines line r.1, pois := e.pois ++ bad }
    let ends := fun (t : State) => exec (.ldtLineRead g i line) s = .next t
    (issuerOf s e pa = .none → ends (reads s)) ∧
    (∀ c, issuerOf s e pa = .holds c → ends (evictLine s c (lineOf pa))) ∧
    (issuerOf s e pa = .sends → ends s) ∧
    (∀ c, issuerOf s e pa = .free c → ends (reads (dropClean s c (lineOf pa))))) ∧
  (∀ (s : State) (op : Nat) (o : Op) (w : Wave), tget s.ops op = some o → tget s.waves o.wid = some w →
    awayWave s o.wid = false → notTurn s o.wid o.orig (some op) [false, true] = false →
    (∀ d va pa size scope flt g i, o.body = .ldt d va pa size scope flt g → replayOf s w = false → i < 16384 →
      (ticketAt s g i).st = .free → (flt = none → lineBytes s g + size ≤ 1048576) →
      let e : Ticket := { ticketAt s g i with
        st := if flt.isSome then .faulted else .pending, ctx := w.ctx, size := size, va := va, pa := pa,
        orig := o.orig, cause := flt.getD 0, leaseEnd := o.t0 + (ctxOf s w.ctx).tlease, lines := [], pois := [],
        claim := none, wid := o.wid, op := op }
      exec (.ldtTicketWritten op i) s = .next (scalarDone (putTicket s g i e) op o d
        (mkTicket s.dev.devnum.toNat g i e.gen w.ctx))) ∧
    (∀ d t, o.body = .tkq d t → exec (.ticketStateReturn op) s = .next (scalarDone s op o d (tkqWord s w.ctx t)))) ∧
  (∀ (s : State) (g i : Nat), let e := ticketAt s g i
    (e.st = .pending → tkLines e ≤ e.lines.length →
      (e.claim = none → exec (.ticketFetchComplete g i) s = .next (putTicket s g i { e with st := .ready })) ∧
      (∀ op, e.claim = some (.wave op) → exec (.ticketFetchComplete g i) s = .next (deliverWave s g i e op)) ∧
      (∀ ep, e.claim = some (.port ep) → exec (.ticketFetchComplete g i) s = .next
        (modEp (putTicket s g i (moveOn e false)) ep (fun x => { x with redeems := x.redeems.map (fun r =>
          if r.ticket = mkTicket s.dev.devnum.toNat g i e.gen e.ctx ∧ r.data = none
          then { r with data := some (tkData e), pois := e.pois } else r) })))) ∧
    (e.st ≠ .free → e.claim = none → e.leaseEnd ≤ s.now →
      exec (.ticketLeaseEnd g i) s = .next (reclaimTicket s g i)) ∧
    (s.now < e.leaseEnd → exec (.ticketLeaseEnd g i) s = .next s))) ∧
  ((∀ (s : State) (wid : Nat), exec (.waitcRepoll wid) s = .next (pollSlot (pollSlot s wid false) wid true)) ∧
  (∀ (s : State) (wid : Nat) (w : Wave) (slotB : Bool) (m : MonReq), tget s.waves wid = some w →
    waitHeld w = false →
    (monOf w slotB = some m → m.mode = 1 ∨ m.mode = 2 →
      let r := homeRead s m.pa m.size
      let clean := ∀ i < m.size, unitPois r.2 (m.pa + i) = false
      (clean → monCond m.cond m.size (ofBytes r.1) m.cmp = true →
        pollSlot s wid slotB = wakeMon r.2 wid slotB m (ofBytes r.1)) ∧
      (clean → monCond m.cond m.size (ofBytes r.1) m.cmp = false →
        (m.mode = 1 → monRoom r.2 w.ctx (homeSlice r.2 m.pa) = true → pollSlot s wid slotB =
          modSlice (setWave r.2 wid (modSlot w slotB (fun x => { x with park := .monitor { m with mode := 0 } })))
            (homeSlice r.2 m.pa) (fun t => { t with mons := t.mons ++ [⟨w.ctx, wid, slotB, m.pa, m.size⟩] })) ∧
        (m.mode ≠ 1 ∨ monRoom r.2 w.ctx (homeSlice r.2 m.pa) = false → pollSlot s wid slotB = r.2)) ∧
      (∀ b, ¬clean → blockOf s w = some b → pollSlot s wid slotB = parkTrap r.2 wid slotB
        { cause := 0x14, sub := 1, addr := m.va, orig := some (originOf b w (wordAddr (slotOf w slotB))) })) ∧
    (waitHeld w = false → monOf w slotB = none → pollSlot s wid slotB = s) ∧
    (monSlot w (fun m => m.mode ≥ 2 && msPast s m.since (ctxOf s w.ctx).extms) = some (slotB, m) →
      exec (.externalWaitTimeout wid) s = .next (parkTrap s wid slotB { cause := 0x13, sub := 2 }))) ∧
  (∀ (s : State) (ctx tag : Nat) (p : PageReq), (ctxOf s ctx).preqs.find? (fun q => q.tag == tag) = some p →
    let ms := (ctxOf s ctx).extms
    (ms ≠ 0 → p.time + ms * 1000000 ≤ s.now → exec (.pageRequestTimeout ctx tag) s = .next (p.joined.foldl
      (fun s j => pageTrap s j.1 j.2 tag)
      (modCtx s ctx (fun c => { c with preqs := c.preqs.filter (fun q => q.tag ≠ tag) })))) ∧
    (ms = 0 ∨ s.now < p.time + ms * 1000000 → exec (.pageRequestTimeout ctx tag) s = .next s)) ∧
  (∀ (s : State) (ctx t : Nat), (ctxOf s ctx).dlStart = some t →
    let ms := (ctxOf s ctx).dlms
    (ms ≠ 0 → t + ms * 1000000 ≤ s.now → exec (.deadlockWatchdogFire ctx) s = .next (raiseIrq
      (modCtx ((ctxWaiters s ctx).foldl (fun s i => match tget s.waves i with
          | none => s
          | some w => parkTrap s i (!countsAsWait w.a && (countsAsWait w.b || !w.a.used)) { cause := 0x13, sub := 1 }) s)
        ctx (fun c => { c with watchdog := satInc c.watchdog, dlStart := none })) ctx 5 s.now)) ∧
    (ms = 0 ∨ s.now < t + ms * 1000000 → exec (.deadlockWatchdogFire ctx) s = .next s)))

/-- R190 to R202, R229, R240, R325: a free engine grants the first ready entry; with its last pass a word has its effect, its members'
counts fall and spilled quads are counted; a word that meets a poisoned byte of its buffers, or an error in its quads, ends with a
trap deferred at that word (DEDUCED, log entry 44); ALD of .bf16 widens and AST of .bf16 rounds (R195); MTILE completes pitch by
pitch, a pitch that meets poison or an error in its quads ending it with a deferred trap, and runs on when its wave is stopped
(DEDUCED, log entry 34); a latch entry breaks 1,048,576 rns after it opened; a granted word's quad that another context owns is
saved, and loaded for its own. -/
def Obligations.MatrixWordsRun : Prop :=
  (∀ (s : State) (op : Nat) (o : Op) (m : MatReq), matOf s op = some (o, m) →
    let rope := ropeOfWave s o.wid
    matReady s rope op o m = true → (∀ e ∈ reserved s rope, ∀ x, e.2.body = .mat x →
      x.granted = false ∧ (matReady s rope e.1 e.2 x = true → grantKey s o < grantKey s e.2 ∨
        (grantKey s o = grantKey s e.2 ∧ op ≤ e.1))) →
    exec (.matrixGrant op) s = .next (granted s op rope o m)) ∧
  (∀ (s : State) (op : Nat) (o : Op) (m : MatReq) (w : Wave) (b : Block), matOf s op = some (o, m) →
    tget s.waves o.wid = some w → blockOf s w = some b → m.granted = true → m.kind ≠ 3 → matOwned s (ropeOfWave s o.wid) o m = true →
    (∀ g e og mg, matErr s op m = some (g, e) → matOf s g = some (og, mg) →
      let owes : Deferred := { cause := 0x14, sub := e.sub, orig := if e.sub = 1 then some e.orig else none, addr := e.addr,
                               again := mg.word }
      exec (.matrixWordComplete op) s = .next
        (modWave ((matGroup op m).foldl endOp s) og.wid (fun w => { w with defer := w.defer ++ [owes] }))) ∧
    (matErr s op m = none →
    let ends := fun (t : State) => exec (.matrixWordComplete op) s = .next (countSpill ((matGroup op m).foldl endOp t) o m)
    let fills := fun (f : Nat → Nat → W32) => (upto (shapeQuads m.shape)).foldl (fun s i => quadPut s w.blk (m.d + i) (f i)) s
    (m.kind ≤ 2 → ends (runMM s op w.blk b m)) ∧
    (m.kind = 4 → ends (modWave s o.wid (fun w => { w with scale := scaleFrom b m.a m.offA }))) ∧
    (m.kind = 5 → ends (fills (fun _ _ => 0))) ∧
    (m.kind = 6 → ends (quadPut s w.blk m.d (quadGet (quadData s b m.a)))) ∧
    (m.kind = 7 → ends (modWave s o.wid (fun w => (upto (1024 / w.width)).foldl (fun w i => fillSym w (m.d + i)
      ((upto w.width).map (fun l => (l, quadGet (quadData s b m.a) (i * w.width + l))))) w))) ∧
    (m.kind = 8 → ends (quadPut s w.blk m.d (fun i => m.vecs.getD i 0))) ∧
    (m.kind = 9 → ends (fills (fun _ _ => w32 m.val.toNat))) ∧
    (m.kind = 10 → m.ty ≠ 12 → ends (fills (fun i x => let ij := elemOf i x
      w32 (ofBytes (bufBytes b m.a (m.offA + 4 * (ij.1 * shapeRows m.shape + ij.2)) 4))))) ∧
    (m.kind = 11 → m.ty ≠ 12 → ends (modBlock s w.blk (fun x => bufPut x m.d m.offA
      ((upto (shapeRows m.shape * shapeRows m.shape)).flatMap (fun p =>
        let q := elemAt (p / shapeRows m.shape) (p % shapeRows m.shape)
        bytesOf 4 (quadGet (((upto (shapeQuads m.shape)).map (fun i => quadData s b (m.a + i))).getD q.1 []) q.2).toNat))))) ∧
    (m.kind = 10 → m.ty = 12 → ends (fills (fun i x => let ij := elemOf i x
      w32 (fConv bf16 f32 0 false false 0 (ofBytes (bufBytes b m.a (m.offA + 2 * (ij.1 * shapeRows m.shape + ij.2)) 2))).1))) ∧
    (m.kind = 11 → m.ty = 12 → ends (modBlock s w.blk (fun x => bufPut x m.d m.offA
      ((upto (shapeRows m.shape * shapeRows m.shape)).flatMap (fun p =>
        let q := elemAt (p / shapeRows m.shape) (p % shapeRows m.shape)
        bytesOf 2 (fConv f32 bf16 m.rm false false 0
          (quadGet (((upto (shapeQuads m.shape)).map (fun i => quadData s b (m.a + i))).getD q.1 []) q.2).toNat).1))))))) ∧
  (∀ (s : State) (op : Nat) (o : Op) (m : MatReq) (w : Wave) (b : Block), matOf s op = some (o, m) →
    tget s.waves o.wid = some w → blockOf s w = some b → m.granted = true → m.kind = 3 →
    matOwned s (ropeOfWave s o.wid) o m = true →
    let pi := m.pitch / tileNP m
    let pj := m.pitch % tileNP m
    let read := (bufPoison b m.a (tileRange m.ty (tileKC m) pi).1 (tileRange m.ty (tileKC m) pi).2).orElse (fun _ =>
      bufPoison b m.b (tileRange m.ty2 (tileKC m) pj).1 (tileRange m.ty2 (tileKC m) pj).2)
    let own := ∃ q ∈ matQuads m, q ∈ b.qpois
    let ends := fun (sub addr : Nat) (orig : Option Origin) => exec (.mtilePitchComplete op) s =
      .next (modWave (endOp s op) o.wid (fun w => { w with
        defer := w.defer ++ [{ cause := 0x14, sub := sub, orig := orig, elem := m.pitch, addr := addr, again := m.word }] }))
    (∀ e, read = some e → ends e.sub e.addr (if e.sub = 1 then some e.orig else none)) ∧
    (read = none → own → ends 2 0 none) ∧
    (read = none → ¬own → m.pitch + 1 < tileNP m * tileMP m → w.halted = false → exec (.mtilePitchComplete op) s = .next
      (setBody (tilePitch s w.blk b m pi pj) op (.mat { m with pitch := m.pitch + 1, granted := false }))) ∧
    (read = none → ¬own → m.pitch + 1 < tileNP m * tileMP m → w.halted = true → exec (.mtilePitchComplete op) s = .next
      (granted (tilePitch s w.blk b m pi pj) op (ropeOfWave s o.wid) o { m with pitch := m.pitch + 1 })) ∧
    (read = none → ¬own → tileNP m * tileMP m ≤ m.pitch + 1 → exec (.mtilePitchComplete op) s = .next
      (countSpill (endOp (tilePitch s w.blk b m pi pj) op) o m))) ∧
  (∀ (s : State) (rope key : Nat) (e : Latch), tget (ropeOf s rope).latch key = some e →
    (e.opened + 1048576 ≤ s.now → exec (.gangLatchTimeout rope key) s = .next (latchBreak s rope key 1)) ∧
    (s.now < e.opened + 1048576 → exec (.gangLatchTimeout rope key) s = .next s)) ∧
  (∀ (s : State) (op quad : Nat) (o : Op) (m : MatReq) (w : Wave), matOf s op = some (o, m) → tget s.waves o.wid = some w →
    let rope := ropeOfWave s o.wid
    m.granted = true → quad ∈ matPhys s o m → ownsQuad s rope w.ctx quad = false →
    exec (.accFirstUseTrap op quad) s = .next (firstUse s rope w.ctx quad))

/-- R207 to R212, R228, R313: a copy that every wave has issued starts with a free entry of its rope's table, each receiver deciding
in its turn; slices that disagree end it with CAUSE 3, a cancelled copy ends with CAUSE 0x0B; a running one writes the rest of its
payload as far as none of it waits, and its record once the payload is performed, at most four of a rope's copies running at a time.
R215, R216, R228, R256: a message enters its mailbox's queue in the order of sequence numbers; the first MBRECV that waits gets the
observation it took, or the head of the queue, once its block is resident; a HOSTSIG that waits for room issues when its ring has it,
and a slot that has left the word posts nothing (DEDUCED, log entry 51). -/
def Obligations.CopiesRunAndMessagesMove : Prop :=
  (∀ (s : State) (blk k : Nat) (b : Block) (c : Copy), tget s.blocks blk = some b → tget b.copies k = some c →
    let h := headSlice c
    let rope := ropeOfCore b.core
    let ends := fun (cause : Nat) => finishCopy s blk k { c with cause := cause, slice := 0, bytes := 0, refused := h.rmask }
    (∀ entry, c.st = 3 → exec (.copyStart blk k entry) s = .next (ends 0x0B)) ∧
    (∀ entry, c.st = 0 → allIssued s b k = true → slicesDisagree c = true → exec (.copyStart blk k entry) s = .next (ends 3)) ∧
    (∀ entry, c.st = 0 → allIssued s b k = true → slicesDisagree c = false → entry < 16 →
      tget (ropeOf s rope).locks entry = none → b.res = .resident →
      let l := lockOf b blk k c
      (∀ e ∈ (ropeOf s rope).locks, lockWaits l e.2 = false) →
      let s1 := modRope s rope (fun r => { r with locks := tput r.locks entry l })
      (h.kind ≠ 1 → exec (.copyStart blk k entry) s = .next (putCopy s1 blk k { c with st := 1, entry := some entry })) ∧
      (h.kind = 1 →
        let p := ((upto 32).filter (fun i => h.rmask.getLsbD i)).foldl (decideRecv b blk k c) (s1, c)
        exec (.copyStart blk k entry) s = .next (putCopy p.1 blk k { p.2 with st := 1, entry := some entry }))) ∧
    (c.st = 3 → exec (.copyComplete blk k) s = .next (ends 0x0B)) ∧
    (c.st = 1 → copyRuns s b c = true →
      (∀ u, copyUnits s b blk k (copyLen c) c = .error u → exec (.copyComplete blk k) s = .next u) ∧
      (∀ s1 c1, copyUnits s b blk k (copyLen c) c = .ok (s1, c1) →
        (c1.cur < c1.slices.length → exec (.copyComplete blk k) s = .next (putCopy s1 blk k c1)) ∧
        (c1.slices.length ≤ c1.cur → s1.now < c1.tDone →
          exec (.copyComplete blk k) s = .next (putCopy s1 blk k { c1 with st := 4 })) ∧
        (c1.slices.length ≤ c1.cur → c1.tDone ≤ s1.now → exec (.copyComplete blk k) s = .next (finishCopy s1 blk k { c1 with st := 4 })))) ∧
    (c.running = false → 4 ≤ copiesRunning s rope → copyRuns s b c = false) ∧
    (c.st = 4 → c.tDone ≤ s.now → exec (.copyComplete blk k) s = .next (finishCopy s blk k c)) ∧
    (c.st = 4 → s.now < c.tDone → exec (.copyComplete blk k) s = .next s)) ∧
  ((∀ (s : State) (op : Nat) (o : Op) (w : Wave) (b : Block), tget s.ops op = some o → tget s.waves o.wid = some w →
    blockOf s w = some b →
    (∀ e buf off len ver seq, o.body = .mbsend e buf off len ver seq → (sendsDue s e).head? = some op →
      exec (.mbsendEnqueue op) s = .next (endOp (modEp s e (fun x => { x with
        actions := x.actions ++ [⟨seq, ver, 0, len, bufBytes b buf (off + 16) 240⟩] })) op)) ∧
    (∀ slotB, o.body = .hostsig slotB →
      let x := slotOf w slotB
      let there := x.inClause = true ∧ originOf b w (wordAddr x) = o.orig
      let ready := ringFull (ctxOf s w.ctx).sigq = false ∧ waveRuns s o.wid w b = true ∧ slotRuns x = true
      let t := { s with ops := tdel s.ops op, cur := some ⟨o.wid, slotB⟩ }
      (¬there → exec (.hostsigEnqueue op) s = .next { s with ops := tdel s.ops op }) ∧
      (there → ¬ready → exec (.hostsigEnqueue op) s = .next s) ∧
      (there → ready → isTwo (rawWord x x.idx) = false →
        exec (.hostsigEnqueue op) s = exec (.hostsig (iwOf (rawWord x x.idx))) t) ∧
      (there → ready → isTwo (rawWord x x.idx) = true → exec (.hostsigEnqueue op) s =
        exec (.hostsigLong (cwOf (rawWord x x.idx)) (xwOf (rawWord x (x.idx + 1)))) t))) ∧
  (∀ (s : State) (e op : Nat) (rest : List Nat) (o : Op) (w : Wave) (b : Block), (epOf s e).waiters = op :: rest →
    tget s.ops op = some o → tget s.waves o.wid = some w → blockOf s w = some b →
    ∀ e' buf off d got, o.body = .mbrecv e' buf off d got →
    (b.res ≠ .resident → exec (.observationDelivery e) s = .next s) ∧
    (b.res = .resident →
      (∀ m, got = some m → exec (.observationDelivery e) s = .next
        (deliverObs (modEp s e (fun x => { x with waiters := rest })) op o b w.blk buf off d m)) ∧
      (∀ m ms, got = none → (epOf s e).obs = m :: ms → exec (.observationDelivery e) s = .next
        (deliverObs (modEp s e (fun x => { x with waiters := rest, obs := ms })) op o b w.blk buf off d m)) ∧
      (got = none → (epOf s e).obs = [] → exec (.observationDelivery e) s = .next s))))

/-! Waves, cores, the Harness (R117, R233, R241 to R261, R353 to R358). -/

/-- R117, R233, R258, R261, R352, R353: a drained wave retires; a handler that ends without ERESUME is killed with its parked
wave; a free handler slot starts the first queued trap's handler; a ready pending wave enters the active set; an
interrupt goes out once its raising write is performed. -/
def Obligations.WavesAndCoresMove : Prop :=
  (∀ (s : State) (wid : Nat) (w : Wave) (b : Block), tget s.waves wid = some w → blockOf s w = some b →
    (w.st ≠ .draining ∨ cntZero w.cnt = false → exec (.waveRetire wid) s = .next s) ∧
    (w.st = .draining → cntZero w.cnt = true →
      (w.parent = none → exec (.waveRetire wid) s = .next (retireWave s wid w b)) ∧
      (∀ pid p t, w.parent = some pid → tget s.waves pid = some p → p.trap = some t →
        exec (.waveRetire wid) s = .next (killWave (faultLog s w.ctx t.words b.idx w.idx 4) pid)))) ∧
  (∀ (s : State) (core : Nat),
    ((coreOf s core).handler ≠ none ∨ (coreOf s core).dbg.frozen = true → exec (.handlerStart core) s = .next s) ∧
    ((coreOf s core).handler = none → (coreOf s core).dbg.frozen = false →
      (queuedTraps s core = [] → exec (.handlerStart core) s = .next s) ∧
      (∀ pid w b t rest, queuedTraps s core = (pid, w, b, t) :: rest →
        (handlerOf s w.ctx w.width = none → exec (.handlerStart core) s = .next
          (killWave (faultLog s w.ctx t.words b.idx w.idx 1) pid)) ∧
        (∀ v, handlerOf s w.ctx w.width = some v → pid ≠ s.nextId + 1 → ∃ u, exec (.handlerStart core) s = .next u ∧
          (coreOf u core).handler = some (s.nextId + 1) ∧
          tget u.waves pid = some { w with trap := some { t with handler := some (s.nextId + 1) } } ∧
          tget u.waves (s.nextId + 1) = some {
            blk := s.nextId, idx := w.idx, width := w.width, ctx := w.ctx, parent := some pid, readyAt := s.now,
            tmin := s.readMax, a := { used := true, pc := v.text, mask := allLanes w.width } })))) ∧
  (∀ (s : State) (core out inn : Nat), let c := coreOf s core
    (bestPending s core inn = false → exec (.activeSetSwap core out inn) s = .next s) ∧
    (bestPending s core inn = true → c.active.length < 8 → exec (.activeSetSwap core out inn) s = .next
      (modCore s core (fun c => { c with active := c.active ++ [inn], pending := c.pending.filter (· ≠ inn) }))) ∧
    (∀ w b, bestPending s core inn = true → 8 ≤ c.active.length → out ∈ c.active → tget s.waves out = some w →
      blockOf s w = some b → replaceable s out w b = true → exec (.activeSetSwap core out inn) s = .next
        (modCore s core (fun c => { c with
          active := c.active.filter (· ≠ out) ++ [inn], pending := c.pending.filter (· ≠ inn) ++ [out] })))) ∧
  (∀ (s : State) (i : Nat) (q : Irq), s.irqs[i]? = some q →
    (q.after ≤ s.now → exec (.interruptSend i) s =
      .next { s with irqs := s.irqs.eraseIdx i, irqSent := s.irqSent ++ [(q.fn, q.vec)] }) ∧
    (s.now < q.after → exec (.interruptSend i) s = .next s))

/-- R241 to R256, R339, R355 to R358: blocks above their share are marked, and a marked block that has stopped moves its symbols
to its new budget; a block whose waves all wait outside leaves, one marked for pre-emption leaves when it has stopped; a group
gives way at the end of its slice; a block returns, and a launch's next group is placed, where there is room, and waits
there where there is none. -/
def Obligations.HarnessMovesBlocks : Prop :=
  (∀ (s : State) (core : Nat),
    ((coreOf s core).shareDue = false → exec (.shareRecompute core) s = .next s) ∧
    ((coreOf s core).shareDue = true → ∃ u, exec (.shareRecompute core) s = .next u ∧
      u.blocks = s.blocks.map (fun e =>
        let sh := shareOf s e.2.ctx core
        if e.2.core = core ∧ e.2.res = .resident ∧ e.2.handler = false ∧ e.2.mark = false ∧ sh < e.2.budget then
          (e.1, { e.2 with mark := true, newBudget := budgetOf sh })
        else e) ∧
      coreOf u core = { coreOf s core with shareDue := false } ∧ u.waves = s.waves ∧ u.mem = s.mem)) ∧
  (∀ (s : State) (blk : Nat) (b : Block), tget s.blocks blk = some b → b.handler = false → b.res = .resident →
    (b.mark = true → blockStopped s b false = true → exec (.rebindMove blk) s = .next
      (shareDueOn (modCtx (modBlock (moveSymbols s b) blk (fun x => { x with
        budget := x.newBudget, mark := false, area := newArea s blk b })) b.ctx
        (fun c => { c with rebind := satInc c.rebind })) [b.core])) ∧
    (stopHolds s b.core = false → mayLeave s b = true → engineBusy s b false = false → receivesCopy s blk b.core = false →
      let s1 := modCtx (leaveCore (hadSlice s b.grp false) blk b .swapped) b.ctx (fun c => { c with swap := satInc c.swap })
      (∀ g, tget s1.groups b.grp = some g → groupHere s1 g = true → exec (.blockSwapOut blk) s = .next s1) ∧
      (∀ g, tget s1.groups b.grp = some g → groupHere s1 g = false →
        exec (.blockSwapOut blk) s = .next (saveQuads s1 b.grp g))) ∧
    (b.preMark = true → blockStopped s b true = true → engineBusy s b true = false → receivesCopy s blk b.core = false →
      exec (.blockPreempt blk) s = .next
      (modCtx (leaveCore (hadSlice s b.grp true) blk b .preempted) b.ctx (fun c => { c with preempted := satInc c.preempted })))) ∧
  (∀ (s : State) (grp : Nat) (g : Group), tget s.groups grp = some g → g.retired = false → groupHere s g = true →
    let t := (ctxOf s g.ctx).tslice.toNat
    (t = 0 ∨ s.now < g.since + t → exec (.timeSliceExpiry grp) s = .next s) ∧
    (t ≠ 0 → g.since + t ≤ s.now → ∀ o, waitingOther s g.rope g.ctx = some o → exec (.timeSliceExpiry grp) s = .next
      (g.blocks.foldl (fun s k => modBlock s k (fun b =>
        if b.res = .resident then { b with preMark := true, sliceFor := some o } else b)) s))) ∧
  (∀ (s : State) (blk core : Nat) (b : Block) (g : Group), tget s.blocks blk = some b → tget s.groups b.grp = some g →
    mayReturn s b = true → ropeTakes s b (ropeOfCore core) = true →
    (∀ v area, returnPlace s blk b core = some (v, area) →
      exec (.blockSwapIn blk core) s = .next (enterBlock s blk b g core v area)) ∧
    (returnPlace s blk b core = none → exec (.blockSwapIn blk core) s = .next (repoint (shareDueOn
      (modCore s core (fun c => { c with wantB := c.wantB.filter (· ≠ blk) ++ [blk] })) [core]) (ropeOfCore core)))) ∧
  (∀ (s : State) (lid rope : Nat) (cores : List Nat) (l : Launch) (v : Variant), tget s.launches lid = some l →
    l.var = some v → l.st = .offered → (ctxOf s l.ctx).st = 1 → rope < Config.ropes →
    cores.length = (nextGroup l v).2.length → (∀ c ∈ cores, ropeOfCore c = rope) → awayFirst s cores = false →
    offeredFirst s lid rope cores = false →
    (∀ ps, groupPlaces s lid l v rope cores = some ps →
      exec (.ropeGroupPlacement lid rope cores) s = .next (placeGroup s lid l v rope ps)) ∧
    (groupPlaces s lid l v rope cores = none →
      exec (.ropeGroupPlacement lid rope cores) s = .next (wantCores s lid rope cores.eraseDups)))

/-! Contexts, queues, the debug window (R321 to R328, R335 to R344, R349 to R361). -/

/-- R318, R321, R322, R328, R349, R350, R356, R360, R361: the owner's write enables a free context at its Reset column, begins
a reset or a teardown, grants and revokes the debug right, marks a context's blocks for pre-emption, answers a page request;
another function's write does nothing. A reset completes once every write of the context is performed. That packets
which a reset cuts short complete with STATUS 5 as it completes is the DEDUCED choice of log entry 30. -/
def Obligations.ContextsChange : Prop :=
  (∀ (s : State) (fn c : Nat) (v : W64), c < Config.contexts → s.dev.answering = true → s.dev.bootOk = true →
    ownerFn s c = fn → let x := ctxOf s c
    (x.st = 0 → (v ||| 1).getLsbD 1 = false → ∃ t, exec (.contextEnable fn c v) s = .next t ∧ t.mem = s.mem ∧
      ctxOf t c = {
        st := 1, en := true, dbgfn := min 64 (bits (v ||| 1).toNat 23 16), aud := x.aud && !bit (v ||| 1).toNat 7,
        dbg := bit (v ||| 1).toNat 6, replay := bit (v ||| 1).toNat 5,
        reclaim := x.reclaim, rebind := x.rebind, swap := x.swap, preempted := x.preempted, firstuse := x.firstuse,
        flogdrop := x.flogdrop, watchdog := x.watchdog, spillkib := x.spillkib,
        spillRem := x.spillRem, metas := x.metas, pods := x.pods }) ∧
    (x.st = 1 →
      let put := fun (u : W64) => modCtx s c (fun x => { x with
        dbgfn := min 64 (bits u.toNat 23 16), aud := x.aud && !bit u.toNat 7, dbg := bit u.toNat 6, replay := bit u.toNat 5 })
      (v.getLsbD 6 = x.dbg → exec (.contextTeardown fn c v) s = .next (ctxStop (put (v &&& ~~~1)) c true) ∧
        (v.getLsbD 0 = true → exec (.flr fn c v) s = .next (ctxStop (put (v ||| 2)) c false))) ∧
      (v.getLsbD 0 = true → v.getLsbD 1 = false →
        (x.dbg = false → exec (.debugGrant fn c v) s = .next (dbgGrant (put (v ||| 0x40)) c)) ∧
        (x.dbg = true → exec (.debugRevoke fn c v) s = .next (dbgRevoke (put (v &&& ~~~0x40)) c))) ∧
      exec (.preempt fn c) s = .next { s with blocks := s.blocks.map (fun e =>
        if e.2.ctx = c ∧ e.2.handler = false ∧ e.2.res = .resident then (e.1, { e.2 with preMark := true }) else e) } ∧
      (∀ tag, tag < 4096 → ∀ p, x.preqs.find? (fun q => q.tag == tag) = some p →
        let s1 := modCtx s c (fun c => { c with preqs := c.preqs.filter (fun q => q.tag ≠ tag) })
        exec (.pageRequestRetry fn c tag) s = .next (p.joined.foldl (fun s j => pageAgain s j.1 j.2 tag) s1) ∧
        exec (.pageRequestFail fn c tag) s = .next (p.joined.foldl (fun s j => pageTrap s j.1 j.2 tag) s1)))) ∧
  (∀ (s : State) (fn c tag : Nat) (v : W64), ownerFn s c ≠ fn →
    ∀ i ∈ [Instr.contextEnable fn c v, .contextTeardown fn c v, .flr fn c v, .debugGrant fn c v, .debugRevoke fn c v,
      .preempt fn c, .pageRequestRetry fn c tag, .pageRequestFail fn c tag], exec i s = .next s) ∧
  (∀ (s : State) (c : Nat), (ctxOf s c).st = 2 → (∀ e ∈ s.hw, e.2.ctx ≠ c) →
    let p := flushCtx s c
    let t := max (ctxT p.1 c) (max (ctxOf s c).drainT p.2)
    (p.1.now < t → exec (.contextResetComplete c) s = .next (modCtx p.1 c (fun x => { x with drainT := t }))) ∧
    (t ≤ p.1.now → exec (.contextResetComplete c) s = .next (modCtx (completeAll p.1 c 5) c (fun x =>
      ctxReset x (if x.tearing then 0 else 1)))))

/-- R335 to R344: QCTL enables a queue at index 0 or stalls it on a bad size, and disables it; a doorbell within the slots moves WIDX
and restarts a stalled queue, one beyond them is ignored, and one after a bad size moves WIDX alone; a read slot is accepted when its
sequence and its fields are good, stalls the queue when it cannot be read or is bad, and is read again, at most 64 times, when its
sequence is another; a ready packet is offered, refused or completed; a TLB packet completes once no older access is left. A replay
whose block is not below NBLOCKS completes with STATUS 1: the DEDUCED choice of log entry 32. -/
def Obligations.QueuesAndPacketsMove : Prop :=
  (∀ (s : State) (fn c q : Nat) (v : W64), c < Config.contexts → s.dev.answering = true → s.dev.bootOk = true →
    ownerFn s c = fn → q < 16 → (ctxOf s c).st = 1 → let x := queueOf (ctxOf s c) q
    let size := bits v.toNat 4 0
    (x.en = false → exec (.queueEnable fn c q v) s = .next (enableQueue (modQueue s c q (fun x => { x with log2n := size })) c q)) ∧
    exec (.queueDisable fn c q v) s = .next (modQueue (modQueue s c q (fun x => { x with log2n := size })) c q (fun x => { x with
      en := false, st := 0, deadLog := false, reading := false, tries := 0 })) ∧
    (x.deadLog = true → exec (.qdoor fn c q v) s = .next (modQueue s c q (fun x => { x with widx := BitVec.ofNat 16 v.toNat }))) ∧
    (x.deadLog = false → x.en = true → 2 ^ x.gLog < (BitVec.ofNat 16 v.toNat - BitVec.ofNat 16 x.rd).toNat →
      exec (.qdoor fn c q v) s = .next s) ∧
    (x.deadLog = false → (x.en = true → (BitVec.ofNat 16 v.toNat - BitVec.ofNat 16 x.rd).toNat ≤ 2 ^ x.gLog) →
      exec (.qdoor fn c q v) s = .next (modQueue s c q (fun x => { x with
        widx := BitVec.ofNat 16 v.toNat, st := if 2 ≤ x.st then 1 else x.st, reading := x.reading && decide (x.st < 2),
        tries := if 2 ≤ x.st then 0 else x.tries })))) ∧
  (∀ (s : State) (c q : Nat), slotDue s c q = true → let x := queueOf (ctxOf s c) q
    ∀ i, (i = Instr.packetRead c q ∧ x.reading = false) ∨ (i = .packetReread c q ∧ x.reading = true ∧ x.nextRd ≤ s.now) →
    let w0 := devWord s c (slotVa x)
    let words := fun (bs : List Byte) => (upto 8).map (fun i => ofBytes ((bs.drop (8 * i)).take 8))
    (w0 = none → exec i s = .next (stallQueue s c q 3)) ∧
    (∀ w, w0 = some w → bits w 63 48 = x.rd % 65536 →
      (devRead s c (slotVa x) 64 = none → exec i s = .next (stallQueue s c q 3)) ∧
      (∀ bs, devRead s c (slotVa x) 64 = some bs →
        (packetBad (words bs) = true → exec i s = .next (stallQueue s c q 3)) ∧
        (packetBad (words bs) = false → exec i s = .next (acceptPacket s c q (words bs))))) ∧
    (∀ w, w0 = some w → bits w 63 48 ≠ x.rd % 65536 →
      (x.reading = false → exec i s = .next (modQueue s c q (fun x => { x with
        reading := true, tries := 0, nextRd := s.now + 156 }))) ∧
      (x.reading = true → 64 ≤ x.tries + 1 → exec i s = .next (stallQueue s c q 2)) ∧
      (x.reading = true → x.tries + 1 < 64 → exec i s = .next (modQueue s c q (fun y => { y with
        tries := y.tries + 1, nextRd := s.now + 156 }))))) ∧
  (∀ (s : State) (lid : Nat) (l : Launch), tget s.launches lid = some l →
    (l.st = .waiting → (ctxOf s l.ctx).st = 1 → packetReady s l = true →
      (l.kind = 1 → ∀ st, resolve s l = .error st → exec (.launchReady lid) s = .next (completePacket s lid st)) ∧
      (l.kind = 1 → ∀ v, resolve s l = .ok v →
        (∀ b, l.replay = some b → l.nblocks ≤ b → exec (.launchReady lid) s = .next (completePacket s lid 1)) ∧
        ((∀ b, l.replay = some b → b < l.nblocks) → exec (.launchReady lid) s = .next
          (offer (modLaunch s lid (fun l => { l with var := some v, fuse := l.fuse || v.info.fuse })) lid l))) ∧
      (l.kind = 2 → exec (.launchReady lid) s = .next (completePacket s lid 0)) ∧
      (l.kind = 3 → exec (.launchReady lid) s = .next (modLaunch s lid (fun l => { l with st := .placed })))) ∧
    (packetReady s l = false → exec (.launchReady lid) s = .next s) ∧
    (l.kind = 3 → l.st = .placed → (ctxOf s l.ctx).st ≠ 1 → exec (.tlbInvalidationComplete lid) s = .next s) ∧
    (l.kind = 3 → l.st = .placed → (ctxOf s l.ctx).st = 1 →
      (oldAccess s l.ctx lid = true → exec (.tlbInvalidationComplete lid) s = .next s) ∧
      (oldAccess s l.ctx lid = false → exec (.tlbInvalidationComplete lid) s = .next (completePacket s lid 0))))

/-- R321 to R327: under the debug right STOP asks for a stop, RESUME releases the context's waves, STEP releases the wave that
DSEL names, DDATA reads and edits its target, an edit marking the context as altered; without the right each sets ERR 1. A stop
halts its context's waves on the core and takes a dump, once an earlier dump is written; the dump of a step is taken at once, behind
one that waits; a dump is written to a good buffer, and otherwise sets ERR 5. STEP's release, the order of stops and dumps, commands
judged on CTX as it stands and the PC as an image offset are the DEDUCED choices of log entry 34. -/
def Obligations.DebugCommandsAct : Prop :=
  (∀ (s : State) (fn core : Nat), let d := (coreOf s core).dbg
    d.ctx < 128 → dbgRight s ⟨fn, false⟩ d.ctx = true →
    exec (.stop fn core) s = .next (modDbg s core (fun d => { d with
      stops := askStop d.stops d.ctx })) ∧
    exec (.resume fn core) s = .next (dbgResume (modDbg s core (fun d => d)) core d.ctx) ∧
    (∀ wid w b, dbgWave (modDbg s core (fun d => d)) core = .ok (wid, w, b) → exec (.step fn core) s = .next
      (setWave (modDbg s core (fun d => d)) wid
        { w with halted := false, stepping := stepCode w })) ∧
    (∀ e, dbgWave (modDbg s core (fun d => d)) core = .error e →
      exec (.step fn core) s = .next (dbgErr (modDbg s core (fun d => d)) core e)) ∧
    (∀ x, ddataVal s core = .ok x → exec (.ddataRead fn core) s = .next { s with hostData := x }) ∧
    (∀ e, ddataVal s core = .error e → ∀ v,
      exec (.ddataRead fn core) s = .next { dbgErr s core e with hostData := 0 } ∧
      exec (.ddataWrite fn core v) s = .next (dbgErr s core e)) ∧
    (∀ wid w b, dbgTarget s core = .ok (wid, w, b) → ∀ v : W64,
      let aud := fun (s : State) => modCtx s d.ctx (fun c => { c with aud := true })
      (dselTgt d = 0 → exec (.ddataWrite fn core v) s = .next (aud (setWave s wid (selPut w (dselSym d) v)))) ∧
      (dselTgt d = 1 → exec (.ddataWrite fn core v) s = .next (aud (setPc s wid w b false (v.toNat % 2 ^ 32)))) ∧
      (dselTgt d = 2 → exec (.ddataWrite fn core v) s = .next (aud (setPc s wid w b true (v.toNat % 2 ^ 32)))) ∧
      (dselTgt d = 3 → modeOk (v.toNat % 2 ^ 32) = true → exec (.ddataWrite fn core v) s = .next
        (aud (setWave s wid (modSlot w false (fun x => { x with ctl := { x.ctl with mode := w32 v.toNat } }))))) ∧
      (dselTgt d = 3 → modeOk (v.toNat % 2 ^ 32) = false → exec (.ddataWrite fn core v) s = .next (dbgErr s core 4)))) ∧
  (∀ (s : State) (fn core : Nat) (v : W64), (coreOf s core).dbg.ctx < 128 →
    dbgRight s ⟨fn, false⟩ (coreOf s core).dbg.ctx = false →
    (∀ i ∈ [Instr.stop fn core, .resume fn core, .step fn core, .ddataWrite fn core v],
      exec i s = .next (dbgErr s core 1)) ∧
    exec (.ddataRead fn core) s = .next { dbgErr s core 1 with hostData := 0 }) ∧
  (∀ (s : State) (core : Nat), let d := (coreOf s core).dbg
    (d.dump ≠ [] → exec (.debugStopEffect core) s = .next s) ∧
    (∀ c rest, d.dump = [] → d.stops = c :: rest → exec (.debugStopEffect core) s = .next (takeDump (modDbg { s with
      waves := s.waves.map (fun e =>
        if e.2.st = .live ∧ onCore s core c e.2 = true then (e.1, { e.2 with halted := true, stepping := 0 }) else e) } core
      (fun d => { d with stops := rest, stopCtx := some c, frozen := true })) core c)) ∧
    (d.dump = [] → d.stops = [] → exec (.debugStopEffect core) s = .next s) ∧
    (∀ c,
      (d.dump = [] → (coreOf (takeDump s core c) core).dbg = { d with
        dump := (dumpRecords s core c).flatMap id, dumpRecs := (dumpRecords s core c).length, dumped := false }) ∧
      (d.dump ≠ [] → (coreOf (takeDump s core c) core).dbg = { d with
        more := d.more ++ [((dumpRecords s core c).flatMap id, (dumpRecords s core c).length)], dumped := false })) ∧
    (∀ e c, s.cores.filter (fun e => e.2.dbg.fresh.isSome) = [e] → e.2.dbg.fresh = some c →
      freshDumps s = takeDump (modDbg s e.1 (fun d => { d with fresh := none })) e.1 c) ∧
    (d.dump ≠ [] → bufOk s d.buf.toNat d.dump.length = false → exec (.debugDumpWritten core) s = .next (modDbg s core
      (fun d => nextDump { d with err := 5, frozen := d.frozen && (d.stops != [] || d.stopCtx.isSome) }))) ∧
    (d.dump ≠ [] → bufOk s d.buf.toNat d.dump.length = true → exec (.debugDumpWritten core) s = .next
      (modDbg (engineWrite s d.buf.toNat (d.dump.flatMap (fun w => bytesOf 8 w.toNat))).1 core (fun d =>
        nextDump { d with dumped := d.more.isEmpty, nrec := d.dumpRecs, frozen := d.frozen && d.stops != [], stopCtx := none }))) ∧
    (d.dump = [] → exec (.debugDumpWritten core) s = .next s))

/-! The device (R298, R347, R381 to R413). -/

/-- R297, R404 to R407, R410: device reset leaves the memory, puts TINIT in the counter and everything else at its
reset value, keeping what is fused; power-on keeps no memory; the device answers once the boot ROM has verified its
firmware; a function-level reset resets the contexts that its function holds. Ports train and fail, members join,
leave and are lost, and accesses of the host and of peers to device memory are performed at its homes, those elsewhere
ending the run. R347, R408 to R413: the physical function selects the time source, adjusts the host's correction,
checks and commits firmware, asks for a report or the chain, and loads a roster; a PTP message brings its time, with the device's own
counter, and the response to a delay request an offset and its correction; the report or the chain is written at RADDR; a binding set
is kept once its announcement verifies, or once it is built here, and announced. The stop noStorage is the DESIGN CHOICE of log entry
52; what resets and power-on keep is that of log entry 23; the offset's sign and what a change of TSRC drops are the DEDUCED choices of
log entry 25, the roster's checks those of log entry 26, the attestation word's those of log entry 27. -/
def Obligations.DeviceDomainAndServicesAct : Prop :=
  ((∀ (s : State) (i : Instr), i = .deviceReset ∨ (i = .dreset 0 ∧ s.dev.answering = true ∧ s.dev.bootOk = true) →
    ∃ t, exec i s = .next t ∧ t.mem = s.mem ∧ t.now = s.dev.tinit.toNat ∧ t.ctxs = [] ∧ t.waves = [] ∧ t.blocks = [] ∧
      t.launches = [] ∧ t.slices = [] ∧ t.eps = [] ∧ t.l1 = [] ∧ t.ops = [] ∧ t.cores = [] ∧ t.picks = [] ∧
      t.dev = { stepping := s.dev.stepping, svnMin := s.dev.svnMin, fw := s.dev.staged.orElse (fun _ => s.dev.fw),
                localNext := s.dev.localNext, localGiB := s.dev.localNext, tinit := s.dev.tinit, answering := false }) ∧
  (∀ (s : State), ∃ t, exec .powerOn s = .next t ∧ t.mem = [] ∧ t.now = 0 ∧ t.ctxs = [] ∧ t.eps = [] ∧ t.dev.localGiB = 0 ∧
    t.dev.svnMin = s.dev.svnMin) ∧
  (∀ (s : State),
    (s.dev.answering = true → exec (.bootRomVerification ()) s = .next s) ∧
    (s.dev.answering = false → exec (.bootRomVerification ()) s = .next { s with dev := { s.dev with
      answering := true, bootOk := fwOk s.dev (fwOf s.dev) } })) ∧
  (∀ (s : State) (fn : Nat),
    let cs := (upto Config.contexts).filter (fun c => (ctxOf s c).st == 1 && (fn == 0 || ownerFn s c == fn))
    let s1 := cs.foldl (fun s c => ctxStop s c false) s
    (fn ≠ 0 → exec (.functionLevelReset fn) s = .next s1) ∧
    (fn = 0 → (∀ e ∈ s1.eps, e.2.redeems = []) → exec (.functionLevelReset fn) s = .next { s1 with eps := [] })) ∧
  (∀ (s : State) (port : Nat),
    (port < 18 → exec (.fabricPortTrained port) s = .next { s with dev := { s.dev with links := s.dev.links ||| (1#18 <<< port) } } ∧
      exec (.fabricPortFails port) s = .next { s with dev := { s.dev with links := s.dev.links &&& ~~~(1#18 <<< port) } }) ∧
    (18 ≤ port → exec (.fabricPortTrained port) s = .next s ∧ exec (.fabricPortFails port) s = .next s)) ∧
  (∀ (s : State) (v : W64), s.dev.answering = true → s.dev.bootOk = true →
    let size := bits v.toNat 40 32
    (s.dev.domsize = 0 → size ≠ 0 → exec (.domainJoin 0 v) s = .next { s with dev := { s.dev with
      domid := BitVec.ofNat 16 (bits v.toNat 63 48), domsize := size, lost := [] } }) ∧
    (s.dev.domsize ≠ 0 → size ≠ 0 → exec (.domainJoin 0 v) s = .next { s with dev := { s.dev with domsize := size } }) ∧
    (s.dev.domsize ≠ 0 → ∃ t, exec (.domainLeave 0 v) s = .next t ∧ t.dev = { s.dev with domsize := 0, lost := [] } ∧
      t.mem = s.mem ∧ ∀ e ∈ t.slices, e.2.farMons = [])) ∧
  (∀ (s : State) (dev : Nat), peerHere s dev = true → dev ≠ s.dev.devnum.toNat → ∃ t, exec (.peerLoss dev) s = .next t ∧
    t.dev = { s.dev with lost := s.dev.lost ++ [dev] } ∧ t.mem = s.mem) ∧
  (∀ (s : State) (pa size v : Nat), s.dev.answering = true → s.dev.bootOk = true →
    ((∀ i < size, isDevMem s (pa + i) = true) →
      exec (.hostMemoryAccess true pa size v) s = .next (engineWrite s pa (bytesOf size v)).1 ∧
      (∃ t, exec (.hostMemoryAccess false pa size v) s = .next t ∧
        t.hostData = w64 (ofBytes ((upto size).map (fun i => (homeRead s (pa + i) 1).1.headD 0)))) ∧
      (s.dev.domsize ≠ 0 → let t := sliceOf s (homeSlice s pa)
        (∃ t, exec (.peerAccess 0 pa size v) s = .next t ∧ t.hostData = w64 (ofBytes (homeRead s pa size).1) ∧
          s.now + min 65536 v ≤ tgetD t.lease (lineOf (canonPa s pa)) 0) ∧
        exec (.peerAccess 1 pa size v) s = .next (engineWrite s pa (bytesOf size v)).1 ∧
        (∀ c < 16, let m := monCond c size (ofBytes (homeRead s pa size).1) (w64 v)
          ∃ t1, exec (.peerAccess (32 + c) pa size v) s = .next t1 ∧ t1.hostData = w64 (ofBytes (homeRead s pa size).1) ∧
            (m = true ∨ 4096 ≤ t.mons.length + t.farMons.length → t1.slices = (homeRead s pa size).2.slices) ∧
            (m = false → t.mons.length + t.farMons.length < 4096 → t1.slices = (modSlice (homeRead s pa size).2 (homeSlice s pa)
              (fun x => { x with farMons := x.farMons ++ [⟨pa, size, c, w64 v⟩] })).slices)) ∧
        exec (.peerAccess 48 pa size v) s = .next (modSlice s (homeSlice s pa) (fun x => { x with
          farMons := x.farMons.filter (fun m => m.pa != pa) })) ∧
        (∀ code < 30, exec (.peerAccess (2 + code) pa size v) s = .next
          (let r := homeUpdate s pa size code (v % 2 ^ (8 * size)) (v >>> (8 * size))
           { r.1 with hostData := w64 r.2.1 })))) ∧
    (∀ j < size, isDevMem s (pa + j) = false → ∀ w k,
      exec (.hostMemoryAccess w pa size v) s = .fault .noStorage ∧
      (s.dev.domsize ≠ 0 → exec (.peerAccess k pa size v) s = .fault .noStorage)))) ∧
  ((∀ (s : State) (v : W64), s.dev.answering = true → s.dev.bootOk = true → let n := v.toNat
    let kept := fun (n : Nat) => bits n 63 62 == s.dev.tsrc && bits n 57 53 == s.dev.port && bits n 47 40 == s.dev.pdom
    exec (.timeSourceSelect 0 v) s = .next { s with dev := { s.dev with
      tsrc := bits n 63 62, port := bits n 57 53, pdom := bits n 47 40
      corr := if bits n 63 62 = s.dev.tsrc then s.dev.corr else 0
      slewRem := if bits n 63 62 = s.dev.tsrc then s.dev.slewRem else 0
      ptpT1 := if kept n then s.dev.ptpT1 else none
      ptpT2 := if kept n then s.dev.ptpT2 else none
      ptpT3 := if kept n then s.dev.ptpT3 else none } } ∧
    (s.dev.tsrc = 2 → exec (.hostadj 0 v) s = .next { s with dev := { s.dev with corr := v.toInt, slewRem := 0 } }) ∧
    (s.dev.tsrc ≠ 2 → exec (.hostadj 0 v) s = .next s)) ∧
  (∀ (s : State) (x : PtpMsg), let d := s.dev
    let ours := d.tsrc = 1 ∧ x.port = d.port ∧ x.port < 18 ∧ x.dom = d.pdom
    let ends := fun (e : Dev) => exec (.ptpMessage x) s = .next { s with dev := e }
    (¬ours → exec (.ptpMessage x) s = .next s) ∧
    (ours → (∀ t1, x.kind = .sync t1 → ends { d with ptpT1 := t1, ptpT2 := some (w64 s.now) }) ∧
      (∀ t1, x.kind = .followUp t1 → ends { d with ptpT1 := some t1 }) ∧
      (x.kind = .delayReq → ends { d with ptpT3 := some (w64 s.now) }) ∧
      (∀ t4, x.kind = .delayResp t4 → d.ptpT1 = none ∨ d.ptpT2 = none ∨ d.ptpT3 = none → ends d) ∧
      (∀ t1 t2 t3 t4, x.kind = .delayResp t4 → d.ptpT1 = some t1 → d.ptpT2 = some t2 → d.ptpT3 = some t3 →
        let o := ptpOffset t1 t2 t3 t4
        let n := if -1000 ≤ o ∧ o ≤ 1000 then min 16 (d.ptpGood + 1) else 0
        ends { d with offset := BitVec.ofInt 64 o, corr := -o, slewRem := 0, ptpGood := n, locked := n == 16,
                      ptpT1 := none, ptpT2 := none, ptpT3 := none }))) ∧
  (∀ (s : State) (v : W64), s.dev.answering = true →
    let at_ := fun (u : W64) => w64 (u.toNat / 64 * 64)
    (v.getLsbD 2 = false → let s1 := { s with dev := { s.dev with fwaddr := at_ (v ||| 2) } }
      let pa := (at_ (v ||| 2)).toNat
      let img := physBytes s1 pa s.dev.fwlen.toNat
      let ok := physOk s1 pa s.dev.fwlen.toNat && fwOk s1.dev img
      exec (.fwgo 0 v) s = .next { s1 with dev := { s1.dev with
        fwok := ok, staged := if ok then some img else none } }) ∧
    (v.getLsbD 1 = false → exec (.fwcommit 0 v) s = .next { s with dev := { s.dev with
      fwaddr := at_ (v ||| 4), svnMin := max s.dev.svnMin (svnOf (fwOf s.dev)) } }) ∧
    (s.dev.att = none →
      (let s1 := { s with dev := { s.dev with raddr := at_ (v ||| 1) } }
       let pa := (at_ (v ||| 1)).toNat
       exec (.ago 0 v) s = .next { s1 with dev := { s1.dev with
         att := some (.report (if physOk s1 pa 48 then physBytes s1 pa 48 else [])) } }) ∧
      exec (.cgo 0 v) s = .next { s with dev := { s.dev with
        raddr := at_ ((v ||| 4) &&& ~~~1), att := some .chain } })) ∧
  (∀ (s : State), let pa := s.dev.raddr.toNat
    (s.dev.att = none → exec .attestationComplete s = .next s) ∧
    (∀ nonce, s.dev.att = some (.report nonce) →
      (nonce.length = 48 → physOk s pa 352 = true → exec .attestationComplete s = .next
        (modDev (freshNext (engineWrite s pa (report s nonce)).1) (fun d => { d with
          att := none, aerr := if s.dev.roster.isSome then 0 else 2 }))) ∧
      (nonce.length ≠ 48 ∨ physOk s pa 352 = false → exec .attestationComplete s = .next { s with dev := { s.dev with
        att := none, aerr := 1 } })) ∧
    (s.dev.att = some .chain → let c := Config.certChain.take 4096
      (physOk s pa c.length = true → exec .attestationComplete s = .next
        (modDev (engineWrite s pa c).1 (fun d => { d with att := none, aerr := 0, clen := c.length }))) ∧
      (physOk s pa c.length = false → exec .attestationComplete s = .next { s with dev := { s.dev with
        att := none, aerr := 1 } }))) ∧
  (∀ (s : State) (v : W64), s.dev.answering = true → s.dev.bootOk = true → let u := (v ||| 1).toNat
    let d1 := { s.dev with rostaddr := w64 (u / 4096 * 4096), rcount := bits u 11 3 }
    let n := min 256 d1.rcount
    let raw := physBytes { s with dev := d1 } d1.rostaddr.toNat (128 * n)
    let es := rosterOf n raw
    (rosterErr d1 es = 0 → exec (.rload 0 v) s = .next { s with dev := { d1 with rerr := 0, roster := some es, rosterRaw := raw } }) ∧
    (rosterErr d1 es ≠ 0 → exec (.rload 0 v) s = .next { s with dev := { d1 with rerr := rosterErr d1 es } })) ∧
  (∀ (s : State) (msg bset : List Byte), let dev := (msg.getD 96 0).toNat
    s.dev.domsize ≠ 0 → dev ≠ s.dev.devnum.toNat →
    let good := ∃ r e, s.dev.roster = some r ∧ r.find? (fun e => e.dev == dev) = some e ∧ msg.length = 200 ∧
      ecdsaOk ((msg.drop 104).take 96) (msg.take 104) e.key = true ∧
      sha384 bset = (msg.drop 48).take 48 ∧ ∃ p ∈ podTexts s, sha384 p.image = msg.take 48
    (good → exec (.announcementReceive msg bset) s = .next { s with dev := keepSet s.dev (msg.take 48) bset }) ∧
    (¬good → exec (.announcementReceive msg bset) s = .next { s with dev := { s.dev with adrop := satInc s.dev.adrop } })) ∧
  (∀ (s : State) (image : Nat), s.dev.domsize ≠ 0 →
    ((podTexts s)[image]? = none → exec (.bindingSetAnnounce image) s = .next s) ∧
    (∀ p, (podTexts s)[image]? = some p → let h := sha384 p.image
      let b := Config.bindingSet p.image
      (∀ e ∈ s.dev.bindings, e.1 ≠ h) → exec (.bindingSetAnnounce image) s = .next { s with
        fresh := s.fresh + 1, dev := { s.dev with
          bindings := s.dev.bindings ++ [(h, b)], announced := s.dev.announced ++ [announcement s h b] } })))

/-- R382 to R388, R392, R393, R398, R400: a change of point settles after its time; a thermal sample throttles a rope at 95 °C and
releases it below 92 °C once it has dwelt; an interval of the estimator gates at most one way or re-enables four; a period's draw
marks its sample, whose record is written when its word is complete; the scrubber records what it finds. That the next thermal sample
and the next interval are counted from the last one taken is the DEDUCED choice of log entry 15. -/
def Obligations.SensorsAndSamplesAct : Prop :=
  (∀ (s : State) (rope t : Nat), (ropeOf s rope).settleEnd = some t →
    (t ≤ s.now → exec (.operatingPointSettled rope) s = .next
      (modRope s rope (fun r => { r with settleEnd := none, oldPoint := r.point }))) ∧
    (s.now < t → exec (.operatingPointSettled rope) s = .next s)) ∧
  (∀ (s : State) (rope : Nat) (tj : BitVec 16), rope < Config.ropes → let r := ropeOf s rope
    r.nextSample ≤ s.now →
    let s1 := modRope s rope (fun r => { r with tj := tj, nextSample := s.now + 1000 })
    let dwelt := ∀ t, r.dwellFrom = some t → t + 2000000 ≤ s.now
    (r.throttled = false → 95 * 8 ≤ tj.toInt → dwelt → exec (.thermalSample rope tj) s = .next (repoint
      (modRope s1 rope (fun r => { r with throttled := true, dwellFrom := some s.now, entries := satInc r.entries })) rope)) ∧
    (r.throttled = true → tj.toInt < 92 * 8 → dwelt → exec (.thermalSample rope tj) s = .next (repoint
      (modRope s1 rope (fun r => { r with throttled := false, dwellFrom := some s.now })) rope)) ∧
    (¬dwelt ∨ (r.throttled = false ∧ tj.toInt < 95 * 8) ∨ (r.throttled = true ∧ 92 * 8 ≤ tj.toInt) →
      exec (.thermalSample rope tj) s = .next s1)) ∧
  (∀ (s : State) (slice : Nat) (gate missHigh : Bool), slice < Config.slices → let g := sliceOf s slice
    let least := max 4 g.minways
    let ways := fun (n : Nat) => exec (.wayGatingInterval slice gate missHigh) s = .next
      (modSlice s slice (fun x => { x with ways := n, nextInt := s.now + 1000000 }))
    g.nextInt ≤ s.now →
    (g.nogate = true → ways 16) ∧
    (g.nogate = false → missHigh = true ∨ g.ways < least → ways (min 16 (g.ways + 4))) ∧
    (g.nogate = false → missHigh = false → least < g.ways → gate = true → ways (g.ways - 1)) ∧
    (g.nogate = false → missHigh = false → least ≤ g.ways → gate = false ∨ least = g.ways → ways g.ways)) ∧
  (∀ (s : State) (core ctx : Nat), let p := (ctxOf s ctx).speriod
    p ≠ 0 → (∀ x ∈ s.picks, x.core = core → x.ctx = ctx → x.pEnd ≤ s.now) →
    exec (.cairnSamplePick core ctx) s = .next { s with
      picks := s.picks.filter (fun x => !(x.core == core && x.ctx == ctx && x.wid.isNone)) ++
        [⟨core, ctx, (s.now / p + 1) * p, 0, none, [], true, 0⟩] }) ∧
  (∀ (s : State) (i : Nat) (p : Pick) (wid : Nat) (lat : List (BitVec 16)) (level : BitVec 4),
    s.picks[i]? = some p → p.wid = some wid → sampleDone s p wid = true →
    let used : List Pick := if s.now < p.pEnd then [⟨p.core, p.ctx, p.pEnd, 0, none, [], false, 0⟩] else []
    exec (.cairnRecordWrite i lat level) s = .next
      (samplePush { s with picks := s.picks.eraseIdx i ++ used } p.ctx (sampleWords p.words lat
        (if (p.level = 4 ∨ p.level = 5) ∧ level = 6 then 6 else p.level)))) ∧
  (∀ (s : State) (pa : Nat), isDevMem s pa = true →
    exec (.patrolScrub pa 1) s = .next (errPush s pa 1 1 0x7F) ∧
    (spillBlock s (canonPa s pa) = none →
      (unitOf (canonPa s pa) ∈ s.poison → exec (.patrolScrub pa 2) s = .next (errPush s pa 1 2 0x7F)) ∧
      (unitOf (canonPa s pa) ∉ s.poison → exec (.patrolScrub pa 2) s = .next
        (errPush { s with poison := unitOf (canonPa s pa) :: s.poison } pa 1 2 0x7F))) ∧
    (∀ k b, spillBlock s (canonPa s pa) = some (k, b) →
      exec (.patrolScrub pa 2) s = .next (errPush (spillError s k b) pa 1 2 0x7F)))

/-! Base Camp and the registers (R214, R363 to R374, R402). -/

/-- R364 to R372, R374: the owner's function starts a stopped episode, resets a running or truncated one and writes a
stopped one's windows; APOP pops the head action and starts the step's time, OSEND sends the observation when the
queue has room and the hart's writes are performed; the step's deadline truncates the episode and queues its
observation when there is room. R363, R366, R374, R402: TKVAL claims its ticket or gives the result that R374 names,
and a claimed fetch's bytes are written, then reported once performed; a hart that runs takes its interrupt, or
fetches and executes its instruction, or takes the fault's trap; an ECALL of S-mode that is not delegated is an exception
into M-mode (PRESUMED, log entry 20); a function's write reaches a register through its
BARs only. -/
def Obligations.BaseCampAndRegistersAct : Prop :=
  ((∀ (s : State) (fn e : Nat) (v : W64), e < Config.episodes → s.dev.answering = true → s.dev.bootOk = true →
    (epOf s e).bound = true → ownerFn s (epOf s e).owner = fn → fn ≠ 0 →
    ((epOf s e).estate = 0 → exec (.start fn e v) s = .next
      (startEp (modEp s e (fun x => { x with lagen := (v ||| 0x100).getLsbD 12 })) e)) ∧
    ((epOf s e).estate = 1 ∨ (epOf s e).estate = 2 → (epOf s e).redeems = [] → exec (.reset fn e v) s = .next
      (finishReset (modEp s e (fun x => { x with lagen := (v ||| 0x200).getLsbD 12 })) e ⟨1, 0, 4, 0, List.replicate 240 0⟩)) ∧
    (∀ word, 8 ≤ word → word < 24 → (epOf s e).estate = 0 →
      let w := windowOf (epOf s e) ((word - 8) / 2)
      let w1 : Window := if word % 2 = 0 then
          { w with base := bits v.toNat 51 12, x := v.getLsbD 3, w := v.getLsbD 2, rd := v.getLsbD 1, v := v.getLsbD 0 }
        else { w with limit := bits v.toNat 51 12 }
      (w1.v = false ∨ windowBad s e w1 = false → exec (.windowWrite fn e word v) s = .next
        (modEp s e (fun x => { x with windows := tset {} x.windows ((word - 8) / 2) w1 }))) ∧
      (w1.v = true → windowBad s e w1 = true → exec (.windowWrite fn e word v) s = .next
        (modEp s e (fun x => { x with windows := tset {} x.windows ((word - 8) / 2) { w with v := false }, werr := true }))))) ∧
  (∀ (s : State) (e : Nat), hartRuns s e = true → let x := epOf s e
    (x.actions = [] → exec (.apop e) s = .next s) ∧
    (∀ m rest, x.actions = m :: rest → exec (.apop e) s = .next (hartAcquire (modEp s e (fun x => { x with
      actions := rest, actbuf := (msgBytes m).zipIdx.foldl (fun t b => tset 0 t b.2 b.1) [], aver := m.ver, steps := satInc x.steps
      startver := if x.svv then x.startver else m.ver, svv := true
      timer := if x.deadline = 0 then x.timer else some (s.now + x.deadline.toNat) })) e)) ∧
    (x.hart.lastT ≤ s.now → x.obs.length < 16 → exec (.osend e) s = .next (modEp s e (fun x => { x with
      obs := x.obs ++ [⟨w64 x.obsSeq, x.aver, if x.fault then 2 else 0, min 240 (obsLen x),
        (upto 240).map (fun i => tgetD x.obsbuf (16 + i) 0)⟩]
      obsSeq := x.obsSeq + 1, timer := none, svv := x.svv && !x.done, fault := false, done := false }))) ∧
    (s.now < x.hart.lastT ∨ 16 ≤ x.obs.length → exec (.osend e) s = .next s)) ∧
  (∀ (s : State) (e : Nat), let x := epOf s e
    (∀ t, x.estate = 1 → x.timer = some t → t ≤ s.now → exec (.episodeWatchdogFire e) s = .next (modEp s e (fun x => { x with
      estate := 2, timer := none, timeouts := satInc x.timeouts, timeoutDue := true }))) ∧
    (x.estate ≠ 1 ∨ x.timer = none ∨ (∃ t, x.timer = some t ∧ s.now < t) → exec (.episodeWatchdogFire e) s = .next s) ∧
    (x.timeoutDue = true → x.obs.length < 16 → exec (.timeoutObservationEnqueue e) s = .next (modEp s e (fun x => { x with
      obs := x.obs ++ [⟨w64 x.obsSeq, x.aver, 1, 0, List.replicate 240 0⟩], obsSeq := x.obsSeq + 1, timeoutDue := false }))) ∧
    (x.timeoutDue = false ∨ 16 ≤ x.obs.length → exec (.timeoutObservationEnqueue e) s = .next s))) ∧
  ((∀ (s : State) (e : Nat) (t : W64), hartRuns s e = true → let x := epOf s e
    let st := claimState s x.owner t
    let en := ticketAt s (tkSlice t) (tkIndex t)
    let wr := fun (y : Ticket) => putTicket s (tkSlice t) (tkIndex t) y
    let good := inWindow x x.tkdst.toNat en.size (·.w) = true
    let r : Redeem := { ticket := t, dst := x.tkdst.toNat, code := sizeCode en.size }
    let is := fun (u : State) => exec (.tkval e t) s = .next u
    (x.busy = true → is s) ∧
    (x.busy = false → 3 ≤ st → is (modEp s e (fun x => { x with result := st - 2 }))) ∧
    (x.busy = false → st < 3 → x.tkdst.toNat % 64 ≠ 0 ∨ (st < 2 ∧ ¬good) → is (modEp s e (fun x => { x with result := 7 }))) ∧
    (x.busy = false → st = 2 → x.tkdst.toNat % 64 = 0 → is (modEp (wr (moveOn en false)) e (fun x => { x with result := 4, fcause := en.cause }))) ∧
    (x.busy = false → st = 1 → x.tkdst.toNat % 64 = 0 → good → is (modEp (wr (moveOn en false)) e (fun x => { x with
      busy := true, redeems := x.redeems ++ [{ r with data := some (tkData en), pois := en.pois }] }))) ∧
    (x.busy = false → st = 0 → x.tkdst.toNat % 64 = 0 → good → is (modEp (wr { en with claim := some (.port e) }) e (fun x => { x with
      busy := true, redeems := x.redeems ++ [r] })))) ∧
  (∀ (s : State) (e : Nat) (r : Redeem) (rest : List Redeem), (epOf s e).redeems = r :: rest →
    (r.data = none → exec (.portRedeemComplete e) s = .next s) ∧
    (∀ d, r.data = some d → r.tDone = none → exec (.portRedeemComplete e) s = .next (modEp (redeemWrite s r d).1 e (fun x =>
      { x with redeems := { r with tDone := some (redeemWrite s r d).2 } :: rest,
               tksize := if r.discard || x.restart.isSome then x.tksize else r.code }))) ∧
    (∀ d t, r.data = some d → r.tDone = some t → s.now < t → exec (.portRedeemComplete e) s = .next s) ∧
    (∀ d t, r.data = some d → r.tDone = some t → t ≤ s.now → r.discard = false → (epOf s e).restart = none →
      exec (.portRedeemComplete e) s = .next (modEp s e (fun x => { x with
        redeems := rest, result := 0, busy := false })))) ∧
  (∀ (s : State) (e : Nat), let x := epOf s e
    let s1 := modHart s e (fun h => { h with wfi := false })
    (hartRuns s e = false ∨ (x.hart.wfi = true ∧ rvPend x = 0) → exec (.hartInstruction e) s = .next s) ∧
    (hartRuns s e = true → (x.hart.wfi = true → rvPend x ≠ 0) →
      (∀ c, rvTake x = some c → exec (.hartInstruction e) s = .next (rvTrap s1 e true c 0)) ∧
      (rvTake x = none →
        (∀ c v, rvFetch s1 e = .error (c, v) → exec (.hartInstruction e) s = .next (rvTrap s1 e false c v)) ∧
        (∀ raw n, rvFetch s1 e = .ok (raw, n) → let pc := (hartOf s1 e).pc
          (n = 2 → rvExpand raw = none → exec (.hartInstruction e) s = .next (rvTrap s1 e false 2 (w64 raw))) ∧
          (∀ w, (n = 2 → rvExpand raw = some w) → (n ≠ 2 → w = raw) →
            (∀ t npc, rvExec s1 e ⟨w, raw, pc, pc + BitVec.ofNat 64 n⟩ = .done t npc → exec (.hartInstruction e) s = .next
              (modHart t e (fun h => { h with pc := npc, instret := h.instret + 1 }))) ∧
            (∀ t c v, rvExec s1 e ⟨w, raw, pc, pc + BitVec.ofNat 64 n⟩ = .trap t c v →
              exec (.hartInstruction e) s = .next (rvTrap t e false c v)) ∧
            (rvExec s1 e ⟨w, raw, pc, pc + BitVec.ofNat 64 n⟩ = .wait → exec (.hartInstruction e) s = .next s1) ∧
            (∀ t, rvExec s1 e ⟨w, raw, pc, pc + BitVec.ofNat 64 n⟩ = .hold t → exec (.hartInstruction e) s = .next t)))))) ∧
  (∀ (s : State) (e : Nat) (i : RvI), i.w = 0x73 → rvExec s e i = .trap s (8 + (hartOf s e).priv) 0) ∧
  (∀ (s : State) (e : Nat) (v : W64), (hartOf s e).priv = 1 → bit (mCsr (hartOf s e) 0x302) 9 = false → let t := rvTrap s e false 9 v
    (hartOf t e).priv = 3 ∧ mCsr (hartOf t e) 0x341 = (hartOf s e).pc.toNat ∧ mCsr (hartOf t e) 0x342 = 9) ∧
  (∀ (s : State) (fn pa size : Nat) (v : W64),
    (barReach s fn pa = false → exec (.registerWrite fn pa size v) s = .next s) ∧
    (barReach s fn pa = true → regAt pa = none → exec (.registerWrite fn pa size v) s = .next s) ∧
    (∀ id, barReach s fn pa = true → regAt pa = some id → size = 8 → pa % 8 = 0 →
      exec (.registerWrite fn pa size v) s = .next (regWrite s ⟨fn, false⟩ id v.toNat))))

/-! Whole-machine rules: what comes before a word, what an ending leaves alone, a step, encodings, memory, reset. -/

/-- R68, R69: of the checks before a word's own conditions the first that applies decides: its place in the clause, its reserved
fields, a handler's word outside a handler, then, for a word that its guard executes, the bounds of its symbols, empty
sources, poisoned sources; a wave-level word whose guard fails completes with no effect. A cell that is assigned to no
instruction traps with unimplemented opcode. That a lane-level word with no live lane meets the bound check, since its guard leaves out
lanes and not the word, is the DESIGN CHOICE of log entry 53. -/
def Obligations.ChecksComeInOrder : Prop :=
  (∀ w v m n x, ∀ f ∈ allWords w v m n x, ∀ (k : IC) (s : State), Offered f.sp k s →
    let cut := f.sp.last = true ∧ k.x.idx + f.sp.u.words < hdrCount k.x.hdrW
    let clear := ¬cut ∧ f.sp.ok k.w.width = true ∧ (f.sp.hOnly = true → k.b.handler = true)
    let runs := clear ∧ (f.sp.lanes = true ∨ guardWave k.w k.x.mask f.sp.u.g = true)
    let bounds := boundTrap s k.b k.x (wordOps f.sp k)
    let empty := emptyCheck k.b k.wid k.w k.x f.sp.mat (usedOps f.sp k (wordOps f.sp k))
    (cut → exec f.i s = .next (trapsWith f.sp k s { cause := 3, sub := 5 })) ∧
    (¬cut → f.sp.ok k.w.width = false → exec f.i s = .next (trapsWith f.sp k s { cause := 2, sub := 0 })) ∧
    (¬cut → f.sp.ok k.w.width = true → f.sp.hOnly = true → k.b.handler = false →
      exec f.i s = .next (trapsWith f.sp k s { cause := 7, sub := 8 })) ∧
    (clear → f.sp.lanes = false → guardWave k.w k.x.mask f.sp.u.g = false → ∃ t, exec f.i s = .next t ∧
      Completed s t k f.sp.u.words k.w) ∧
    (runs → ∀ t, bounds = some t → exec f.i s = .next (trapsWith f.sp k s t)) ∧
    (runs → bounds = none → empty = .waits → exec f.i s = .next (waitsAt f.sp k s)) ∧
    (runs → bounds = none → ∀ t, empty = .traps t → exec f.i s = .next (trapsWith f.sp k s t)) ∧
    (runs → bounds = none → empty = .full → ∀ p, poisonRead k.b k.w k.x (usedOps f.sp k (wordOps f.sp k)) = some p →
      exec f.i s = .next (trapsWith f.sp k s { cause := 0x14, sub := p.sub, addr := p.addr,
                                               orig := if p.sub = 1 then some p.orig else none }))) ∧
  (∀ (cls : BitVec 3) (w1 w2 : W32) (k : IC) (s : State),
    let sp : WSpec := { u := { ucw (cwOf w1) with two := isTwo w1, g := 0 }, ok := fun _ => true }
    Offered sp k s →
    exec (.unimplementedOpcode cls w1 w2) s = .next (trapsWith sp k s { cause := 1, sub := 0 }))

/-- R60, R230: a header inside a kernel's guard traps with fall-off, subcode 1, before any check of R60; a header with another mark, of
class 7, of count 0, or whose last counted word is the first of a two-word instruction traps with clause format before any word of the
clause issues. Any other header's clause begins once its wait mask is clear (R58) and no seam stops its block (R251), whether or not
the word was written as a header; at a header that a step has reached its wave halts, and a misaligned header traps (R327). That the
fall-off's record holds the guard's own word, where it can be fetched, and that a clause whose last counted word cannot be fetched
counts as not cut off are the DESIGN CHOICE of log entry 53. -/
def Obligations.HeadersAreChecked : Prop :=
  ∀ (s : State) (c : Cursor) (w : Wave) (b : Block), s.cur = some c → tget s.waves c.wid = some w → blockOf s w = some b →
    waveRuns s c.wid w b = true → let x := slotOf w c.slotB
    slotRuns x = true → x.inClause = false → canonical x.pc = true → x.pc < 2 ^ 64 →
    (inGuard b.var x.pc = true →
      let falls := fun (t : State) (h : W32) => exec .clauseIssue s = .next
        (raise t c.wid c.slotB { hdrSite x h with live := x.mask } { cause := 0x0E, sub := 1, addr := x.pc })
      (x.pc % 4 = 0 → ∀ s1 h, fetchWord s b.core w.ctx x x.pc = .got s1 h → falls s1 h) ∧
      (x.pc % 4 ≠ 0 ∨ (∃ cause sub, fetchWord s b.core w.ctx x x.pc = .bad cause sub) → falls s 0)) ∧
    (inGuard b.var x.pc = false → x.pc % 4 ≠ 0 → exec .clauseIssue s = .next (raise s c.wid c.slotB
      { hdrSite x 0 with live := x.mask } { cause := 3, sub := 1 })) ∧
    (inGuard b.var x.pc = false → x.pc % 4 = 0 → ∀ s1 h, fetchWord s b.core w.ctx x x.pc = .got s1 h →
      let traps := fun (t : State) (sub : Nat) => exec .clauseIssue s = .next
        (raise t c.wid c.slotB { hdrSite x h with live := x.mask } { cause := 3, sub := sub })
      let mark := h.extractLsb' 30 2
      let cls := h.extractLsb' 4 3
      let count := (h.extractLsb' 0 4).toNat
      let r := fetchMany s1 b.core w.ctx x count (x.pc + 4)
      (mark ≠ 3 → traps s1 1) ∧
      (mark = 3 → cls = 7 → traps s1 2) ∧
      (mark = 3 → cls ≠ 7 → count = 0 → traps s1 3) ∧
      (mark = 3 → cls ≠ 7 → count ≠ 0 → r.2.2 = true → cutOff r.2.1 = true → traps r.1 4) ∧
      (mark = 3 → cls ≠ 7 → count ≠ 0 → r.2.2 = true → cutOff r.2.1 = false →
        (stopsHere b h = true ∨ maskClear w h = false → exec .clauseIssue s = .next r.1) ∧
        (stopsHere b h = false → maskClear w h = true →
          (w.stepping ≠ 0 → stepPasses w.stepping c.slotB = false →
            exec .clauseIssue s = .next (stepHalt r.1 c.wid b.core c.slotB)) ∧
          (w.stepping = 0 ∨ stepPasses w.stepping c.slotB = true → exec .clauseIssue s = .next
            (modWave r.1 c.wid (fun v => { modSlot v c.slotB (fun x => { x with
              inClause := true, hdr := x.pc, hdrW := h, idx := 0, words := r.2.1, phase := 0, walked := [] }) with
              stepping := if w.stepping = 0 then 0 else w.stepping - (if c.slotB then 4 else 2) }))))))

/-- R58, R104, R229, R257: beyond its effects an ending word changes its slot's place and the marks of issuing only; a word that
waits is marked and nothing else changes; a trap that a handler awaits, the context not replaying translation faults, reads the counter and
changes its own wave only, which keeps its symbols, its other slot and its counters. -/
def Obligations.EndingsChangeThePlaceOnly : Prop :=
  ∀ (sp : WSpec) (k : IC) (s : State) (r : Wave), tget s.waves k.wid = some r →
    Completed s (completes sp k s) k sp.u.words r ∧
    Completed s (completesYielding sp k s) k sp.u.words r ∧
    (∀ pc, Jumped s (jumpsTo sp k s pc) k pc r) ∧
    Placed s (setsSlot sp k s) k r ∧
    waitsAt sp k s = setWave s k.wid (modSlot r k.slotB (fun x => { x with stuck := true })) ∧
    (∀ t b, let s1 := issued s k.wid k.core
      blockOf s r = some b → r.parent = none → handlerOf s1 r.ctx r.width ≠ none → (ctxOf s r.ctx).replay = false →
      let u := trapsWith sp k s t
      SameMachine { s with readMax := max s.readMax (waveClock s1 r b.core) } u ∧ SameUnits s u ∧
      (∀ i, i ≠ k.wid → tget u.waves i = tget s.waves i) ∧ ∃ w', tget u.waves k.wid = some w' ∧ (slotOf w' k.slotB).park = .trapped ∧
        slotOf w' (!k.slotB) = unstick (slotOf r (!k.slotB)) ∧ w'.trap.isSome = true ∧
        w'.sc = r.sc ∧ w'.ve = r.ve ∧ w'.preds = r.preds ∧ w'.cnt = r.cnt ∧ w'.empty = r.empty ∧ w'.scale = r.scale)

/-- R98, R99: at .i64 the scalar mould's functions are those of 64-bit words, division by 0 giving all ones and its remainder the
dividend; at .n32 sums, differences and products are taken modulo 2^32, or clamped under .sat. -/
def Obligations.ScalarArithmeticIsExact : Prop :=
  (∀ x y : W64, let r := fun f => scResult f 7 false x.toNat y.toNat
    r .add = x + y ∧ r .sub = x - y ∧ r .mul = x * y ∧
    r .mulhi = ((x.signExtend 128 * y.signExtend 128) >>> 64).setWidth 64 ∧
    r .div = (if y = 0 then BitVec.allOnes 64 else x.sdiv y) ∧ r .rem = (if y = 0 then x else x.srem y) ∧
    r .and = x &&& y ∧ r .or = x ||| y ∧ r .xor = x ^^^ y ∧
    r .shl = x <<< (y.toNat % 64) ∧ r .shr = x >>> (y.toNat % 64) ∧ r .sra = x.sshiftRight (y.toNat % 64) ∧
    r .min = (if x.sle y then x else y) ∧ r .max = (if y.sle x then x else y)) ∧
  (∀ x y : W32, let r := fun f sat => scResult f 6 sat x.toNat y.toNat
    r .add false = (x + y).setWidth 64 ∧ r .sub false = (x - y).setWidth 64 ∧ r .mul false = (x * y).setWidth 64 ∧
    r .add true = w64 (min (x.toNat + y.toNat) (2 ^ 32 - 1)) ∧ r .sub true = w64 (x.toNat - y.toNat) ∧
    r .mul true = w64 (min (x.toNat * y.toNat) (2 ^ 32 - 1)))

/-- R96, as it stands: conditions 0 to 9 test the codes, 16 to 19 a predicate within the slot's MASK, which BR alone accepts; every
other value traps with reserved field. -/
def Obligations.ConditionsAreTested : Prop :=
  (∀ c : Ctl, condCodes 0 c = c.z ∧ condCodes 1 c = !c.z ∧ condCodes 2 c = xor c.n c.v ∧ condCodes 3 c = !(xor c.n c.v) ∧
    condCodes 4 c = !c.c ∧ condCodes 5 c = c.c ∧ condCodes 6 c = (!c.z && !(xor c.n c.v)) ∧
    condCodes 7 c = (c.z || xor c.n c.v) ∧ condCodes 8 c = (c.c && !c.z) ∧ condCodes 9 c = (!c.c || c.z)) ∧
  (∀ (w : Wave) (x : Slot) (p : Nat),
    (∀ code, code ≤ 9 → condBr w x code p = condCodes code x.ctl) ∧
    (condBr w x 16 p = true ↔ ∃ i, (prGet w p).getLsbD i = true ∧ x.mask.getLsbD i = true) ∧
    (condBr w x 17 p = true ↔ ∀ i, x.mask.getLsbD i = true → (prGet w p).getLsbD i = false) ∧
    (condBr w x 18 p = true ↔ ∀ i, x.mask.getLsbD i = true → (prGet w p).getLsbD i = true) ∧
    (condBr w x 19 p = true ↔ ∃ i, x.mask.getLsbD i = true ∧ (prGet w p).getLsbD i = false)) ∧
  (∀ w v x, ∀ f ∈ brForms w v x, ∀ (k : IC) (s : State), Offered f.sp k s → hdrCount k.x.hdrW ≤ k.x.idx + f.sp.u.words →
    ¬(f.sp.u.d ≤ 9 ∨ (16 ≤ f.sp.u.d ∧ f.sp.u.d ≤ 19)) → exec f.i s = .next (trapsWith f.sp k s { cause := 2, sub := 0 })) ∧
  (∀ w v m x, ∀ f ∈ (scalarMoveWords w v m x).map (·.1), f.i = .ssel w ∨ f.i = .sselLong w m → ∀ (k : IC) (s : State),
    Offered f.sp k s → 9 < f.sp.u.card → exec f.i s = .next (trapsWith f.sp k s { cause := 2, sub := 0 }))

/-- R73, as it stands: E2M1's sixteen codes have these values, here as FP32, and convert to them exactly; two elements lie in a
byte, the one of lower index in bits [3:0]. -/
def Obligations.E2m1HasSixteenValues : Prop :=
  (∀ p ∈ [(0x0, 0x00000000), (0x1, 0x3F000000), (0x2, 0x3F800000), (0x3, 0x3FC00000), (0x4, 0x40000000), (0x5, 0x40400000),
      (0x6, 0x40800000), (0x7, 0x40C00000), (0x8, 0x80000000), (0x9, 0xBF000000), (0xA, 0xBF800000), (0xB, 0xBFC00000),
      (0xC, 0xC0000000), (0xD, 0xC0400000), (0xE, 0xC0800000), (0xF, 0xC0C00000)],
    fConv e2m1 f32 0 false false 0 p.1 = (p.2, {}) ∧ (fConv f32 e2m1 0 false false 0 p.2) = (p.1, {})) ∧
  (∀ x j, elem (tyWidth 15) (2 * j) x = (x >>> (8 * j)) % 16 ∧ elem (tyWidth 15) (2 * j + 1) x = (x >>> (8 * j)) % 256 / 16) ∧
  (∀ (b : Block) (buf off n j : Nat), 2 * j + 1 < n → n % 2 = 0 →
    (readEls b buf off 15 n).getD (2 * j) 0 = (bufGet b buf (off + j)).toNat % 16 ∧
    (readEls b buf off 15 n).getD (2 * j + 1) 0 = (bufGet b buf (off + j)).toNat / 16)

/-- R58, R62, R104, R257: a step whose agenda offers a slot runs the instruction that the slot's words decode to in its clause's class,
or the header at which the slot stands; a step for another agent runs that agent's instruction; with nothing due nothing changes. The
agenda, that an empty one leaves the state, and that an outranked offer is used up are the DESIGN CHOICE of log entry 4; that a slot
whose LDT has no entry yet waits is the DEDUCED choice of log entry 22. -/
def Obligations.StepRunsTheDecodedWord : Prop :=
  (∀ (s : State) (wid : Nat) (slotB : Bool) (rest : List Todo), s.agenda = .issue wid slotB :: rest →
    let s1 := { settleDue { s with agenda := rest } with cur := some ⟨wid, slotB⟩ }
    ∀ w b, tget s1.waves wid = some w → blockOf s1 w = some b →
    (outranked s1 wid b = true → step s = .next s1) ∧
    (outranked s1 wid b = false → ∀ s2, brokenPark s1 wid slotB = some s2 → waveRuns s1 wid w b = true → step s = .next s2) ∧
    (outranked s1 wid b = false → brokenPark s1 wid slotB = none → let x := slotOf w slotB
    (seamHeld b x = true ∨ ldtHeld s1 x = true → step s = .next s1) ∧
    (seamHeld b x = false → ldtHeld s1 x = false → x.inClause = true → ∀ w1, x.words[x.idx]? = some (.ok w1) →
      (isTwo w1 = false → step s = exec (decodeWords (hdrClass x.hdrW) w1 0) s1) ∧
      (∀ w2, isTwo w1 = true → x.words[x.idx + 1]? = some (.ok w2) →
        step s = exec (decodeWords (hdrClass x.hdrW) w1 w2) s1)) ∧
    (ldtHeld s1 x = false → x.inClause = false → step s = exec .clauseIssue s1))) ∧
  (∀ (s : State) (i : Instr) (rest : List Todo), s.agenda = .event i :: rest →
    step s = exec i { settleDue { s with agenda := rest } with cur := none }) ∧
  (∀ (s : State) (n : Nat) (rest : List Todo), s.agenda = .tick n :: rest →
    step s = .next (tick (settleDue { s with agenda := rest }) n)) ∧
  (∀ s : State, s.agenda = [] → step s = .next s)

/-- R62, R63, R67, R68: every instruction word, assigned or not, at every value of its fields decodes from its encoding; every one
or two words in a class decode to a well-formed instruction that encodes to them again. -/
def Obligations.EncodingsAndInstructionsAgree : Prop :=
  (∀ i e, WellFormed i → encode i = some e → decodeWords e.cls e.w1 (e.w2.getD 0) = i ∧ e.w2.isSome = isTwo e.w1 ∧
    ∀ rest, (decode e.cls (e.bytes ++ rest)).toOption = some (i, rest)) ∧
  (∀ (cls : BitVec 3) (w1 w2 : W32), cls ≠ 7 → (isTwo w1 = false → w2 = 0) →
    WellFormed (decodeWords cls w1 w2) ∧
    encode (decodeWords cls w1 w2) = some ⟨cls, w1, if isTwo w1 then some w2 else none⟩)

/-- R62, R63, R67: words that the spec writes out decode to the instructions beside them. -/
def Obligations.WordsDecodeAsTheSpecWritesThem : Prop :=
  decodeWords 1 0x78101850 0 = .vfmul ⟨4, 3, 5, 0⟩ ∧
  decodeWords 1 0x7E2048AA 0x16A02000 = .vfma ⟨8, 9, 10, 10⟩ ⟨11, 10, 0, 0, 2, 0, 0⟩ ∧
  decodeWords 3 0x02181000 0x01470018 = .ldLong ⟨6, 2, 0, 0⟩ ⟨0, 5, 0, 3, 1, 0, 24⟩ ∧
  decodeWords 0 0x080C1864 0 = .saddi ⟨3, 3, 100⟩ ∧
  decodeWords 0 0x0A0C1800 0x00001388 = .saddiLong ⟨3, 3, 0, 0⟩ ⟨0, 5000⟩ ∧
  decodeWords 0 0xB8000000 0 = .endW ⟨0, 0, 0, 0⟩

/-- R2, R350, R365, R384, R386, R388, R391, R403: after reset memory lists nothing and is canonical, no context is in use and its
record stands at its Reset column, ropes run at point 2 under their reset allowance, slices have their sixteen ways, episodes
are stopped. That memory reads 0 is the DESIGN CHOICE of log entry 2, and that the model begins in the verified state
with no wave and no block those of log entries 1 and 3. -/
def Obligations.ResetLeavesTheResetValues : Prop :=
  Memory.wf State.reset.mem = true ∧ (∀ a, tgetD State.reset.mem a 0 = 0) ∧ State.reset.waves = [] ∧ State.reset.blocks = [] ∧
  (∀ c, let x := ctxOf State.reset c
    x.st = 0 ∧ x.en = false ∧ x.tlease = 262144 ∧ x.dlease = 2048 ∧ x.extms = 60000 ∧ x.dlms = 2000 ∧ x.tkent = 4096 ∧
    x.tkkib = 256 ∧ x.monq = 1024 ∧ x.weight = 1 ∧ x.maxv = 256 ∧ x.minv = 32 ∧ x.speriod = 0 ∧ x.policy = 0) ∧
  (∀ r, (ropeOf State.reset r).point = 2 ∧ (ropeOf State.reset r).allow = 9700 ∧ (ropeOf State.reset r).throttled = false) ∧
  (∀ g, (sliceOf State.reset g).ways = 16 ∧ (sliceOf State.reset g).minways = 4 ∧ (sliceOf State.reset g).nogate = false) ∧
  (∀ e, (epOf State.reset e).estate = 0 ∧ (epOf State.reset e).deadline = 4000000 ∧ (epOf State.reset e).lag = 2 ∧
    (epOf State.reset e).bound = false)

/-- R2, R297 (the canonical form is the model's, DESIGN CHOICE, log entry 2): every step from a state with canonical memory leaves memory
canonical. -/
def Obligations.StepsKeepMemoryCanonical : Prop :=
  ∀ s t : State, Memory.wf s.mem = true → step s = .next t → Memory.wf t.mem = true
end

