-- ==== Sys2Proof/Laws/Due.lean ====
section
/-! SUPPORT. What is due before an item of the agenda: dumps of steps and values owed to a log. -/

namespace Sys2Proof.Machine

/-- A dump touches its core's debug window alone. -/
theorem takeDump_frame (s : State) (core ctx : Nat) : ∃ cs, takeDump s core ctx = { s with cores := cs } := ⟨_, rfl⟩

theorem freshDumps_frame (s : State) : ∃ cs, freshDumps s = { s with cores := cs } := by
  unfold freshDumps
  have keeps : ∀ (l : List (Nat × Core)) (t : State), (∃ cs, t = { s with cores := cs }) →
      ∃ cs, l.foldl (fun t e => match e.2.dbg.fresh with
        | none => t
        | some ctx => takeDump (modDbg t e.1 (fun d => { d with fresh := none })) e.1 ctx) t = { s with cores := cs } := by
    intro l
    induction l with
    | nil => exact fun _ h => h
    | cons e l ih =>
      rintro t ⟨cs, rfl⟩
      refine ih _ ?_
      rcases h : e.2.dbg.fresh with _ | ctx
      · exact ⟨cs, by simp only [h]⟩
      · simp only [h]
        exact ⟨_, rfl⟩
  exact keeps s.cores s ⟨_, rfl⟩

/-- Nothing is due where no step has just halted a wave and no wave owes its log a value. -/
theorem freshDumps_none (s : State) (h : ∀ e ∈ s.cores, e.2.dbg.fresh = none) : freshDumps s = s := by
  unfold freshDumps
  suffices ∀ l : List (Nat × Core), (∀ e ∈ l, e.2.dbg.fresh = none) → l.foldl (fun t e => match e.2.dbg.fresh with
      | none => t
      | some ctx => takeDump (modDbg t e.1 (fun d => { d with fresh := none })) e.1 ctx) s = s from this _ h
  intro l hl
  induction l with
  | nil => rfl
  | cons e l ih =>
    rw [List.foldl_cons, hl e (List.mem_cons_self ..)]
    exact ih (fun x hx => hl x (List.mem_cons_of_mem _ hx))

theorem flushOwed_none (s : State) (h : ∀ e ∈ s.waves, e.2.owed = []) : flushOwed s = s := by
  have : s.waves.filter (fun e => !e.2.owed.isEmpty) = [] := List.filter_eq_nil_iff.2 (fun e he => by simp [h e he])
  simp [flushOwed, this]

theorem settleDue_none (s : State) (hc : ∀ e ∈ s.cores, e.2.dbg.fresh = none) (hw : ∀ e ∈ s.waves, e.2.owed = []) :
    settleDue s = s := by
  rw [settleDue, freshDumps_none s hc, flushOwed_none s hw]

/-- Waves of a core that no stop freezes are not held; nor are those of a context whose stop holds once its dump is dealt with. -/
theorem frozenFor_free (d : Dbg) (ctx : Nat) (h : d.frozen = false) : frozenFor d ctx = false := by simp [frozenFor, h]
theorem frozenFor_own (d : Dbg) (ctx : Nat) (h : d.stops = []) (g : d.dump = []) (c : d.stopCtx = some ctx) : frozenFor d ctx = false := by
  simp [frozenFor, h, g, c]

end Sys2Proof.Machine
end

