-- ==== Sys2Proof/Laws/Fetch.lean ====
section
/-! SUPPORT. Fetching and scanning fill instruction caches and change nothing else. -/

namespace Sys2Proof.Machine

/-- t differs from s in instruction caches, in the words on their way to cores, and in the counter of free values alone. -/
def FetchOnly (s t : State) : Prop := t = { s with icache := t.icache, fetches := t.fetches, fresh := t.fresh }

theorem FetchOnly.refl (s : State) : FetchOnly s s := rfl
theorem FetchOnly.trans {a b c : State} (h : FetchOnly a b) (g : FetchOnly b c) : FetchOnly a c := by
  unfold FetchOnly at *; rw [g, h]
theorem FetchOnly.waves {s t : State} (h : FetchOnly s t) : t.waves = s.waves := by
  unfold FetchOnly at h; rw [h]

theorem icachePut_only (s : State) (core pa : Nat) (w : W32) : FetchOnly s (icachePut s core pa w) := by
  unfold icachePut
  dsimp only
  split <;> rfl

theorem fetchTaken_only (s : State) (core pa : Nat) : FetchOnly s (fetchTaken s core pa) := rfl

theorem fetchWord_only {s t : State} {core ctx va : Nat} {x : Slot} {w : W32}
    (h : fetchWord s core ctx x va = .got t w) : FetchOnly s t := by
  unfold fetchWord at h
  split at h
  · cases h
  · cases h
  · split at h
    · cases h
    · dsimp only at h
      split at h
      · cases h; rfl
      · split at h
        · cases h; exact (fetchTaken_only s core _).trans (icachePut_only ..)
        · split at h <;> cases h
          exact icachePut_only ..

theorem fetchMany_only (core ctx : Nat) (x : Slot) (n : Nat) :
    ∀ (s : State) (va : Nat), FetchOnly s (fetchMany s core ctx x n va).1 := by
  induction n with
  | zero => intro s va; rfl
  | succ n ih =>
    intro s va
    unfold fetchMany
    split
    · rfl
    · exact ih _ _
    · rename_i h; exact (fetchWord_only h).trans (ih _ _)

theorem scanFrom_only (v : Variant) (core ctx : Nat) (x : Slot) (isIf : Bool) (n : Nat) :
    ∀ (s t : State) (hdr depth : Nat) (e els : Option Loc) (fin : Loc),
      scanFrom v core ctx x isIf n s hdr depth e = .found t els fin → FetchOnly s t := by
  induction n with
  | zero => intro s t hdr depth e els fin h; cases h
  | succ n ih =>
    intro s t hdr depth e els fin h
    unfold scanFrom at h
    split at h
    · cases h
    · split at h
      · cases h
      · cases h
      · rename_i s1 w hg
        split at h
        · cases h
        · dsimp only at h
          split at h
          · cases h
          · split at h
            · cases h
            · have hm := (fetchWord_only hg).trans (fetchMany_only core ctx x (hdrCount w) s1 (hdr + 4))
              split at h
              · cases h; exact hm
              · exact hm.trans (ih _ _ _ _ _ _ _ h)

theorem scan_only {s t : State} {b : Block} {core ctx : Nat} {x : Slot} {isIf : Bool} {els : Option Loc} {fin : Loc}
    (h : scan s b core ctx x isIf = .found t els fin) : FetchOnly s t := scanFrom_only _ _ _ _ _ _ _ _ _ _ _ _ _ h

end Sys2Proof.Machine
end

