-- ==== Sys2Proof/Laws/State.lean ====
section
/-! SUPPORT. What each named update of the state leaves alone: one lemma for every other field. -/

namespace Sys2Proof.Machine

/-! setWave changes only the field waves. -/

@[simp] theorem setWave_now (s : State) (i : Nat) (w : Wave) : (setWave s i w).now = s.now := rfl
@[simp] theorem setWave_skew (s : State) (i : Nat) (w : Wave) : (setWave s i w).skew = s.skew := rfl
@[simp] theorem setWave_readMax (s : State) (i : Nat) (w : Wave) : (setWave s i w).readMax = s.readMax := rfl
@[simp] theorem setWave_dev (s : State) (i : Nat) (w : Wave) : (setWave s i w).dev = s.dev := rfl
@[simp] theorem setWave_mem (s : State) (i : Nat) (w : Wave) : (setWave s i w).mem = s.mem := rfl
@[simp] theorem setWave_poison (s : State) (i : Nat) (w : Wave) : (setWave s i w).poison = s.poison := rfl
@[simp] theorem setWave_lease (s : State) (i : Nat) (w : Wave) : (setWave s i w).lease = s.lease := rfl
@[simp] theorem setWave_l1 (s : State) (i : Nat) (w : Wave) : (setWave s i w).l1 = s.l1 := rfl
@[simp] theorem setWave_icache (s : State) (i : Nat) (w : Wave) : (setWave s i w).icache = s.icache := rfl
@[simp] theorem setWave_fetches (s : State) (i : Nat) (w : Wave) : (setWave s i w).fetches = s.fetches := rfl
@[simp] theorem setWave_walks (s : State) (i : Nat) (w : Wave) : (setWave s i w).walks = s.walks := rfl
@[simp] theorem setWave_hw (s : State) (i : Nat) (w : Wave) : (setWave s i w).hw = s.hw := rfl
@[simp] theorem setWave_ops (s : State) (i : Nat) (w : Wave) : (setWave s i w).ops = s.ops := rfl
@[simp] theorem setWave_slices (s : State) (i : Nat) (w : Wave) : (setWave s i w).slices = s.slices := rfl
@[simp] theorem setWave_peerMons (s : State) (i : Nat) (w : Wave) : (setWave s i w).peerMons = s.peerMons := rfl
@[simp] theorem setWave_ropes (s : State) (i : Nat) (w : Wave) : (setWave s i w).ropes = s.ropes := rfl
@[simp] theorem setWave_cores (s : State) (i : Nat) (w : Wave) : (setWave s i w).cores = s.cores := rfl
@[simp] theorem setWave_ctxs (s : State) (i : Nat) (w : Wave) : (setWave s i w).ctxs = s.ctxs := rfl
@[simp] theorem setWave_eps (s : State) (i : Nat) (w : Wave) : (setWave s i w).eps = s.eps := rfl
@[simp] theorem setWave_launches (s : State) (i : Nat) (w : Wave) : (setWave s i w).launches = s.launches := rfl
@[simp] theorem setWave_groups (s : State) (i : Nat) (w : Wave) : (setWave s i w).groups = s.groups := rfl
@[simp] theorem setWave_blocks (s : State) (i : Nat) (w : Wave) : (setWave s i w).blocks = s.blocks := rfl
@[simp] theorem setWave_offers (s : State) (i : Nat) (w : Wave) : (setWave s i w).offers = s.offers := rfl
@[simp] theorem setWave_away (s : State) (i : Nat) (w : Wave) : (setWave s i w).away = s.away := rfl
@[simp] theorem setWave_irqs (s : State) (i : Nat) (w : Wave) : (setWave s i w).irqs = s.irqs := rfl
@[simp] theorem setWave_irqSent (s : State) (i : Nat) (w : Wave) : (setWave s i w).irqSent = s.irqSent := rfl
@[simp] theorem setWave_picks (s : State) (i : Nat) (w : Wave) : (setWave s i w).picks = s.picks := rfl
@[simp] theorem setWave_agenda (s : State) (i : Nat) (w : Wave) : (setWave s i w).agenda = s.agenda := rfl
@[simp] theorem setWave_cur (s : State) (i : Nat) (w : Wave) : (setWave s i w).cur = s.cur := rfl
@[simp] theorem setWave_fresh (s : State) (i : Nat) (w : Wave) : (setWave s i w).fresh = s.fresh := rfl
@[simp] theorem setWave_nextId (s : State) (i : Nat) (w : Wave) : (setWave s i w).nextId = s.nextId := rfl
@[simp] theorem setWave_hostData (s : State) (i : Nat) (w : Wave) : (setWave s i w).hostData = s.hostData := rfl

/-! modWave changes only the field waves. -/

@[simp] theorem modWave_now (s : State) (i : Nat) (f : Wave → Wave) : (modWave s i f).now = s.now := rfl
@[simp] theorem modWave_skew (s : State) (i : Nat) (f : Wave → Wave) : (modWave s i f).skew = s.skew := rfl
@[simp] theorem modWave_readMax (s : State) (i : Nat) (f : Wave → Wave) : (modWave s i f).readMax = s.readMax := rfl
@[simp] theorem modWave_dev (s : State) (i : Nat) (f : Wave → Wave) : (modWave s i f).dev = s.dev := rfl
@[simp] theorem modWave_mem (s : State) (i : Nat) (f : Wave → Wave) : (modWave s i f).mem = s.mem := rfl
@[simp] theorem modWave_poison (s : State) (i : Nat) (f : Wave → Wave) : (modWave s i f).poison = s.poison := rfl
@[simp] theorem modWave_lease (s : State) (i : Nat) (f : Wave → Wave) : (modWave s i f).lease = s.lease := rfl
@[simp] theorem modWave_l1 (s : State) (i : Nat) (f : Wave → Wave) : (modWave s i f).l1 = s.l1 := rfl
@[simp] theorem modWave_icache (s : State) (i : Nat) (f : Wave → Wave) : (modWave s i f).icache = s.icache := rfl
@[simp] theorem modWave_fetches (s : State) (i : Nat) (f : Wave → Wave) : (modWave s i f).fetches = s.fetches := rfl
@[simp] theorem modWave_walks (s : State) (i : Nat) (f : Wave → Wave) : (modWave s i f).walks = s.walks := rfl
@[simp] theorem modWave_hw (s : State) (i : Nat) (f : Wave → Wave) : (modWave s i f).hw = s.hw := rfl
@[simp] theorem modWave_ops (s : State) (i : Nat) (f : Wave → Wave) : (modWave s i f).ops = s.ops := rfl
@[simp] theorem modWave_slices (s : State) (i : Nat) (f : Wave → Wave) : (modWave s i f).slices = s.slices := rfl
@[simp] theorem modWave_peerMons (s : State) (i : Nat) (f : Wave → Wave) : (modWave s i f).peerMons = s.peerMons := rfl
@[simp] theorem modWave_ropes (s : State) (i : Nat) (f : Wave → Wave) : (modWave s i f).ropes = s.ropes := rfl
@[simp] theorem modWave_cores (s : State) (i : Nat) (f : Wave → Wave) : (modWave s i f).cores = s.cores := rfl
@[simp] theorem modWave_ctxs (s : State) (i : Nat) (f : Wave → Wave) : (modWave s i f).ctxs = s.ctxs := rfl
@[simp] theorem modWave_eps (s : State) (i : Nat) (f : Wave → Wave) : (modWave s i f).eps = s.eps := rfl
@[simp] theorem modWave_launches (s : State) (i : Nat) (f : Wave → Wave) : (modWave s i f).launches = s.launches := rfl
@[simp] theorem modWave_groups (s : State) (i : Nat) (f : Wave → Wave) : (modWave s i f).groups = s.groups := rfl
@[simp] theorem modWave_blocks (s : State) (i : Nat) (f : Wave → Wave) : (modWave s i f).blocks = s.blocks := rfl
@[simp] theorem modWave_offers (s : State) (i : Nat) (f : Wave → Wave) : (modWave s i f).offers = s.offers := rfl
@[simp] theorem modWave_away (s : State) (i : Nat) (f : Wave → Wave) : (modWave s i f).away = s.away := rfl
@[simp] theorem modWave_irqs (s : State) (i : Nat) (f : Wave → Wave) : (modWave s i f).irqs = s.irqs := rfl
@[simp] theorem modWave_irqSent (s : State) (i : Nat) (f : Wave → Wave) : (modWave s i f).irqSent = s.irqSent := rfl
@[simp] theorem modWave_picks (s : State) (i : Nat) (f : Wave → Wave) : (modWave s i f).picks = s.picks := rfl
@[simp] theorem modWave_agenda (s : State) (i : Nat) (f : Wave → Wave) : (modWave s i f).agenda = s.agenda := rfl
@[simp] theorem modWave_cur (s : State) (i : Nat) (f : Wave → Wave) : (modWave s i f).cur = s.cur := rfl
@[simp] theorem modWave_fresh (s : State) (i : Nat) (f : Wave → Wave) : (modWave s i f).fresh = s.fresh := rfl
@[simp] theorem modWave_nextId (s : State) (i : Nat) (f : Wave → Wave) : (modWave s i f).nextId = s.nextId := rfl
@[simp] theorem modWave_hostData (s : State) (i : Nat) (f : Wave → Wave) : (modWave s i f).hostData = s.hostData := rfl

/-! modBlock changes only the field blocks. -/

@[simp] theorem modBlock_now (s : State) (i : Nat) (f : Block → Block) : (modBlock s i f).now = s.now := rfl
@[simp] theorem modBlock_skew (s : State) (i : Nat) (f : Block → Block) : (modBlock s i f).skew = s.skew := rfl
@[simp] theorem modBlock_readMax (s : State) (i : Nat) (f : Block → Block) : (modBlock s i f).readMax = s.readMax := rfl
@[simp] theorem modBlock_dev (s : State) (i : Nat) (f : Block → Block) : (modBlock s i f).dev = s.dev := rfl
@[simp] theorem modBlock_mem (s : State) (i : Nat) (f : Block → Block) : (modBlock s i f).mem = s.mem := rfl
@[simp] theorem modBlock_poison (s : State) (i : Nat) (f : Block → Block) : (modBlock s i f).poison = s.poison := rfl
@[simp] theorem modBlock_lease (s : State) (i : Nat) (f : Block → Block) : (modBlock s i f).lease = s.lease := rfl
@[simp] theorem modBlock_l1 (s : State) (i : Nat) (f : Block → Block) : (modBlock s i f).l1 = s.l1 := rfl
@[simp] theorem modBlock_icache (s : State) (i : Nat) (f : Block → Block) : (modBlock s i f).icache = s.icache := rfl
@[simp] theorem modBlock_fetches (s : State) (i : Nat) (f : Block → Block) : (modBlock s i f).fetches = s.fetches := rfl
@[simp] theorem modBlock_walks (s : State) (i : Nat) (f : Block → Block) : (modBlock s i f).walks = s.walks := rfl
@[simp] theorem modBlock_hw (s : State) (i : Nat) (f : Block → Block) : (modBlock s i f).hw = s.hw := rfl
@[simp] theorem modBlock_ops (s : State) (i : Nat) (f : Block → Block) : (modBlock s i f).ops = s.ops := rfl
@[simp] theorem modBlock_slices (s : State) (i : Nat) (f : Block → Block) : (modBlock s i f).slices = s.slices := rfl
@[simp] theorem modBlock_peerMons (s : State) (i : Nat) (f : Block → Block) : (modBlock s i f).peerMons = s.peerMons := rfl
@[simp] theorem modBlock_ropes (s : State) (i : Nat) (f : Block → Block) : (modBlock s i f).ropes = s.ropes := rfl
@[simp] theorem modBlock_cores (s : State) (i : Nat) (f : Block → Block) : (modBlock s i f).cores = s.cores := rfl
@[simp] theorem modBlock_ctxs (s : State) (i : Nat) (f : Block → Block) : (modBlock s i f).ctxs = s.ctxs := rfl
@[simp] theorem modBlock_eps (s : State) (i : Nat) (f : Block → Block) : (modBlock s i f).eps = s.eps := rfl
@[simp] theorem modBlock_launches (s : State) (i : Nat) (f : Block → Block) : (modBlock s i f).launches = s.launches := rfl
@[simp] theorem modBlock_groups (s : State) (i : Nat) (f : Block → Block) : (modBlock s i f).groups = s.groups := rfl
@[simp] theorem modBlock_waves (s : State) (i : Nat) (f : Block → Block) : (modBlock s i f).waves = s.waves := rfl
@[simp] theorem modBlock_offers (s : State) (i : Nat) (f : Block → Block) : (modBlock s i f).offers = s.offers := rfl
@[simp] theorem modBlock_away (s : State) (i : Nat) (f : Block → Block) : (modBlock s i f).away = s.away := rfl
@[simp] theorem modBlock_irqs (s : State) (i : Nat) (f : Block → Block) : (modBlock s i f).irqs = s.irqs := rfl
@[simp] theorem modBlock_irqSent (s : State) (i : Nat) (f : Block → Block) : (modBlock s i f).irqSent = s.irqSent := rfl
@[simp] theorem modBlock_picks (s : State) (i : Nat) (f : Block → Block) : (modBlock s i f).picks = s.picks := rfl
@[simp] theorem modBlock_agenda (s : State) (i : Nat) (f : Block → Block) : (modBlock s i f).agenda = s.agenda := rfl
@[simp] theorem modBlock_cur (s : State) (i : Nat) (f : Block → Block) : (modBlock s i f).cur = s.cur := rfl
@[simp] theorem modBlock_fresh (s : State) (i : Nat) (f : Block → Block) : (modBlock s i f).fresh = s.fresh := rfl
@[simp] theorem modBlock_nextId (s : State) (i : Nat) (f : Block → Block) : (modBlock s i f).nextId = s.nextId := rfl
@[simp] theorem modBlock_hostData (s : State) (i : Nat) (f : Block → Block) : (modBlock s i f).hostData = s.hostData := rfl

/-! modGroup changes only the field groups. -/

@[simp] theorem modGroup_now (s : State) (i : Nat) (f : Group → Group) : (modGroup s i f).now = s.now := rfl
@[simp] theorem modGroup_skew (s : State) (i : Nat) (f : Group → Group) : (modGroup s i f).skew = s.skew := rfl
@[simp] theorem modGroup_readMax (s : State) (i : Nat) (f : Group → Group) : (modGroup s i f).readMax = s.readMax := rfl
@[simp] theorem modGroup_dev (s : State) (i : Nat) (f : Group → Group) : (modGroup s i f).dev = s.dev := rfl
@[simp] theorem modGroup_mem (s : State) (i : Nat) (f : Group → Group) : (modGroup s i f).mem = s.mem := rfl
@[simp] theorem modGroup_poison (s : State) (i : Nat) (f : Group → Group) : (modGroup s i f).poison = s.poison := rfl
@[simp] theorem modGroup_lease (s : State) (i : Nat) (f : Group → Group) : (modGroup s i f).lease = s.lease := rfl
@[simp] theorem modGroup_l1 (s : State) (i : Nat) (f : Group → Group) : (modGroup s i f).l1 = s.l1 := rfl
@[simp] theorem modGroup_icache (s : State) (i : Nat) (f : Group → Group) : (modGroup s i f).icache = s.icache := rfl
@[simp] theorem modGroup_fetches (s : State) (i : Nat) (f : Group → Group) : (modGroup s i f).fetches = s.fetches := rfl
@[simp] theorem modGroup_walks (s : State) (i : Nat) (f : Group → Group) : (modGroup s i f).walks = s.walks := rfl
@[simp] theorem modGroup_hw (s : State) (i : Nat) (f : Group → Group) : (modGroup s i f).hw = s.hw := rfl
@[simp] theorem modGroup_ops (s : State) (i : Nat) (f : Group → Group) : (modGroup s i f).ops = s.ops := rfl
@[simp] theorem modGroup_slices (s : State) (i : Nat) (f : Group → Group) : (modGroup s i f).slices = s.slices := rfl
@[simp] theorem modGroup_peerMons (s : State) (i : Nat) (f : Group → Group) : (modGroup s i f).peerMons = s.peerMons := rfl
@[simp] theorem modGroup_ropes (s : State) (i : Nat) (f : Group → Group) : (modGroup s i f).ropes = s.ropes := rfl
@[simp] theorem modGroup_cores (s : State) (i : Nat) (f : Group → Group) : (modGroup s i f).cores = s.cores := rfl
@[simp] theorem modGroup_ctxs (s : State) (i : Nat) (f : Group → Group) : (modGroup s i f).ctxs = s.ctxs := rfl
@[simp] theorem modGroup_eps (s : State) (i : Nat) (f : Group → Group) : (modGroup s i f).eps = s.eps := rfl
@[simp] theorem modGroup_launches (s : State) (i : Nat) (f : Group → Group) : (modGroup s i f).launches = s.launches := rfl
@[simp] theorem modGroup_blocks (s : State) (i : Nat) (f : Group → Group) : (modGroup s i f).blocks = s.blocks := rfl
@[simp] theorem modGroup_waves (s : State) (i : Nat) (f : Group → Group) : (modGroup s i f).waves = s.waves := rfl
@[simp] theorem modGroup_offers (s : State) (i : Nat) (f : Group → Group) : (modGroup s i f).offers = s.offers := rfl
@[simp] theorem modGroup_away (s : State) (i : Nat) (f : Group → Group) : (modGroup s i f).away = s.away := rfl
@[simp] theorem modGroup_irqs (s : State) (i : Nat) (f : Group → Group) : (modGroup s i f).irqs = s.irqs := rfl
@[simp] theorem modGroup_irqSent (s : State) (i : Nat) (f : Group → Group) : (modGroup s i f).irqSent = s.irqSent := rfl
@[simp] theorem modGroup_picks (s : State) (i : Nat) (f : Group → Group) : (modGroup s i f).picks = s.picks := rfl
@[simp] theorem modGroup_agenda (s : State) (i : Nat) (f : Group → Group) : (modGroup s i f).agenda = s.agenda := rfl
@[simp] theorem modGroup_cur (s : State) (i : Nat) (f : Group → Group) : (modGroup s i f).cur = s.cur := rfl
@[simp] theorem modGroup_fresh (s : State) (i : Nat) (f : Group → Group) : (modGroup s i f).fresh = s.fresh := rfl
@[simp] theorem modGroup_nextId (s : State) (i : Nat) (f : Group → Group) : (modGroup s i f).nextId = s.nextId := rfl
@[simp] theorem modGroup_hostData (s : State) (i : Nat) (f : Group → Group) : (modGroup s i f).hostData = s.hostData := rfl

/-! modLaunch changes only the field launches. -/

@[simp] theorem modLaunch_now (s : State) (i : Nat) (f : Launch → Launch) : (modLaunch s i f).now = s.now := rfl
@[simp] theorem modLaunch_skew (s : State) (i : Nat) (f : Launch → Launch) : (modLaunch s i f).skew = s.skew := rfl
@[simp] theorem modLaunch_readMax (s : State) (i : Nat) (f : Launch → Launch) : (modLaunch s i f).readMax = s.readMax := rfl
@[simp] theorem modLaunch_dev (s : State) (i : Nat) (f : Launch → Launch) : (modLaunch s i f).dev = s.dev := rfl
@[simp] theorem modLaunch_mem (s : State) (i : Nat) (f : Launch → Launch) : (modLaunch s i f).mem = s.mem := rfl
@[simp] theorem modLaunch_poison (s : State) (i : Nat) (f : Launch → Launch) : (modLaunch s i f).poison = s.poison := rfl
@[simp] theorem modLaunch_lease (s : State) (i : Nat) (f : Launch → Launch) : (modLaunch s i f).lease = s.lease := rfl
@[simp] theorem modLaunch_l1 (s : State) (i : Nat) (f : Launch → Launch) : (modLaunch s i f).l1 = s.l1 := rfl
@[simp] theorem modLaunch_icache (s : State) (i : Nat) (f : Launch → Launch) : (modLaunch s i f).icache = s.icache := rfl
@[simp] theorem modLaunch_fetches (s : State) (i : Nat) (f : Launch → Launch) : (modLaunch s i f).fetches = s.fetches := rfl
@[simp] theorem modLaunch_walks (s : State) (i : Nat) (f : Launch → Launch) : (modLaunch s i f).walks = s.walks := rfl
@[simp] theorem modLaunch_hw (s : State) (i : Nat) (f : Launch → Launch) : (modLaunch s i f).hw = s.hw := rfl
@[simp] theorem modLaunch_ops (s : State) (i : Nat) (f : Launch → Launch) : (modLaunch s i f).ops = s.ops := rfl
@[simp] theorem modLaunch_slices (s : State) (i : Nat) (f : Launch → Launch) : (modLaunch s i f).slices = s.slices := rfl
@[simp] theorem modLaunch_peerMons (s : State) (i : Nat) (f : Launch → Launch) : (modLaunch s i f).peerMons = s.peerMons := rfl
@[simp] theorem modLaunch_ropes (s : State) (i : Nat) (f : Launch → Launch) : (modLaunch s i f).ropes = s.ropes := rfl
@[simp] theorem modLaunch_cores (s : State) (i : Nat) (f : Launch → Launch) : (modLaunch s i f).cores = s.cores := rfl
@[simp] theorem modLaunch_ctxs (s : State) (i : Nat) (f : Launch → Launch) : (modLaunch s i f).ctxs = s.ctxs := rfl
@[simp] theorem modLaunch_eps (s : State) (i : Nat) (f : Launch → Launch) : (modLaunch s i f).eps = s.eps := rfl
@[simp] theorem modLaunch_groups (s : State) (i : Nat) (f : Launch → Launch) : (modLaunch s i f).groups = s.groups := rfl
@[simp] theorem modLaunch_blocks (s : State) (i : Nat) (f : Launch → Launch) : (modLaunch s i f).blocks = s.blocks := rfl
@[simp] theorem modLaunch_waves (s : State) (i : Nat) (f : Launch → Launch) : (modLaunch s i f).waves = s.waves := rfl
@[simp] theorem modLaunch_offers (s : State) (i : Nat) (f : Launch → Launch) : (modLaunch s i f).offers = s.offers := rfl
@[simp] theorem modLaunch_away (s : State) (i : Nat) (f : Launch → Launch) : (modLaunch s i f).away = s.away := rfl
@[simp] theorem modLaunch_irqs (s : State) (i : Nat) (f : Launch → Launch) : (modLaunch s i f).irqs = s.irqs := rfl
@[simp] theorem modLaunch_irqSent (s : State) (i : Nat) (f : Launch → Launch) : (modLaunch s i f).irqSent = s.irqSent := rfl
@[simp] theorem modLaunch_picks (s : State) (i : Nat) (f : Launch → Launch) : (modLaunch s i f).picks = s.picks := rfl
@[simp] theorem modLaunch_agenda (s : State) (i : Nat) (f : Launch → Launch) : (modLaunch s i f).agenda = s.agenda := rfl
@[simp] theorem modLaunch_cur (s : State) (i : Nat) (f : Launch → Launch) : (modLaunch s i f).cur = s.cur := rfl
@[simp] theorem modLaunch_fresh (s : State) (i : Nat) (f : Launch → Launch) : (modLaunch s i f).fresh = s.fresh := rfl
@[simp] theorem modLaunch_nextId (s : State) (i : Nat) (f : Launch → Launch) : (modLaunch s i f).nextId = s.nextId := rfl
@[simp] theorem modLaunch_hostData (s : State) (i : Nat) (f : Launch → Launch) : (modLaunch s i f).hostData = s.hostData := rfl

/-! modCtx changes only the field ctxs. -/

@[simp] theorem modCtx_now (s : State) (i : Nat) (f : Ctx → Ctx) : (modCtx s i f).now = s.now := rfl
@[simp] theorem modCtx_skew (s : State) (i : Nat) (f : Ctx → Ctx) : (modCtx s i f).skew = s.skew := rfl
@[simp] theorem modCtx_readMax (s : State) (i : Nat) (f : Ctx → Ctx) : (modCtx s i f).readMax = s.readMax := rfl
@[simp] theorem modCtx_dev (s : State) (i : Nat) (f : Ctx → Ctx) : (modCtx s i f).dev = s.dev := rfl
@[simp] theorem modCtx_mem (s : State) (i : Nat) (f : Ctx → Ctx) : (modCtx s i f).mem = s.mem := rfl
@[simp] theorem modCtx_poison (s : State) (i : Nat) (f : Ctx → Ctx) : (modCtx s i f).poison = s.poison := rfl
@[simp] theorem modCtx_lease (s : State) (i : Nat) (f : Ctx → Ctx) : (modCtx s i f).lease = s.lease := rfl
@[simp] theorem modCtx_l1 (s : State) (i : Nat) (f : Ctx → Ctx) : (modCtx s i f).l1 = s.l1 := rfl
@[simp] theorem modCtx_icache (s : State) (i : Nat) (f : Ctx → Ctx) : (modCtx s i f).icache = s.icache := rfl
@[simp] theorem modCtx_fetches (s : State) (i : Nat) (f : Ctx → Ctx) : (modCtx s i f).fetches = s.fetches := rfl
@[simp] theorem modCtx_walks (s : State) (i : Nat) (f : Ctx → Ctx) : (modCtx s i f).walks = s.walks := rfl
@[simp] theorem modCtx_hw (s : State) (i : Nat) (f : Ctx → Ctx) : (modCtx s i f).hw = s.hw := rfl
@[simp] theorem modCtx_ops (s : State) (i : Nat) (f : Ctx → Ctx) : (modCtx s i f).ops = s.ops := rfl
@[simp] theorem modCtx_slices (s : State) (i : Nat) (f : Ctx → Ctx) : (modCtx s i f).slices = s.slices := rfl
@[simp] theorem modCtx_peerMons (s : State) (i : Nat) (f : Ctx → Ctx) : (modCtx s i f).peerMons = s.peerMons := rfl
@[simp] theorem modCtx_ropes (s : State) (i : Nat) (f : Ctx → Ctx) : (modCtx s i f).ropes = s.ropes := rfl
@[simp] theorem modCtx_cores (s : State) (i : Nat) (f : Ctx → Ctx) : (modCtx s i f).cores = s.cores := rfl
@[simp] theorem modCtx_eps (s : State) (i : Nat) (f : Ctx → Ctx) : (modCtx s i f).eps = s.eps := rfl
@[simp] theorem modCtx_launches (s : State) (i : Nat) (f : Ctx → Ctx) : (modCtx s i f).launches = s.launches := rfl
@[simp] theorem modCtx_groups (s : State) (i : Nat) (f : Ctx → Ctx) : (modCtx s i f).groups = s.groups := rfl
@[simp] theorem modCtx_blocks (s : State) (i : Nat) (f : Ctx → Ctx) : (modCtx s i f).blocks = s.blocks := rfl
@[simp] theorem modCtx_waves (s : State) (i : Nat) (f : Ctx → Ctx) : (modCtx s i f).waves = s.waves := rfl
@[simp] theorem modCtx_offers (s : State) (i : Nat) (f : Ctx → Ctx) : (modCtx s i f).offers = s.offers := rfl
@[simp] theorem modCtx_away (s : State) (i : Nat) (f : Ctx → Ctx) : (modCtx s i f).away = s.away := rfl
@[simp] theorem modCtx_irqs (s : State) (i : Nat) (f : Ctx → Ctx) : (modCtx s i f).irqs = s.irqs := rfl
@[simp] theorem modCtx_irqSent (s : State) (i : Nat) (f : Ctx → Ctx) : (modCtx s i f).irqSent = s.irqSent := rfl
@[simp] theorem modCtx_picks (s : State) (i : Nat) (f : Ctx → Ctx) : (modCtx s i f).picks = s.picks := rfl
@[simp] theorem modCtx_agenda (s : State) (i : Nat) (f : Ctx → Ctx) : (modCtx s i f).agenda = s.agenda := rfl
@[simp] theorem modCtx_cur (s : State) (i : Nat) (f : Ctx → Ctx) : (modCtx s i f).cur = s.cur := rfl
@[simp] theorem modCtx_fresh (s : State) (i : Nat) (f : Ctx → Ctx) : (modCtx s i f).fresh = s.fresh := rfl
@[simp] theorem modCtx_nextId (s : State) (i : Nat) (f : Ctx → Ctx) : (modCtx s i f).nextId = s.nextId := rfl
@[simp] theorem modCtx_hostData (s : State) (i : Nat) (f : Ctx → Ctx) : (modCtx s i f).hostData = s.hostData := rfl

/-! modQueue changes only the field ctxs. -/

@[simp] theorem modQueue_now (s : State) (c q : Nat) (f : Queue → Queue) : (modQueue s c q f).now = s.now := rfl
@[simp] theorem modQueue_skew (s : State) (c q : Nat) (f : Queue → Queue) : (modQueue s c q f).skew = s.skew := rfl
@[simp] theorem modQueue_readMax (s : State) (c q : Nat) (f : Queue → Queue) : (modQueue s c q f).readMax = s.readMax := rfl
@[simp] theorem modQueue_dev (s : State) (c q : Nat) (f : Queue → Queue) : (modQueue s c q f).dev = s.dev := rfl
@[simp] theorem modQueue_mem (s : State) (c q : Nat) (f : Queue → Queue) : (modQueue s c q f).mem = s.mem := rfl
@[simp] theorem modQueue_poison (s : State) (c q : Nat) (f : Queue → Queue) : (modQueue s c q f).poison = s.poison := rfl
@[simp] theorem modQueue_lease (s : State) (c q : Nat) (f : Queue → Queue) : (modQueue s c q f).lease = s.lease := rfl
@[simp] theorem modQueue_l1 (s : State) (c q : Nat) (f : Queue → Queue) : (modQueue s c q f).l1 = s.l1 := rfl
@[simp] theorem modQueue_icache (s : State) (c q : Nat) (f : Queue → Queue) : (modQueue s c q f).icache = s.icache := rfl
@[simp] theorem modQueue_fetches (s : State) (c q : Nat) (f : Queue → Queue) : (modQueue s c q f).fetches = s.fetches := rfl
@[simp] theorem modQueue_walks (s : State) (c q : Nat) (f : Queue → Queue) : (modQueue s c q f).walks = s.walks := rfl
@[simp] theorem modQueue_hw (s : State) (c q : Nat) (f : Queue → Queue) : (modQueue s c q f).hw = s.hw := rfl
@[simp] theorem modQueue_ops (s : State) (c q : Nat) (f : Queue → Queue) : (modQueue s c q f).ops = s.ops := rfl
@[simp] theorem modQueue_slices (s : State) (c q : Nat) (f : Queue → Queue) : (modQueue s c q f).slices = s.slices := rfl
@[simp] theorem modQueue_peerMons (s : State) (c q : Nat) (f : Queue → Queue) : (modQueue s c q f).peerMons = s.peerMons := rfl
@[simp] theorem modQueue_ropes (s : State) (c q : Nat) (f : Queue → Queue) : (modQueue s c q f).ropes = s.ropes := rfl
@[simp] theorem modQueue_cores (s : State) (c q : Nat) (f : Queue → Queue) : (modQueue s c q f).cores = s.cores := rfl
@[simp] theorem modQueue_eps (s : State) (c q : Nat) (f : Queue → Queue) : (modQueue s c q f).eps = s.eps := rfl
@[simp] theorem modQueue_launches (s : State) (c q : Nat) (f : Queue → Queue) : (modQueue s c q f).launches = s.launches := rfl
@[simp] theorem modQueue_groups (s : State) (c q : Nat) (f : Queue → Queue) : (modQueue s c q f).groups = s.groups := rfl
@[simp] theorem modQueue_blocks (s : State) (c q : Nat) (f : Queue → Queue) : (modQueue s c q f).blocks = s.blocks := rfl
@[simp] theorem modQueue_waves (s : State) (c q : Nat) (f : Queue → Queue) : (modQueue s c q f).waves = s.waves := rfl
@[simp] theorem modQueue_offers (s : State) (c q : Nat) (f : Queue → Queue) : (modQueue s c q f).offers = s.offers := rfl
@[simp] theorem modQueue_away (s : State) (c q : Nat) (f : Queue → Queue) : (modQueue s c q f).away = s.away := rfl
@[simp] theorem modQueue_irqs (s : State) (c q : Nat) (f : Queue → Queue) : (modQueue s c q f).irqs = s.irqs := rfl
@[simp] theorem modQueue_irqSent (s : State) (c q : Nat) (f : Queue → Queue) : (modQueue s c q f).irqSent = s.irqSent := rfl
@[simp] theorem modQueue_picks (s : State) (c q : Nat) (f : Queue → Queue) : (modQueue s c q f).picks = s.picks := rfl
@[simp] theorem modQueue_agenda (s : State) (c q : Nat) (f : Queue → Queue) : (modQueue s c q f).agenda = s.agenda := rfl
@[simp] theorem modQueue_cur (s : State) (c q : Nat) (f : Queue → Queue) : (modQueue s c q f).cur = s.cur := rfl
@[simp] theorem modQueue_fresh (s : State) (c q : Nat) (f : Queue → Queue) : (modQueue s c q f).fresh = s.fresh := rfl
@[simp] theorem modQueue_nextId (s : State) (c q : Nat) (f : Queue → Queue) : (modQueue s c q f).nextId = s.nextId := rfl
@[simp] theorem modQueue_hostData (s : State) (c q : Nat) (f : Queue → Queue) : (modQueue s c q f).hostData = s.hostData := rfl

/-! modRope changes only the field ropes. -/

@[simp] theorem modRope_now (s : State) (i : Nat) (f : Rope → Rope) : (modRope s i f).now = s.now := rfl
@[simp] theorem modRope_skew (s : State) (i : Nat) (f : Rope → Rope) : (modRope s i f).skew = s.skew := rfl
@[simp] theorem modRope_readMax (s : State) (i : Nat) (f : Rope → Rope) : (modRope s i f).readMax = s.readMax := rfl
@[simp] theorem modRope_dev (s : State) (i : Nat) (f : Rope → Rope) : (modRope s i f).dev = s.dev := rfl
@[simp] theorem modRope_mem (s : State) (i : Nat) (f : Rope → Rope) : (modRope s i f).mem = s.mem := rfl
@[simp] theorem modRope_poison (s : State) (i : Nat) (f : Rope → Rope) : (modRope s i f).poison = s.poison := rfl
@[simp] theorem modRope_lease (s : State) (i : Nat) (f : Rope → Rope) : (modRope s i f).lease = s.lease := rfl
@[simp] theorem modRope_l1 (s : State) (i : Nat) (f : Rope → Rope) : (modRope s i f).l1 = s.l1 := rfl
@[simp] theorem modRope_icache (s : State) (i : Nat) (f : Rope → Rope) : (modRope s i f).icache = s.icache := rfl
@[simp] theorem modRope_fetches (s : State) (i : Nat) (f : Rope → Rope) : (modRope s i f).fetches = s.fetches := rfl
@[simp] theorem modRope_walks (s : State) (i : Nat) (f : Rope → Rope) : (modRope s i f).walks = s.walks := rfl
@[simp] theorem modRope_hw (s : State) (i : Nat) (f : Rope → Rope) : (modRope s i f).hw = s.hw := rfl
@[simp] theorem modRope_ops (s : State) (i : Nat) (f : Rope → Rope) : (modRope s i f).ops = s.ops := rfl
@[simp] theorem modRope_slices (s : State) (i : Nat) (f : Rope → Rope) : (modRope s i f).slices = s.slices := rfl
@[simp] theorem modRope_peerMons (s : State) (i : Nat) (f : Rope → Rope) : (modRope s i f).peerMons = s.peerMons := rfl
@[simp] theorem modRope_cores (s : State) (i : Nat) (f : Rope → Rope) : (modRope s i f).cores = s.cores := rfl
@[simp] theorem modRope_ctxs (s : State) (i : Nat) (f : Rope → Rope) : (modRope s i f).ctxs = s.ctxs := rfl
@[simp] theorem modRope_eps (s : State) (i : Nat) (f : Rope → Rope) : (modRope s i f).eps = s.eps := rfl
@[simp] theorem modRope_launches (s : State) (i : Nat) (f : Rope → Rope) : (modRope s i f).launches = s.launches := rfl
@[simp] theorem modRope_groups (s : State) (i : Nat) (f : Rope → Rope) : (modRope s i f).groups = s.groups := rfl
@[simp] theorem modRope_blocks (s : State) (i : Nat) (f : Rope → Rope) : (modRope s i f).blocks = s.blocks := rfl
@[simp] theorem modRope_waves (s : State) (i : Nat) (f : Rope → Rope) : (modRope s i f).waves = s.waves := rfl
@[simp] theorem modRope_offers (s : State) (i : Nat) (f : Rope → Rope) : (modRope s i f).offers = s.offers := rfl
@[simp] theorem modRope_away (s : State) (i : Nat) (f : Rope → Rope) : (modRope s i f).away = s.away := rfl
@[simp] theorem modRope_irqs (s : State) (i : Nat) (f : Rope → Rope) : (modRope s i f).irqs = s.irqs := rfl
@[simp] theorem modRope_irqSent (s : State) (i : Nat) (f : Rope → Rope) : (modRope s i f).irqSent = s.irqSent := rfl
@[simp] theorem modRope_picks (s : State) (i : Nat) (f : Rope → Rope) : (modRope s i f).picks = s.picks := rfl
@[simp] theorem modRope_agenda (s : State) (i : Nat) (f : Rope → Rope) : (modRope s i f).agenda = s.agenda := rfl
@[simp] theorem modRope_cur (s : State) (i : Nat) (f : Rope → Rope) : (modRope s i f).cur = s.cur := rfl
@[simp] theorem modRope_fresh (s : State) (i : Nat) (f : Rope → Rope) : (modRope s i f).fresh = s.fresh := rfl
@[simp] theorem modRope_nextId (s : State) (i : Nat) (f : Rope → Rope) : (modRope s i f).nextId = s.nextId := rfl
@[simp] theorem modRope_hostData (s : State) (i : Nat) (f : Rope → Rope) : (modRope s i f).hostData = s.hostData := rfl

/-! modCore changes only the field cores. -/

@[simp] theorem modCore_now (s : State) (i : Nat) (f : Core → Core) : (modCore s i f).now = s.now := rfl
@[simp] theorem modCore_skew (s : State) (i : Nat) (f : Core → Core) : (modCore s i f).skew = s.skew := rfl
@[simp] theorem modCore_readMax (s : State) (i : Nat) (f : Core → Core) : (modCore s i f).readMax = s.readMax := rfl
@[simp] theorem modCore_dev (s : State) (i : Nat) (f : Core → Core) : (modCore s i f).dev = s.dev := rfl
@[simp] theorem modCore_mem (s : State) (i : Nat) (f : Core → Core) : (modCore s i f).mem = s.mem := rfl
@[simp] theorem modCore_poison (s : State) (i : Nat) (f : Core → Core) : (modCore s i f).poison = s.poison := rfl
@[simp] theorem modCore_lease (s : State) (i : Nat) (f : Core → Core) : (modCore s i f).lease = s.lease := rfl
@[simp] theorem modCore_l1 (s : State) (i : Nat) (f : Core → Core) : (modCore s i f).l1 = s.l1 := rfl
@[simp] theorem modCore_icache (s : State) (i : Nat) (f : Core → Core) : (modCore s i f).icache = s.icache := rfl
@[simp] theorem modCore_fetches (s : State) (i : Nat) (f : Core → Core) : (modCore s i f).fetches = s.fetches := rfl
@[simp] theorem modCore_walks (s : State) (i : Nat) (f : Core → Core) : (modCore s i f).walks = s.walks := rfl
@[simp] theorem modCore_hw (s : State) (i : Nat) (f : Core → Core) : (modCore s i f).hw = s.hw := rfl
@[simp] theorem modCore_ops (s : State) (i : Nat) (f : Core → Core) : (modCore s i f).ops = s.ops := rfl
@[simp] theorem modCore_slices (s : State) (i : Nat) (f : Core → Core) : (modCore s i f).slices = s.slices := rfl
@[simp] theorem modCore_peerMons (s : State) (i : Nat) (f : Core → Core) : (modCore s i f).peerMons = s.peerMons := rfl
@[simp] theorem modCore_ropes (s : State) (i : Nat) (f : Core → Core) : (modCore s i f).ropes = s.ropes := rfl
@[simp] theorem modCore_ctxs (s : State) (i : Nat) (f : Core → Core) : (modCore s i f).ctxs = s.ctxs := rfl
@[simp] theorem modCore_eps (s : State) (i : Nat) (f : Core → Core) : (modCore s i f).eps = s.eps := rfl
@[simp] theorem modCore_launches (s : State) (i : Nat) (f : Core → Core) : (modCore s i f).launches = s.launches := rfl
@[simp] theorem modCore_groups (s : State) (i : Nat) (f : Core → Core) : (modCore s i f).groups = s.groups := rfl
@[simp] theorem modCore_blocks (s : State) (i : Nat) (f : Core → Core) : (modCore s i f).blocks = s.blocks := rfl
@[simp] theorem modCore_waves (s : State) (i : Nat) (f : Core → Core) : (modCore s i f).waves = s.waves := rfl
@[simp] theorem modCore_offers (s : State) (i : Nat) (f : Core → Core) : (modCore s i f).offers = s.offers := rfl
@[simp] theorem modCore_away (s : State) (i : Nat) (f : Core → Core) : (modCore s i f).away = s.away := rfl
@[simp] theorem modCore_irqs (s : State) (i : Nat) (f : Core → Core) : (modCore s i f).irqs = s.irqs := rfl
@[simp] theorem modCore_irqSent (s : State) (i : Nat) (f : Core → Core) : (modCore s i f).irqSent = s.irqSent := rfl
@[simp] theorem modCore_picks (s : State) (i : Nat) (f : Core → Core) : (modCore s i f).picks = s.picks := rfl
@[simp] theorem modCore_agenda (s : State) (i : Nat) (f : Core → Core) : (modCore s i f).agenda = s.agenda := rfl
@[simp] theorem modCore_cur (s : State) (i : Nat) (f : Core → Core) : (modCore s i f).cur = s.cur := rfl
@[simp] theorem modCore_fresh (s : State) (i : Nat) (f : Core → Core) : (modCore s i f).fresh = s.fresh := rfl
@[simp] theorem modCore_nextId (s : State) (i : Nat) (f : Core → Core) : (modCore s i f).nextId = s.nextId := rfl
@[simp] theorem modCore_hostData (s : State) (i : Nat) (f : Core → Core) : (modCore s i f).hostData = s.hostData := rfl

/-! modSlice changes only the field slices. -/

@[simp] theorem modSlice_now (s : State) (i : Nat) (f : Slice → Slice) : (modSlice s i f).now = s.now := rfl
@[simp] theorem modSlice_skew (s : State) (i : Nat) (f : Slice → Slice) : (modSlice s i f).skew = s.skew := rfl
@[simp] theorem modSlice_readMax (s : State) (i : Nat) (f : Slice → Slice) : (modSlice s i f).readMax = s.readMax := rfl
@[simp] theorem modSlice_dev (s : State) (i : Nat) (f : Slice → Slice) : (modSlice s i f).dev = s.dev := rfl
@[simp] theorem modSlice_mem (s : State) (i : Nat) (f : Slice → Slice) : (modSlice s i f).mem = s.mem := rfl
@[simp] theorem modSlice_poison (s : State) (i : Nat) (f : Slice → Slice) : (modSlice s i f).poison = s.poison := rfl
@[simp] theorem modSlice_lease (s : State) (i : Nat) (f : Slice → Slice) : (modSlice s i f).lease = s.lease := rfl
@[simp] theorem modSlice_l1 (s : State) (i : Nat) (f : Slice → Slice) : (modSlice s i f).l1 = s.l1 := rfl
@[simp] theorem modSlice_icache (s : State) (i : Nat) (f : Slice → Slice) : (modSlice s i f).icache = s.icache := rfl
@[simp] theorem modSlice_fetches (s : State) (i : Nat) (f : Slice → Slice) : (modSlice s i f).fetches = s.fetches := rfl
@[simp] theorem modSlice_walks (s : State) (i : Nat) (f : Slice → Slice) : (modSlice s i f).walks = s.walks := rfl
@[simp] theorem modSlice_hw (s : State) (i : Nat) (f : Slice → Slice) : (modSlice s i f).hw = s.hw := rfl
@[simp] theorem modSlice_ops (s : State) (i : Nat) (f : Slice → Slice) : (modSlice s i f).ops = s.ops := rfl
@[simp] theorem modSlice_peerMons (s : State) (i : Nat) (f : Slice → Slice) : (modSlice s i f).peerMons = s.peerMons := rfl
@[simp] theorem modSlice_ropes (s : State) (i : Nat) (f : Slice → Slice) : (modSlice s i f).ropes = s.ropes := rfl
@[simp] theorem modSlice_cores (s : State) (i : Nat) (f : Slice → Slice) : (modSlice s i f).cores = s.cores := rfl
@[simp] theorem modSlice_ctxs (s : State) (i : Nat) (f : Slice → Slice) : (modSlice s i f).ctxs = s.ctxs := rfl
@[simp] theorem modSlice_eps (s : State) (i : Nat) (f : Slice → Slice) : (modSlice s i f).eps = s.eps := rfl
@[simp] theorem modSlice_launches (s : State) (i : Nat) (f : Slice → Slice) : (modSlice s i f).launches = s.launches := rfl
@[simp] theorem modSlice_groups (s : State) (i : Nat) (f : Slice → Slice) : (modSlice s i f).groups = s.groups := rfl
@[simp] theorem modSlice_blocks (s : State) (i : Nat) (f : Slice → Slice) : (modSlice s i f).blocks = s.blocks := rfl
@[simp] theorem modSlice_waves (s : State) (i : Nat) (f : Slice → Slice) : (modSlice s i f).waves = s.waves := rfl
@[simp] theorem modSlice_offers (s : State) (i : Nat) (f : Slice → Slice) : (modSlice s i f).offers = s.offers := rfl
@[simp] theorem modSlice_away (s : State) (i : Nat) (f : Slice → Slice) : (modSlice s i f).away = s.away := rfl
@[simp] theorem modSlice_irqs (s : State) (i : Nat) (f : Slice → Slice) : (modSlice s i f).irqs = s.irqs := rfl
@[simp] theorem modSlice_irqSent (s : State) (i : Nat) (f : Slice → Slice) : (modSlice s i f).irqSent = s.irqSent := rfl
@[simp] theorem modSlice_picks (s : State) (i : Nat) (f : Slice → Slice) : (modSlice s i f).picks = s.picks := rfl
@[simp] theorem modSlice_agenda (s : State) (i : Nat) (f : Slice → Slice) : (modSlice s i f).agenda = s.agenda := rfl
@[simp] theorem modSlice_cur (s : State) (i : Nat) (f : Slice → Slice) : (modSlice s i f).cur = s.cur := rfl
@[simp] theorem modSlice_fresh (s : State) (i : Nat) (f : Slice → Slice) : (modSlice s i f).fresh = s.fresh := rfl
@[simp] theorem modSlice_nextId (s : State) (i : Nat) (f : Slice → Slice) : (modSlice s i f).nextId = s.nextId := rfl
@[simp] theorem modSlice_hostData (s : State) (i : Nat) (f : Slice → Slice) : (modSlice s i f).hostData = s.hostData := rfl

/-! modEp changes only the field eps. -/

@[simp] theorem modEp_now (s : State) (i : Nat) (f : Episode → Episode) : (modEp s i f).now = s.now := rfl
@[simp] theorem modEp_skew (s : State) (i : Nat) (f : Episode → Episode) : (modEp s i f).skew = s.skew := rfl
@[simp] theorem modEp_readMax (s : State) (i : Nat) (f : Episode → Episode) : (modEp s i f).readMax = s.readMax := rfl
@[simp] theorem modEp_dev (s : State) (i : Nat) (f : Episode → Episode) : (modEp s i f).dev = s.dev := rfl
@[simp] theorem modEp_mem (s : State) (i : Nat) (f : Episode → Episode) : (modEp s i f).mem = s.mem := rfl
@[simp] theorem modEp_poison (s : State) (i : Nat) (f : Episode → Episode) : (modEp s i f).poison = s.poison := rfl
@[simp] theorem modEp_lease (s : State) (i : Nat) (f : Episode → Episode) : (modEp s i f).lease = s.lease := rfl
@[simp] theorem modEp_l1 (s : State) (i : Nat) (f : Episode → Episode) : (modEp s i f).l1 = s.l1 := rfl
@[simp] theorem modEp_icache (s : State) (i : Nat) (f : Episode → Episode) : (modEp s i f).icache = s.icache := rfl
@[simp] theorem modEp_fetches (s : State) (i : Nat) (f : Episode → Episode) : (modEp s i f).fetches = s.fetches := rfl
@[simp] theorem modEp_walks (s : State) (i : Nat) (f : Episode → Episode) : (modEp s i f).walks = s.walks := rfl
@[simp] theorem modEp_hw (s : State) (i : Nat) (f : Episode → Episode) : (modEp s i f).hw = s.hw := rfl
@[simp] theorem modEp_ops (s : State) (i : Nat) (f : Episode → Episode) : (modEp s i f).ops = s.ops := rfl
@[simp] theorem modEp_slices (s : State) (i : Nat) (f : Episode → Episode) : (modEp s i f).slices = s.slices := rfl
@[simp] theorem modEp_peerMons (s : State) (i : Nat) (f : Episode → Episode) : (modEp s i f).peerMons = s.peerMons := rfl
@[simp] theorem modEp_ropes (s : State) (i : Nat) (f : Episode → Episode) : (modEp s i f).ropes = s.ropes := rfl
@[simp] theorem modEp_cores (s : State) (i : Nat) (f : Episode → Episode) : (modEp s i f).cores = s.cores := rfl
@[simp] theorem modEp_ctxs (s : State) (i : Nat) (f : Episode → Episode) : (modEp s i f).ctxs = s.ctxs := rfl
@[simp] theorem modEp_launches (s : State) (i : Nat) (f : Episode → Episode) : (modEp s i f).launches = s.launches := rfl
@[simp] theorem modEp_groups (s : State) (i : Nat) (f : Episode → Episode) : (modEp s i f).groups = s.groups := rfl
@[simp] theorem modEp_blocks (s : State) (i : Nat) (f : Episode → Episode) : (modEp s i f).blocks = s.blocks := rfl
@[simp] theorem modEp_waves (s : State) (i : Nat) (f : Episode → Episode) : (modEp s i f).waves = s.waves := rfl
@[simp] theorem modEp_offers (s : State) (i : Nat) (f : Episode → Episode) : (modEp s i f).offers = s.offers := rfl
@[simp] theorem modEp_away (s : State) (i : Nat) (f : Episode → Episode) : (modEp s i f).away = s.away := rfl
@[simp] theorem modEp_irqs (s : State) (i : Nat) (f : Episode → Episode) : (modEp s i f).irqs = s.irqs := rfl
@[simp] theorem modEp_irqSent (s : State) (i : Nat) (f : Episode → Episode) : (modEp s i f).irqSent = s.irqSent := rfl
@[simp] theorem modEp_picks (s : State) (i : Nat) (f : Episode → Episode) : (modEp s i f).picks = s.picks := rfl
@[simp] theorem modEp_agenda (s : State) (i : Nat) (f : Episode → Episode) : (modEp s i f).agenda = s.agenda := rfl
@[simp] theorem modEp_cur (s : State) (i : Nat) (f : Episode → Episode) : (modEp s i f).cur = s.cur := rfl
@[simp] theorem modEp_fresh (s : State) (i : Nat) (f : Episode → Episode) : (modEp s i f).fresh = s.fresh := rfl
@[simp] theorem modEp_nextId (s : State) (i : Nat) (f : Episode → Episode) : (modEp s i f).nextId = s.nextId := rfl
@[simp] theorem modEp_hostData (s : State) (i : Nat) (f : Episode → Episode) : (modEp s i f).hostData = s.hostData := rfl

/-! modDev changes only the field dev. -/

@[simp] theorem modDev_now (s : State) (f : Dev → Dev) : (modDev s f).now = s.now := rfl
@[simp] theorem modDev_skew (s : State) (f : Dev → Dev) : (modDev s f).skew = s.skew := rfl
@[simp] theorem modDev_readMax (s : State) (f : Dev → Dev) : (modDev s f).readMax = s.readMax := rfl
@[simp] theorem modDev_mem (s : State) (f : Dev → Dev) : (modDev s f).mem = s.mem := rfl
@[simp] theorem modDev_poison (s : State) (f : Dev → Dev) : (modDev s f).poison = s.poison := rfl
@[simp] theorem modDev_lease (s : State) (f : Dev → Dev) : (modDev s f).lease = s.lease := rfl
@[simp] theorem modDev_l1 (s : State) (f : Dev → Dev) : (modDev s f).l1 = s.l1 := rfl
@[simp] theorem modDev_icache (s : State) (f : Dev → Dev) : (modDev s f).icache = s.icache := rfl
@[simp] theorem modDev_fetches (s : State) (f : Dev → Dev) : (modDev s f).fetches = s.fetches := rfl
@[simp] theorem modDev_walks (s : State) (f : Dev → Dev) : (modDev s f).walks = s.walks := rfl
@[simp] theorem modDev_hw (s : State) (f : Dev → Dev) : (modDev s f).hw = s.hw := rfl
@[simp] theorem modDev_ops (s : State) (f : Dev → Dev) : (modDev s f).ops = s.ops := rfl
@[simp] theorem modDev_slices (s : State) (f : Dev → Dev) : (modDev s f).slices = s.slices := rfl
@[simp] theorem modDev_peerMons (s : State) (f : Dev → Dev) : (modDev s f).peerMons = s.peerMons := rfl
@[simp] theorem modDev_ropes (s : State) (f : Dev → Dev) : (modDev s f).ropes = s.ropes := rfl
@[simp] theorem modDev_cores (s : State) (f : Dev → Dev) : (modDev s f).cores = s.cores := rfl
@[simp] theorem modDev_ctxs (s : State) (f : Dev → Dev) : (modDev s f).ctxs = s.ctxs := rfl
@[simp] theorem modDev_eps (s : State) (f : Dev → Dev) : (modDev s f).eps = s.eps := rfl
@[simp] theorem modDev_launches (s : State) (f : Dev → Dev) : (modDev s f).launches = s.launches := rfl
@[simp] theorem modDev_groups (s : State) (f : Dev → Dev) : (modDev s f).groups = s.groups := rfl
@[simp] theorem modDev_blocks (s : State) (f : Dev → Dev) : (modDev s f).blocks = s.blocks := rfl
@[simp] theorem modDev_waves (s : State) (f : Dev → Dev) : (modDev s f).waves = s.waves := rfl
@[simp] theorem modDev_offers (s : State) (f : Dev → Dev) : (modDev s f).offers = s.offers := rfl
@[simp] theorem modDev_away (s : State) (f : Dev → Dev) : (modDev s f).away = s.away := rfl
@[simp] theorem modDev_irqs (s : State) (f : Dev → Dev) : (modDev s f).irqs = s.irqs := rfl
@[simp] theorem modDev_irqSent (s : State) (f : Dev → Dev) : (modDev s f).irqSent = s.irqSent := rfl
@[simp] theorem modDev_picks (s : State) (f : Dev → Dev) : (modDev s f).picks = s.picks := rfl
@[simp] theorem modDev_agenda (s : State) (f : Dev → Dev) : (modDev s f).agenda = s.agenda := rfl
@[simp] theorem modDev_cur (s : State) (f : Dev → Dev) : (modDev s f).cur = s.cur := rfl
@[simp] theorem modDev_fresh (s : State) (f : Dev → Dev) : (modDev s f).fresh = s.fresh := rfl
@[simp] theorem modDev_nextId (s : State) (f : Dev → Dev) : (modDev s f).nextId = s.nextId := rfl
@[simp] theorem modDev_hostData (s : State) (f : Dev → Dev) : (modDev s f).hostData = s.hostData := rfl

/-! wrByte changes only the field mem. -/

@[simp] theorem wrByte_now (s : State) (pa : Nat) (b : Byte) : (wrByte s pa b).now = s.now := rfl
@[simp] theorem wrByte_skew (s : State) (pa : Nat) (b : Byte) : (wrByte s pa b).skew = s.skew := rfl
@[simp] theorem wrByte_readMax (s : State) (pa : Nat) (b : Byte) : (wrByte s pa b).readMax = s.readMax := rfl
@[simp] theorem wrByte_dev (s : State) (pa : Nat) (b : Byte) : (wrByte s pa b).dev = s.dev := rfl
@[simp] theorem wrByte_poison (s : State) (pa : Nat) (b : Byte) : (wrByte s pa b).poison = s.poison := rfl
@[simp] theorem wrByte_lease (s : State) (pa : Nat) (b : Byte) : (wrByte s pa b).lease = s.lease := rfl
@[simp] theorem wrByte_l1 (s : State) (pa : Nat) (b : Byte) : (wrByte s pa b).l1 = s.l1 := rfl
@[simp] theorem wrByte_icache (s : State) (pa : Nat) (b : Byte) : (wrByte s pa b).icache = s.icache := rfl
@[simp] theorem wrByte_fetches (s : State) (pa : Nat) (b : Byte) : (wrByte s pa b).fetches = s.fetches := rfl
@[simp] theorem wrByte_walks (s : State) (pa : Nat) (b : Byte) : (wrByte s pa b).walks = s.walks := rfl
@[simp] theorem wrByte_hw (s : State) (pa : Nat) (b : Byte) : (wrByte s pa b).hw = s.hw := rfl
@[simp] theorem wrByte_ops (s : State) (pa : Nat) (b : Byte) : (wrByte s pa b).ops = s.ops := rfl
@[simp] theorem wrByte_slices (s : State) (pa : Nat) (b : Byte) : (wrByte s pa b).slices = s.slices := rfl
@[simp] theorem wrByte_peerMons (s : State) (pa : Nat) (b : Byte) : (wrByte s pa b).peerMons = s.peerMons := rfl
@[simp] theorem wrByte_ropes (s : State) (pa : Nat) (b : Byte) : (wrByte s pa b).ropes = s.ropes := rfl
@[simp] theorem wrByte_cores (s : State) (pa : Nat) (b : Byte) : (wrByte s pa b).cores = s.cores := rfl
@[simp] theorem wrByte_ctxs (s : State) (pa : Nat) (b : Byte) : (wrByte s pa b).ctxs = s.ctxs := rfl
@[simp] theorem wrByte_eps (s : State) (pa : Nat) (b : Byte) : (wrByte s pa b).eps = s.eps := rfl
@[simp] theorem wrByte_launches (s : State) (pa : Nat) (b : Byte) : (wrByte s pa b).launches = s.launches := rfl
@[simp] theorem wrByte_groups (s : State) (pa : Nat) (b : Byte) : (wrByte s pa b).groups = s.groups := rfl
@[simp] theorem wrByte_blocks (s : State) (pa : Nat) (b : Byte) : (wrByte s pa b).blocks = s.blocks := rfl
@[simp] theorem wrByte_waves (s : State) (pa : Nat) (b : Byte) : (wrByte s pa b).waves = s.waves := rfl
@[simp] theorem wrByte_offers (s : State) (pa : Nat) (b : Byte) : (wrByte s pa b).offers = s.offers := rfl
@[simp] theorem wrByte_away (s : State) (pa : Nat) (b : Byte) : (wrByte s pa b).away = s.away := rfl
@[simp] theorem wrByte_irqs (s : State) (pa : Nat) (b : Byte) : (wrByte s pa b).irqs = s.irqs := rfl
@[simp] theorem wrByte_irqSent (s : State) (pa : Nat) (b : Byte) : (wrByte s pa b).irqSent = s.irqSent := rfl
@[simp] theorem wrByte_picks (s : State) (pa : Nat) (b : Byte) : (wrByte s pa b).picks = s.picks := rfl
@[simp] theorem wrByte_agenda (s : State) (pa : Nat) (b : Byte) : (wrByte s pa b).agenda = s.agenda := rfl
@[simp] theorem wrByte_cur (s : State) (pa : Nat) (b : Byte) : (wrByte s pa b).cur = s.cur := rfl
@[simp] theorem wrByte_fresh (s : State) (pa : Nat) (b : Byte) : (wrByte s pa b).fresh = s.fresh := rfl
@[simp] theorem wrByte_nextId (s : State) (pa : Nat) (b : Byte) : (wrByte s pa b).nextId = s.nextId := rfl
@[simp] theorem wrByte_hostData (s : State) (pa : Nat) (b : Byte) : (wrByte s pa b).hostData = s.hostData := rfl

/-! putLine changes only the field l1. -/

@[simp] theorem putLine_now (s : State) (c l : Nat) (x : Line) : (putLine s c l x).now = s.now := rfl
@[simp] theorem putLine_skew (s : State) (c l : Nat) (x : Line) : (putLine s c l x).skew = s.skew := rfl
@[simp] theorem putLine_readMax (s : State) (c l : Nat) (x : Line) : (putLine s c l x).readMax = s.readMax := rfl
@[simp] theorem putLine_dev (s : State) (c l : Nat) (x : Line) : (putLine s c l x).dev = s.dev := rfl
@[simp] theorem putLine_mem (s : State) (c l : Nat) (x : Line) : (putLine s c l x).mem = s.mem := rfl
@[simp] theorem putLine_poison (s : State) (c l : Nat) (x : Line) : (putLine s c l x).poison = s.poison := rfl
@[simp] theorem putLine_lease (s : State) (c l : Nat) (x : Line) : (putLine s c l x).lease = s.lease := rfl
@[simp] theorem putLine_icache (s : State) (c l : Nat) (x : Line) : (putLine s c l x).icache = s.icache := rfl
@[simp] theorem putLine_fetches (s : State) (c l : Nat) (x : Line) : (putLine s c l x).fetches = s.fetches := rfl
@[simp] theorem putLine_walks (s : State) (c l : Nat) (x : Line) : (putLine s c l x).walks = s.walks := rfl
@[simp] theorem putLine_hw (s : State) (c l : Nat) (x : Line) : (putLine s c l x).hw = s.hw := rfl
@[simp] theorem putLine_ops (s : State) (c l : Nat) (x : Line) : (putLine s c l x).ops = s.ops := rfl
@[simp] theorem putLine_slices (s : State) (c l : Nat) (x : Line) : (putLine s c l x).slices = s.slices := rfl
@[simp] theorem putLine_peerMons (s : State) (c l : Nat) (x : Line) : (putLine s c l x).peerMons = s.peerMons := rfl
@[simp] theorem putLine_ropes (s : State) (c l : Nat) (x : Line) : (putLine s c l x).ropes = s.ropes := rfl
@[simp] theorem putLine_cores (s : State) (c l : Nat) (x : Line) : (putLine s c l x).cores = s.cores := rfl
@[simp] theorem putLine_ctxs (s : State) (c l : Nat) (x : Line) : (putLine s c l x).ctxs = s.ctxs := rfl
@[simp] theorem putLine_eps (s : State) (c l : Nat) (x : Line) : (putLine s c l x).eps = s.eps := rfl
@[simp] theorem putLine_launches (s : State) (c l : Nat) (x : Line) : (putLine s c l x).launches = s.launches := rfl
@[simp] theorem putLine_groups (s : State) (c l : Nat) (x : Line) : (putLine s c l x).groups = s.groups := rfl
@[simp] theorem putLine_blocks (s : State) (c l : Nat) (x : Line) : (putLine s c l x).blocks = s.blocks := rfl
@[simp] theorem putLine_waves (s : State) (c l : Nat) (x : Line) : (putLine s c l x).waves = s.waves := rfl
@[simp] theorem putLine_offers (s : State) (c l : Nat) (x : Line) : (putLine s c l x).offers = s.offers := rfl
@[simp] theorem putLine_away (s : State) (c l : Nat) (x : Line) : (putLine s c l x).away = s.away := rfl
@[simp] theorem putLine_irqs (s : State) (c l : Nat) (x : Line) : (putLine s c l x).irqs = s.irqs := rfl
@[simp] theorem putLine_irqSent (s : State) (c l : Nat) (x : Line) : (putLine s c l x).irqSent = s.irqSent := rfl
@[simp] theorem putLine_picks (s : State) (c l : Nat) (x : Line) : (putLine s c l x).picks = s.picks := rfl
@[simp] theorem putLine_agenda (s : State) (c l : Nat) (x : Line) : (putLine s c l x).agenda = s.agenda := rfl
@[simp] theorem putLine_cur (s : State) (c l : Nat) (x : Line) : (putLine s c l x).cur = s.cur := rfl
@[simp] theorem putLine_fresh (s : State) (c l : Nat) (x : Line) : (putLine s c l x).fresh = s.fresh := rfl
@[simp] theorem putLine_nextId (s : State) (c l : Nat) (x : Line) : (putLine s c l x).nextId = s.nextId := rfl
@[simp] theorem putLine_hostData (s : State) (c l : Nat) (x : Line) : (putLine s c l x).hostData = s.hostData := rfl

/-! dropLine changes only the field l1. -/

@[simp] theorem dropLine_now (s : State) (c l : Nat) : (dropLine s c l).now = s.now := rfl
@[simp] theorem dropLine_skew (s : State) (c l : Nat) : (dropLine s c l).skew = s.skew := rfl
@[simp] theorem dropLine_readMax (s : State) (c l : Nat) : (dropLine s c l).readMax = s.readMax := rfl
@[simp] theorem dropLine_dev (s : State) (c l : Nat) : (dropLine s c l).dev = s.dev := rfl
@[simp] theorem dropLine_mem (s : State) (c l : Nat) : (dropLine s c l).mem = s.mem := rfl
@[simp] theorem dropLine_poison (s : State) (c l : Nat) : (dropLine s c l).poison = s.poison := rfl
@[simp] theorem dropLine_lease (s : State) (c l : Nat) : (dropLine s c l).lease = s.lease := rfl
@[simp] theorem dropLine_icache (s : State) (c l : Nat) : (dropLine s c l).icache = s.icache := rfl
@[simp] theorem dropLine_fetches (s : State) (c l : Nat) : (dropLine s c l).fetches = s.fetches := rfl
@[simp] theorem dropLine_walks (s : State) (c l : Nat) : (dropLine s c l).walks = s.walks := rfl
@[simp] theorem dropLine_hw (s : State) (c l : Nat) : (dropLine s c l).hw = s.hw := rfl
@[simp] theorem dropLine_ops (s : State) (c l : Nat) : (dropLine s c l).ops = s.ops := rfl
@[simp] theorem dropLine_slices (s : State) (c l : Nat) : (dropLine s c l).slices = s.slices := rfl
@[simp] theorem dropLine_peerMons (s : State) (c l : Nat) : (dropLine s c l).peerMons = s.peerMons := rfl
@[simp] theorem dropLine_ropes (s : State) (c l : Nat) : (dropLine s c l).ropes = s.ropes := rfl
@[simp] theorem dropLine_cores (s : State) (c l : Nat) : (dropLine s c l).cores = s.cores := rfl
@[simp] theorem dropLine_ctxs (s : State) (c l : Nat) : (dropLine s c l).ctxs = s.ctxs := rfl
@[simp] theorem dropLine_eps (s : State) (c l : Nat) : (dropLine s c l).eps = s.eps := rfl
@[simp] theorem dropLine_launches (s : State) (c l : Nat) : (dropLine s c l).launches = s.launches := rfl
@[simp] theorem dropLine_groups (s : State) (c l : Nat) : (dropLine s c l).groups = s.groups := rfl
@[simp] theorem dropLine_blocks (s : State) (c l : Nat) : (dropLine s c l).blocks = s.blocks := rfl
@[simp] theorem dropLine_waves (s : State) (c l : Nat) : (dropLine s c l).waves = s.waves := rfl
@[simp] theorem dropLine_offers (s : State) (c l : Nat) : (dropLine s c l).offers = s.offers := rfl
@[simp] theorem dropLine_away (s : State) (c l : Nat) : (dropLine s c l).away = s.away := rfl
@[simp] theorem dropLine_irqs (s : State) (c l : Nat) : (dropLine s c l).irqs = s.irqs := rfl
@[simp] theorem dropLine_irqSent (s : State) (c l : Nat) : (dropLine s c l).irqSent = s.irqSent := rfl
@[simp] theorem dropLine_picks (s : State) (c l : Nat) : (dropLine s c l).picks = s.picks := rfl
@[simp] theorem dropLine_agenda (s : State) (c l : Nat) : (dropLine s c l).agenda = s.agenda := rfl
@[simp] theorem dropLine_cur (s : State) (c l : Nat) : (dropLine s c l).cur = s.cur := rfl
@[simp] theorem dropLine_fresh (s : State) (c l : Nat) : (dropLine s c l).fresh = s.fresh := rfl
@[simp] theorem dropLine_nextId (s : State) (c l : Nat) : (dropLine s c l).nextId = s.nextId := rfl
@[simp] theorem dropLine_hostData (s : State) (c l : Nat) : (dropLine s c l).hostData = s.hostData := rfl

/-! setBody changes only the field ops. -/

@[simp] theorem setBody_now (s : State) (i : Nat) (b : Body) : (setBody s i b).now = s.now := rfl
@[simp] theorem setBody_skew (s : State) (i : Nat) (b : Body) : (setBody s i b).skew = s.skew := rfl
@[simp] theorem setBody_readMax (s : State) (i : Nat) (b : Body) : (setBody s i b).readMax = s.readMax := rfl
@[simp] theorem setBody_dev (s : State) (i : Nat) (b : Body) : (setBody s i b).dev = s.dev := rfl
@[simp] theorem setBody_mem (s : State) (i : Nat) (b : Body) : (setBody s i b).mem = s.mem := rfl
@[simp] theorem setBody_poison (s : State) (i : Nat) (b : Body) : (setBody s i b).poison = s.poison := rfl
@[simp] theorem setBody_lease (s : State) (i : Nat) (b : Body) : (setBody s i b).lease = s.lease := rfl
@[simp] theorem setBody_l1 (s : State) (i : Nat) (b : Body) : (setBody s i b).l1 = s.l1 := rfl
@[simp] theorem setBody_icache (s : State) (i : Nat) (b : Body) : (setBody s i b).icache = s.icache := rfl
@[simp] theorem setBody_fetches (s : State) (i : Nat) (b : Body) : (setBody s i b).fetches = s.fetches := rfl
@[simp] theorem setBody_walks (s : State) (i : Nat) (b : Body) : (setBody s i b).walks = s.walks := rfl
@[simp] theorem setBody_hw (s : State) (i : Nat) (b : Body) : (setBody s i b).hw = s.hw := rfl
@[simp] theorem setBody_slices (s : State) (i : Nat) (b : Body) : (setBody s i b).slices = s.slices := rfl
@[simp] theorem setBody_peerMons (s : State) (i : Nat) (b : Body) : (setBody s i b).peerMons = s.peerMons := rfl
@[simp] theorem setBody_ropes (s : State) (i : Nat) (b : Body) : (setBody s i b).ropes = s.ropes := rfl
@[simp] theorem setBody_cores (s : State) (i : Nat) (b : Body) : (setBody s i b).cores = s.cores := rfl
@[simp] theorem setBody_ctxs (s : State) (i : Nat) (b : Body) : (setBody s i b).ctxs = s.ctxs := rfl
@[simp] theorem setBody_eps (s : State) (i : Nat) (b : Body) : (setBody s i b).eps = s.eps := rfl
@[simp] theorem setBody_launches (s : State) (i : Nat) (b : Body) : (setBody s i b).launches = s.launches := rfl
@[simp] theorem setBody_groups (s : State) (i : Nat) (b : Body) : (setBody s i b).groups = s.groups := rfl
@[simp] theorem setBody_blocks (s : State) (i : Nat) (b : Body) : (setBody s i b).blocks = s.blocks := rfl
@[simp] theorem setBody_waves (s : State) (i : Nat) (b : Body) : (setBody s i b).waves = s.waves := rfl
@[simp] theorem setBody_offers (s : State) (i : Nat) (b : Body) : (setBody s i b).offers = s.offers := rfl
@[simp] theorem setBody_away (s : State) (i : Nat) (b : Body) : (setBody s i b).away = s.away := rfl
@[simp] theorem setBody_irqs (s : State) (i : Nat) (b : Body) : (setBody s i b).irqs = s.irqs := rfl
@[simp] theorem setBody_irqSent (s : State) (i : Nat) (b : Body) : (setBody s i b).irqSent = s.irqSent := rfl
@[simp] theorem setBody_picks (s : State) (i : Nat) (b : Body) : (setBody s i b).picks = s.picks := rfl
@[simp] theorem setBody_agenda (s : State) (i : Nat) (b : Body) : (setBody s i b).agenda = s.agenda := rfl
@[simp] theorem setBody_cur (s : State) (i : Nat) (b : Body) : (setBody s i b).cur = s.cur := rfl
@[simp] theorem setBody_fresh (s : State) (i : Nat) (b : Body) : (setBody s i b).fresh = s.fresh := rfl
@[simp] theorem setBody_nextId (s : State) (i : Nat) (b : Body) : (setBody s i b).nextId = s.nextId := rfl
@[simp] theorem setBody_hostData (s : State) (i : Nat) (b : Body) : (setBody s i b).hostData = s.hostData := rfl

/-! raiseIrq changes only the field irqs. -/

@[simp] theorem raiseIrq_now (s : State) (c k t : Nat) : (raiseIrq s c k t).now = s.now := rfl
@[simp] theorem raiseIrq_skew (s : State) (c k t : Nat) : (raiseIrq s c k t).skew = s.skew := rfl
@[simp] theorem raiseIrq_readMax (s : State) (c k t : Nat) : (raiseIrq s c k t).readMax = s.readMax := rfl
@[simp] theorem raiseIrq_dev (s : State) (c k t : Nat) : (raiseIrq s c k t).dev = s.dev := rfl
@[simp] theorem raiseIrq_mem (s : State) (c k t : Nat) : (raiseIrq s c k t).mem = s.mem := rfl
@[simp] theorem raiseIrq_poison (s : State) (c k t : Nat) : (raiseIrq s c k t).poison = s.poison := rfl
@[simp] theorem raiseIrq_lease (s : State) (c k t : Nat) : (raiseIrq s c k t).lease = s.lease := rfl
@[simp] theorem raiseIrq_l1 (s : State) (c k t : Nat) : (raiseIrq s c k t).l1 = s.l1 := rfl
@[simp] theorem raiseIrq_icache (s : State) (c k t : Nat) : (raiseIrq s c k t).icache = s.icache := rfl
@[simp] theorem raiseIrq_fetches (s : State) (c k t : Nat) : (raiseIrq s c k t).fetches = s.fetches := rfl
@[simp] theorem raiseIrq_walks (s : State) (c k t : Nat) : (raiseIrq s c k t).walks = s.walks := rfl
@[simp] theorem raiseIrq_hw (s : State) (c k t : Nat) : (raiseIrq s c k t).hw = s.hw := rfl
@[simp] theorem raiseIrq_ops (s : State) (c k t : Nat) : (raiseIrq s c k t).ops = s.ops := rfl
@[simp] theorem raiseIrq_slices (s : State) (c k t : Nat) : (raiseIrq s c k t).slices = s.slices := rfl
@[simp] theorem raiseIrq_peerMons (s : State) (c k t : Nat) : (raiseIrq s c k t).peerMons = s.peerMons := rfl
@[simp] theorem raiseIrq_ropes (s : State) (c k t : Nat) : (raiseIrq s c k t).ropes = s.ropes := rfl
@[simp] theorem raiseIrq_cores (s : State) (c k t : Nat) : (raiseIrq s c k t).cores = s.cores := rfl
@[simp] theorem raiseIrq_ctxs (s : State) (c k t : Nat) : (raiseIrq s c k t).ctxs = s.ctxs := rfl
@[simp] theorem raiseIrq_eps (s : State) (c k t : Nat) : (raiseIrq s c k t).eps = s.eps := rfl
@[simp] theorem raiseIrq_launches (s : State) (c k t : Nat) : (raiseIrq s c k t).launches = s.launches := rfl
@[simp] theorem raiseIrq_groups (s : State) (c k t : Nat) : (raiseIrq s c k t).groups = s.groups := rfl
@[simp] theorem raiseIrq_blocks (s : State) (c k t : Nat) : (raiseIrq s c k t).blocks = s.blocks := rfl
@[simp] theorem raiseIrq_waves (s : State) (c k t : Nat) : (raiseIrq s c k t).waves = s.waves := rfl
@[simp] theorem raiseIrq_offers (s : State) (c k t : Nat) : (raiseIrq s c k t).offers = s.offers := rfl
@[simp] theorem raiseIrq_away (s : State) (c k t : Nat) : (raiseIrq s c k t).away = s.away := rfl
@[simp] theorem raiseIrq_irqSent (s : State) (c k t : Nat) : (raiseIrq s c k t).irqSent = s.irqSent := rfl
@[simp] theorem raiseIrq_picks (s : State) (c k t : Nat) : (raiseIrq s c k t).picks = s.picks := rfl
@[simp] theorem raiseIrq_agenda (s : State) (c k t : Nat) : (raiseIrq s c k t).agenda = s.agenda := rfl
@[simp] theorem raiseIrq_cur (s : State) (c k t : Nat) : (raiseIrq s c k t).cur = s.cur := rfl
@[simp] theorem raiseIrq_fresh (s : State) (c k t : Nat) : (raiseIrq s c k t).fresh = s.fresh := rfl
@[simp] theorem raiseIrq_nextId (s : State) (c k t : Nat) : (raiseIrq s c k t).nextId = s.nextId := rfl
@[simp] theorem raiseIrq_hostData (s : State) (c k t : Nat) : (raiseIrq s c k t).hostData = s.hostData := rfl

end Sys2Proof.Machine
end

