-- ==== Sys2Proof/Laws/Table.lean ====
section
/-! SUPPORT. Sparse tables: what a read gives after each update, and that updates keep the keys strictly rising. -/

namespace Sys2Proof.Machine

variable {α : Type}

theorem tget_tdel_self (t : Tbl α) (k : Nat) : tget (tdel t k) k = none := by
  induction t with
  | nil => rfl
  | cons e r ih =>
    by_cases h : e.1 = k <;> simp_all [tdel, tget, List.filter]

theorem tget_tdel_ne (t : Tbl α) {k j : Nat} (h : j ≠ k) : tget (tdel t k) j = tget t j := by
  induction t with
  | nil => rfl
  | cons e r ih =>
    by_cases h1 : e.1 = k
    · have : ¬ k = j := fun x => h x.symm
      simp_all [tdel, tget, List.filter]
    · simp_all [tdel, tget, List.filter]

theorem tget_tins_self (t : Tbl α) (k : Nat) (v : α) (h : tget t k = none) : tget (tins k v t) k = some v := by
  induction t with
  | nil => simp [tins, tget]
  | cons e r ih =>
    simp only [tins]
    split
    · simp [tget]
    · have : e.1 ≠ k := by intro x; simp [tget, x] at h
      simp_all [tget]

theorem tget_tins_ne (t : Tbl α) {k j : Nat} (v : α) (h : j ≠ k) : tget (tins k v t) j = tget t j := by
  have h' : k ≠ j := fun x => h x.symm
  induction t with
  | nil => simp [tins, tget, h']
  | cons e r ih =>
    simp only [tins]
    split
    · simp [tget, h']
    · simp [tget, ih]

@[simp] theorem tget_tput_self (t : Tbl α) (k : Nat) (v : α) : tget (tput t k v) k = some v :=
  tget_tins_self _ _ _ (tget_tdel_self t k)

theorem tget_tput_ne (t : Tbl α) {k j : Nat} (v : α) (h : j ≠ k) : tget (tput t k v) j = tget t j := by
  rw [tput, tget_tins_ne _ _ h, tget_tdel_ne _ h]

theorem tget_tput (t : Tbl α) (k j : Nat) (v : α) : tget (tput t k v) j = if j = k then some v else tget t j := by
  by_cases h : j = k
  · subst h; simp
  · simp [h, tget_tput_ne]

theorem tget_tmod_self (t : Tbl α) (k : Nat) (f : α → α) : tget (tmod t k f) k = (tget t k).map f := by
  unfold tmod; cases h : tget t k <;> simp [h]

theorem tget_tmod_ne (t : Tbl α) {k j : Nat} (f : α → α) (h : j ≠ k) : tget (tmod t k f) j = tget t j := by
  unfold tmod; cases tget t k <;> simp [tget_tput_ne _ _ h]

theorem tgetD_tset_self [DecidableEq α] (d : α) (t : Tbl α) (k : Nat) (v : α) : tgetD (tset d t k v) k d = v := by
  unfold tset tgetD; split
  · rw [tget_tdel_self]; simp_all
  · simp

theorem tgetD_tset_ne [DecidableEq α] (d : α) (t : Tbl α) {k j : Nat} (v : α) (h : j ≠ k) :
    tgetD (tset d t k v) j d = tgetD t j d := by
  unfold tset tgetD; split
  · rw [tget_tdel_ne _ h]
  · rw [tget_tput_ne _ _ h]

theorem tgetD_tset [DecidableEq α] (d : α) (t : Tbl α) (k j : Nat) (v : α) :
    tgetD (tset d t k v) j d = if j = k then v else tgetD t j d := by
  by_cases h : j = k
  · subst h; simp [tgetD_tset_self]
  · simp [h, tgetD_tset_ne]

theorem tdel_tins (t : Tbl α) (k : Nat) (v : α) (h : ∀ e ∈ t, e.1 ≠ k) : tdel (tins k v t) k = t := by
  have hd : ∀ r : Tbl α, (∀ e ∈ r, e.1 ≠ k) → tdel r k = r := by
    intro r hr; exact List.filter_eq_self.2 (fun e he => by simpa using hr e he)
  induction t with
  | nil => simp [tins, tdel]
  | cons e r ih =>
    simp only [tins]
    split
    · have := hd (e :: r) h
      simpa [tdel] using this
    · have he : e.1 ≠ k := h e (by simp)
      have := ih (fun x hx => h x (by simp [hx]))
      unfold tdel at this ⊢
      rw [List.filter_cons_of_pos (by simpa using he), this]

theorem tput_tput (t : Tbl α) (k : Nat) (u v : α) : tput (tput t k u) k v = tput t k v := by
  unfold tput
  rw [tdel_tins]
  intro e he; simpa [tdel] using (List.mem_filter.1 he).2

theorem tmod_tmod (t : Tbl α) (k : Nat) (f g : α → α) : tmod (tmod t k f) k g = tmod t k (fun x => g (f x)) := by
  unfold tmod
  cases h : tget t k with
  | none => simp [h]
  | some v => simp [tput_tput]

/-! Order of the keys. -/

/-- Every key of the table is above k. -/
def above (k : Nat) (t : Tbl α) : Prop := ∀ e ∈ t, k < e.1

theorem tsorted_cons (e : Nat × α) (r : Tbl α) : tsorted (e :: r) = true ↔ above e.1 r ∧ tsorted r = true := by
  induction r generalizing e with
  | nil => simp [tsorted, above]
  | cons x r ih =>
    rw [tsorted, Bool.and_eq_true, decide_eq_true_eq, ih x]
    constructor
    · rintro ⟨h, ha, hs⟩
      refine ⟨?_, ha, hs⟩
      intro y hy
      rcases List.mem_cons.1 hy with rfl | hy
      · exact h
      · exact Nat.lt_trans h (ha y hy)
    · rintro ⟨ha, hx, hs⟩
      exact ⟨ha x (by simp), hx, hs⟩

theorem tsorted_tdel (t : Tbl α) (k : Nat) (h : tsorted t = true) : tsorted (tdel t k) = true := by
  induction t with
  | nil => rfl
  | cons e r ih =>
    rw [tsorted_cons] at h
    have hr := ih h.2
    by_cases hk : e.1 = k
    · simpa [tdel, List.filter, hk] using hr
    · have : tdel (e :: r) k = e :: tdel r k := by simp [tdel, List.filter, hk]
      rw [this, tsorted_cons]
      exact ⟨fun x hx => h.1 x ((List.mem_filter.1 hx).1), hr⟩

theorem mem_tins (k : Nat) (v : α) (t : Tbl α) (e : Nat × α) : e ∈ tins k v t → e = (k, v) ∨ e ∈ t := by
  induction t with
  | nil => simp [tins]
  | cons x r ih =>
    simp only [tins]
    split
    · simp
    · intro h
      rcases List.mem_cons.1 h with rfl | h
      · exact .inr (by simp)
      · rcases ih h with h | h
        · exact .inl h
        · exact .inr (by simp [h])

theorem tsorted_tins (k : Nat) (v : α) (t : Tbl α) (h : tsorted t = true) (hk : ∀ e ∈ t, e.1 ≠ k) :
    tsorted (tins k v t) = true := by
  induction t with
  | nil => rfl
  | cons e r ih =>
    have hs := h
    rw [tsorted_cons] at h
    simp only [tins]
    split
    · rename_i hlt
      rw [tsorted_cons]
      refine ⟨?_, hs⟩
      intro y hy
      rcases List.mem_cons.1 hy with rfl | hy
      · exact hlt
      · exact Nat.lt_trans hlt (h.1 y hy)
    · rename_i hlt
      rw [tsorted_cons]
      refine ⟨?_, ih h.2 (fun y hy => hk y (by simp [hy]))⟩
      intro y hy
      rcases mem_tins k v r y hy with rfl | hy
      · have := hk e (by simp)
        simp only; omega
      · exact h.1 y hy

theorem tsorted_tput (t : Tbl α) (k : Nat) (v : α) (h : tsorted t = true) : tsorted (tput t k v) = true :=
  tsorted_tins k v _ (tsorted_tdel t k h) (by intro e he; simpa using (List.mem_filter.1 he).2)

theorem tsorted_tset [DecidableEq α] (d : α) (t : Tbl α) (k : Nat) (v : α) (h : tsorted t = true) :
    tsorted (tset d t k v) = true := by
  unfold tset; split
  · exact tsorted_tdel t k h
  · exact tsorted_tput t k v h

end Sys2Proof.Machine
end

