-- ==== Sys2Proof/Laws/Issue.lean ====
section
/-! SUPPORT. The issue of a word: a word that passes its checks does what its body says, and what each end of a word
changes. -/

namespace Sys2Proof.Machine

theorem checked_passes {sp : WSpec} {k : IC} {s : State} (h : Passes sp k s) (body : IC → State → Eff) :
    checked sp k (wordOps sp k) s body = body k s := by
  have hb := h.bounds
  have hf := h.full
  have hc := h.clean
  have hu := h.offered.fields
  unfold checked
  have h1 : (sp.last && decide (k.x.idx + sp.u.words < hdrCount k.x.hdrW)) = false := by
    cases hl : sp.last
    · rfl
    · have := h.last hl
      simp only [Bool.true_and, decide_eq_false_iff_not]; omega
  have h2 : (sp.hOnly && !k.b.handler) = false := by
    cases hl : sp.hOnly
    · rfl
    · simp [h.handler hl]
  have h3 : (!sp.lanes && !guardWave k.w k.x.mask k.u.g) = false := by
    rw [hu]; rcases h.guard with g | g <;> simp [g]
  simp only [h1, h.ok, h2, h3, Bool.not_true, hb]
  simp only [hf, hc, Bool.false_eq_true, if_false]

/-- A word that passes its checks does what its body says. -/
theorem issueWord_passes {sp : WSpec} {k : IC} {s : State} (h : Passes sp k s) (body : IC → State → Eff) :
    issueWord sp body s = .next (settle sp k (wordOps sp k) (body k s)) := by
  have o := h.offered
  obtain ⟨wid, slotB, w, x, b, core, live, u⟩ := k
  have hx : x = slotOf w slotB := o.slot
  have hcore : core = b.core := o.core
  have hu : u = sp.u := o.fields
  have hl : live = liveLanes sp.lanes w x.mask sp.u.g := o.live
  subst hx hcore hu hl
  have hc := o.cur
  have hw := o.wave
  have hb := o.block
  have hr := o.runs
  have hs := o.slotRuns
  have hi := o.inClause
  have hd := o.noDefer
  simp only at hc hw hb hr hs hi hd
  have hck := checked_passes h body
  unfold issueWord
  simp only [hc, hw, hb, hr, hs, hi, hd, Bool.not_true, Bool.or_self, Bool.false_eq_true, if_false]
  unfold wordOps at *
  rw [hck]

/-- A word that passes its checks and completes. -/
theorem issueWord_done {sp : WSpec} {k : IC} {s s' : State} {body : IC → State → Eff} (h : Passes sp k s)
    (hb : body k s = .done s') : issueWord sp body s = .next (completes sp k s') := by
  rw [issueWord_passes h, hb]; rfl

theorem issueWord_jump {sp : WSpec} {k : IC} {s s' : State} {pc : Nat} {body : IC → State → Eff} (h : Passes sp k s)
    (hb : body k s = .jump s' pc) : issueWord sp body s = .next (jumpsTo sp k s' pc) := by
  rw [issueWord_passes h, hb]; rfl

theorem issueWord_set {sp : WSpec} {k : IC} {s s' : State} {body : IC → State → Eff} (h : Passes sp k s)
    (hb : body k s = .set s') : issueWord sp body s = .next (setsSlot sp k s') := by
  rw [issueWord_passes h, hb]; rfl

theorem issueWord_yields {sp : WSpec} {k : IC} {s s' : State} {body : IC → State → Eff} (h : Passes sp k s)
    (hb : body k s = .yields s') : issueWord sp body s = .next (completesYielding sp k s') := by
  rw [issueWord_passes h, hb]; rfl

theorem issueWord_trap {sp : WSpec} {k : IC} {s s' : State} {t : TrapInfo} {body : IC → State → Eff} (h : Passes sp k s)
    (hb : body k s = .trap s' t) : issueWord sp body s = .next (trapsWith sp k s' t) := by
  rw [issueWord_passes h, hb]; rfl

theorem issueWord_wait {sp : WSpec} {k : IC} {s s' : State} {body : IC → State → Eff} (h : Passes sp k s)
    (hb : body k s = .wait s') : issueWord sp body s = .next (waitsAt sp k s') := by
  rw [issueWord_passes h, hb]; rfl

/-! What completing a word changes. -/

theorem ctxOf_modCtx (s : State) (c d : Nat) (f : Ctx → Ctx) :
    ctxOf (modCtx s c f) d = if d = c then f (ctxOf s c) else ctxOf s d := tgetD_tset _ _ _ _ _
theorem coreOf_modCore (s : State) (c d : Nat) (f : Core → Core) :
    coreOf (modCore s c f) d = if d = c then f (coreOf s c) else coreOf s d := tgetD_tset _ _ _ _ _
theorem ropeOf_modRope (s : State) (c d : Nat) (f : Rope → Rope) :
    ropeOf (modRope s c f) d = if d = c then f (ropeOf s c) else ropeOf s d := tgetD_tset _ _ _ _ _

theorem SameMachine.refl (s : State) : SameMachine s s := by constructor <;> first | rfl | exact Nat.le_refl _
theorem SameMachine.trans {a b c : State} (h : SameMachine a b) (g : SameMachine b c) : SameMachine a c := by
  constructor
  · rw [g.now, h.now]
  · rw [g.skew, h.skew]
  · exact Nat.le_trans h.readMax g.readMax
  · rw [g.dev, h.dev]
  · rw [g.mem, h.mem]
  · rw [g.poison, h.poison]
  · rw [g.lease, h.lease]
  · rw [g.l1, h.l1]
  · rw [g.icache, h.icache]
  · rw [g.fetches, h.fetches]
  · rw [g.walks, h.walks]
  · rw [g.hw, h.hw]
  · rw [g.ops, h.ops]
  · rw [g.slices, h.slices]
  · rw [g.peerMons, h.peerMons]
  · rw [g.eps, h.eps]
  · rw [g.launches, h.launches]
  · rw [g.groups, h.groups]
  · rw [g.blocks, h.blocks]
  · rw [g.offers, h.offers]
  · rw [g.away, h.away]
  · rw [g.irqs, h.irqs]
  · rw [g.irqSent, h.irqSent]
  · rw [g.agenda, h.agenda]
  · rw [g.fresh, h.fresh]
  · rw [g.nextId, h.nextId]
  · rw [g.hostData, h.hostData]

theorem SameUnits.refl (s : State) : SameUnits s s := ⟨fun _ => rfl, fun _ => rfl, fun _ => rfl⟩
theorem SameUnits.trans {a b c : State} (h : SameUnits a b) (g : SameUnits b c) : SameUnits a c :=
  ⟨fun i => (g.ctxs i).trans (h.ctxs i), fun i => (g.cores i).trans (h.cores i), fun i => (g.ropes i).trans (h.ropes i)⟩

theorem same_of_waves {s t : State} (m : SameMachine s t) (hc : t.ctxs = s.ctxs) (hk : t.cores = s.cores)
    (hr : t.ropes = s.ropes) : SameMachine s t ∧ SameUnits s t :=
  ⟨m, fun c => by simp only [ctxOf, hc], fun c => by simp only [coreOf, hk], fun c => by simp only [ropeOf, hr]⟩

theorem machine_modWave (s : State) (i : Nat) (f : Wave → Wave) : SameMachine s (modWave s i f) := by constructor <;> first | rfl | exact Nat.le_refl _
theorem machine_setWave (s : State) (i : Nat) (w : Wave) : SameMachine s (setWave s i w) := by constructor <;> first | rfl | exact Nat.le_refl _
theorem machine_modCtx (s : State) (i : Nat) (f : Ctx → Ctx) : SameMachine s (modCtx s i f) := by constructor <;> first | rfl | exact Nat.le_refl _
theorem machine_modCore (s : State) (i : Nat) (f : Core → Core) : SameMachine s (modCore s i f) := by constructor <;> first | rfl | exact Nat.le_refl _
theorem machine_modRope (s : State) (i : Nat) (f : Rope → Rope) : SameMachine s (modRope s i f) := by constructor <;> first | rfl | exact Nat.le_refl _

theorem units_modWave (s : State) (i : Nat) (f : Wave → Wave) : SameUnits s (modWave s i f) :=
  ⟨fun _ => rfl, fun _ => rfl, fun _ => rfl⟩
theorem units_setWave (s : State) (i : Nat) (w : Wave) : SameUnits s (setWave s i w) :=
  ⟨fun _ => rfl, fun _ => rfl, fun _ => rfl⟩
theorem units_modCtx (s : State) (i : Nat) (f : Ctx → Ctx)
    (h : ∀ c, { f c with dlStart := none, spillkib := 0, spillRem := 0 } = { c with dlStart := none, spillkib := 0, spillRem := 0 }) : SameUnits s (modCtx s i f) :=
  ⟨fun c => by rw [ctxOf_modCtx]; split <;> simp_all, fun _ => rfl, fun _ => rfl⟩
theorem units_modCore (s : State) (i : Nat) (f : Core → Core)
    (h : ∀ c, { f c with yields := [], dbg := {} } = { c with yields := [], dbg := {} }) : SameUnits s (modCore s i f) :=
  ⟨fun _ => rfl, fun c => by rw [coreOf_modCore]; split <;> simp_all, fun _ => rfl⟩
theorem units_modRope (s : State) (i : Nat) (f : Rope → Rope)
    (h : ∀ c, { f c with deficit := 0 } = { c with deficit := 0 }) : SameUnits s (modRope s i f) :=
  ⟨fun _ => rfl, fun _ => rfl, fun c => by rw [ropeOf_modRope]; split <;> simp_all⟩

theorem issued_eq (s : State) (wid core : Nat) (w : Wave) (h : tget s.waves wid = some w) :
    issued s wid core = modRope (modCore (modCtx (setWave s wid { w with readyAt := s.now, a := unstick w.a, b := unstick w.b })
      w.ctx (fun c => { c with dlStart := none })) core (fun c => { c with yields := [] })) (ropeOfCore core)
      (fun r => { r with deficit := r.deficit + Config.energyCost 0 }) := by
  simp only [issued, h, spend]

theorem issued_same (s : State) (wid core : Nat) : SameMachine s (issued s wid core) ∧ SameUnits s (issued s wid core) := by
  cases h : tget s.waves wid with
  | none => simp only [issued, h]; exact ⟨.refl _, .refl _⟩
  | some w =>
    rw [issued_eq s wid core w h]
    constructor
    · refine SameMachine.trans ?_ (machine_modRope _ _ _)
      refine SameMachine.trans ?_ (machine_modCore _ _ _)
      exact SameMachine.trans (machine_setWave _ _ _) (machine_modCtx _ _ _)
    · refine SameUnits.trans ?_ (units_modRope _ _ _ (fun _ => rfl))
      refine SameUnits.trans ?_ (units_modCore _ _ _ (fun _ => rfl))
      exact SameUnits.trans (units_setWave _ _ _) (units_modCtx _ _ _ (fun _ => rfl))

theorem issued_wave (s : State) (wid core : Nat) (w : Wave) (h : tget s.waves wid = some w) :
    tget (issued s wid core).waves wid = some { w with readyAt := s.now, a := unstick w.a, b := unstick w.b } := by
  rw [issued_eq s wid core w h]; simp [setWave]

theorem issued_other (s : State) (wid core i : Nat) (h : i ≠ wid) : tget (issued s wid core).waves i = tget s.waves i := by
  cases hw : tget s.waves wid with
  | none => simp only [issued, hw]
  | some w => rw [issued_eq s wid core w hw]; simp [setWave, tget_tput_ne _ _ h]

theorem yieldIf_same (s : State) (core wid : Nat) (y : Bool) :
    SameMachine s (yieldIf s core wid y) ∧ SameUnits s (yieldIf s core wid y) ∧ (yieldIf s core wid y).waves = s.waves := by
  unfold yieldIf; split
  · exact ⟨machine_modCore .., units_modCore _ _ _ (fun _ => rfl), rfl⟩
  · exact ⟨.refl _, .refl _, rfl⟩

/-- What the halt after a step and the sample of a word may touch: marks of the wave itself. -/
structure Marked (s t : State) (wid : Nat) : Prop where
  machine : SameMachine s t
  units : SameUnits s t
  others : ∀ i, i ≠ wid → tget t.waves i = tget s.waves i
  wave : ∀ w, tget s.waves wid = some w → ∃ w', tget t.waves wid = some w' ∧
    w' = { w with halted := w'.halted, stepping := w'.stepping, tag := w'.tag, level := w'.level, tmin := w'.tmin }

theorem Marked.refl (s : State) (wid : Nat) : Marked s s wid := ⟨.refl _, .refl _, fun _ _ => rfl, fun w h => ⟨w, h, rfl⟩⟩

theorem Marked.trans {a b c : State} {wid : Nat} (h : Marked a b wid) (g : Marked b c wid) : Marked a c wid := by
  refine ⟨h.machine.trans g.machine, h.units.trans g.units, fun i hi => (g.others i hi).trans (h.others i hi), ?_⟩
  intro w hw
  obtain ⟨w1, h1, e1⟩ := h.wave w hw
  obtain ⟨w2, h2, e2⟩ := g.wave w1 h1
  refine ⟨w2, h2, ?_⟩
  rw [e2, e1]

theorem stepHalt_marked (s : State) (wid core : Nat) (slotB : Bool) : Marked s (stepHalt s wid core slotB) wid := by
  unfold stepHalt
  cases h : tget s.waves wid with
  | none => exact .refl _ _
  | some w =>
    dsimp only
    split
    · refine ⟨(machine_setWave ..).trans (machine_modCore ..),
        (units_setWave ..).trans (units_modCore _ _ _ (fun _ => rfl)), ?_, ?_⟩
      · intro i hi; simp [setWave, tget_tput_ne _ _ hi]
      · intro v hv
        rw [h] at hv; cases hv
        exact ⟨{ w with halted := true, stepping := 0 }, by simp only [modCore_waves, setWave, tget_tput_self], rfl⟩
    · exact .refl _ _

theorem machine_picks (s : State) (p : List Pick) : SameMachine s { s with picks := p } := by constructor <;> first | rfl | exact Nat.le_refl _
theorem units_picks (s : State) (p : List Pick) : SameUnits s { s with picks := p } :=
  ⟨fun _ => rfl, fun _ => rfl, fun _ => rfl⟩

/-- A read of the counter raises its wave's floor and the greatest value read. -/
theorem machine_sawTime (s : State) (wid v : Nat) : SameMachine s (sawTime s wid v) := by
  constructor <;> first | rfl | exact Nat.le_max_left _ _
theorem units_sawTime (s : State) (wid v : Nat) : SameUnits s (sawTime s wid v) := ⟨fun _ => rfl, fun _ => rfl, fun _ => rfl⟩
theorem sawTime_marked (s : State) (wid v : Nat) : Marked s (sawTime s wid v) wid :=
  ⟨machine_sawTime .., units_sawTime .., fun i hi => by simp [sawTime, modWave, tget_tmod_ne _ _ hi], fun w hw =>
    ⟨{ w with tmin := max w.tmin v }, by simp [sawTime, modWave, tget_tmod_self, hw], rfl⟩⟩

theorem levelReset_marked (s : State) (wid : Nat) :
    Marked s (if (((tget s.waves wid).elim 0 fun x => x.level) == 0) = true then s else modWave s wid fun w => { w with level := 0 }) wid := by
  split
  · exact .refl _ _
  · refine ⟨machine_modWave .., units_modWave .., fun i hi => by simp [modWave, tget_tmod_ne _ _ hi], fun v hv => ?_⟩
    exact ⟨{ v with level := 0 }, by simp [modWave, tget_tmod_self, hv], rfl⟩

/-- Counted spill traffic is not seen by an ended word's frame. -/
theorem countSpillBytes_marked (s : State) (c n wid : Nat) : Marked s (countSpillBytes s c n) wid := by
  unfold countSpillBytes
  split
  · exact .refl _ _
  · exact ⟨machine_modCtx .., units_modCtx _ _ _ (fun _ => rfl), fun _ _ => rfl, fun w h => ⟨w, h, rfl⟩⟩

theorem sampleHook_marked (s : State) (wid core : Nat) (w : Wave) (b : Block) (slotB t c : Bool) (off addr : Nat) :
    Marked s (sampleHook s wid core w b slotB t c off addr) wid := by
  unfold sampleHook
  dsimp only
  refine (levelReset_marked s wid).trans ?_
  generalize (if (((tget s.waves wid).elim 0 fun x => x.level) == 0) = true then s else modWave s wid fun w => { w with level := 0 }) = s
  split
  · exact .refl _ _
  · refine (sawTime_marked s wid _).trans ⟨(machine_picks ..).trans (machine_modWave ..), (units_picks ..).trans (units_modWave ..), ?_, ?_⟩
    · intro i hi; simp [modWave, tget_tmod_ne _ _ hi]
    · intro v hv
      refine ⟨if c then { v with tag := none } else v, by simp [modWave, tget_tmod_self, hv], ?_⟩
      split <;> rfl

theorem hooks_marked (t : State) (k : IC) (n : Nat) (trapped y : Bool) (off addr : Nat) :
    Marked t (sampleHook (stepHalt (if false = true then t else countSpillBytes t k.w.ctx n) k.wid k.core k.slotB)
      k.wid k.core k.w k.b k.slotB trapped y off addr) k.wid :=
  (countSpillBytes_marked t k.w.ctx n k.wid).trans ((stepHalt_marked _ k.wid k.core k.slotB).trans (sampleHook_marked ..))

theorem advance_same (s : State) (wid : Nat) (slotB : Bool) (n : Nat) :
    SameMachine s (advance s wid slotB n) ∧ SameUnits s (advance s wid slotB n) :=
  ⟨machine_modWave .., units_modWave ..⟩

theorem advance_wave (s : State) (wid : Nat) (slotB : Bool) (n : Nat) (w : Wave) (h : tget s.waves wid = some w) :
    tget (advance s wid slotB n).waves wid = some (setSlot w slotB (passed (slotOf w slotB) n)) := by
  simp only [advance, modWave, tget_tmod_self, h, Option.map_some, passed]
  cases hb : (slotOf w slotB).back with
  | nil => simp only [List.isEmpty_nil, ne_eq, not_true_eq_false, if_false, Bool.not_true, Bool.false_eq_true]; split <;> rfl
  | cons a r => simp

theorem advance_other (s : State) (wid : Nat) (slotB : Bool) (n i : Nat) (h : i ≠ wid) :
    tget (advance s wid slotB n).waves i = tget s.waves i := by
  simp [advance, modWave, tget_tmod_ne _ _ h]

/-- A completing word changes the slot's place and the marks of its wave, and leaves the rest as its effects left it. -/
theorem completes_completed (sp : WSpec) (k : IC) (s : State) (r : Wave) (h : tget s.waves k.wid = some r) :
    Completed s (completes sp k s) k sp.u.words r := by
  unfold completes settle
  dsimp only
  generalize ht : yieldIf _ k.core k.wid _ = t
  have hm := hooks_marked t k (spillBytes k (touched sp k (wordOps sp k))) false
    (!sp.tags || false || !guardWave k.w k.x.mask sp.u.g) (imgOff k.b.var (wordAddr k.x)) (sp.addr k)
  have hy := yieldIf_same (advance (issued s k.wid k.core) k.wid k.slotB sp.u.words) k.core k.wid
    (leavesClause k.x sp.u.words && hdrYield k.x.hdrW)
  rw [ht] at hy
  have hi := issued_same s k.wid k.core
  have ha := advance_same (issued s k.wid k.core) k.wid k.slotB sp.u.words
  refine ⟨((hi.1.trans ha.1).trans hy.1).trans hm.machine, ((hi.2.trans ha.2).trans hy.2.1).trans hm.units, ?_, ?_⟩
  · intro i hne
    rw [hm.others i hne, hy.2.2, advance_other _ _ _ _ _ hne, issued_other _ _ _ _ hne]
  · have hw := advance_wave _ k.wid k.slotB sp.u.words _ (issued_wave s k.wid k.core r h)
    rw [← hy.2.2] at hw
    obtain ⟨w', h1, h2⟩ := hm.wave _ hw
    refine ⟨w', h1, ?_⟩
    rw [h2]
    cases k.slotB <;> rfl

/-- The same, seen from the state before: the word's own effects change nothing but its wave. -/
theorem completed_of_wave {sp : WSpec} {k : IC} {s : State} {f : Wave → Wave} (hw : tget s.waves k.wid = some k.w) :
    Completed s (completes sp k (modWave s k.wid f)) k sp.u.words (f k.w) := by
  have hm : tget (modWave s k.wid f).waves k.wid = some (f k.w) := by simp [modWave, tget_tmod_self, hw]
  have c := completes_completed sp k _ _ hm
  refine ⟨(machine_modWave ..).trans c.machine, (units_modWave ..).trans c.units, ?_, c.wave⟩
  intro i hi
  rw [c.others i hi]; simp [modWave, tget_tmod_ne _ _ hi]

/-- The same for effects on the rest of the machine: s0 is what they leave there. -/
theorem completed_via {sp : WSpec} {k : IC} {s0 s1 : State} {r : Wave} (m : SameMachine s0 s1) (u : SameUnits s0 s1)
    (o : ∀ i, i ≠ k.wid → tget s1.waves i = tget s0.waves i) (hw : tget s1.waves k.wid = some r) :
    Completed s0 (completes sp k s1) k sp.u.words r := by
  have c := completes_completed sp k s1 r hw
  refine ⟨m.trans c.machine, u.trans c.units, fun i hi => (c.others i hi).trans (o i hi), ?_⟩
  obtain ⟨w', h1, h2⟩ := c.wave
  exact ⟨w', h1, by rw [h2, m.now]⟩

/-- What ends in issued's state, with a yield and the marks, differs from the effects in the marks alone. -/
theorem ended_of_hooks {s t u : State} {k : IC} {place : Slot → Slot} {r w1 : Wave} {y : Bool}
    (ht : SameMachine (issued s k.wid k.core) t ∧ SameUnits (issued s k.wid k.core) t)
    (ho : ∀ i, i ≠ k.wid → tget t.waves i = tget (issued s k.wid k.core).waves i)
    (hw : tget t.waves k.wid = some w1)
    (h1 : w1 = { setSlot { r with a := unstick r.a, b := unstick r.b } k.slotB (place (unstick (slotOf r k.slotB))) with
      readyAt := s.now })
    (hm : Marked (yieldIf t k.core k.wid y) u k.wid) : Ended s u k place r := by
  have hy := yieldIf_same t k.core k.wid y
  have hi := issued_same s k.wid k.core
  refine ⟨((hi.1.trans ht.1).trans hy.1).trans hm.machine, ((hi.2.trans ht.2).trans hy.2.1).trans hm.units, ?_, ?_⟩
  · intro i hne
    rw [hm.others i hne, hy.2.2, ho _ hne, issued_other _ _ _ _ hne]
  · rw [← hy.2.2] at hw
    obtain ⟨w', e1, e2⟩ := hm.wave _ hw
    refine ⟨w', e1, ?_⟩
    rw [e2, h1]

theorem goTo_wave (s : State) (wid : Nat) (slotB : Bool) (pc : Nat) (w : Wave) (h : tget s.waves wid = some w) :
    tget (goTo s wid slotB pc).waves wid = some (modSlot w slotB (fun x => { toNextHdr x with pc := pc })) := by
  simp only [goTo, modWave, tget_tmod_self, h, Option.map_some]

/-- A completing transfer. -/
theorem jumpsTo_jumped (sp : WSpec) (k : IC) (s : State) (pc : Nat) (r : Wave) (h : tget s.waves k.wid = some r) :
    Jumped s (jumpsTo sp k s pc) k pc r := by
  unfold jumpsTo settle
  dsimp only
  refine ended_of_hooks ⟨machine_modWave .., units_modWave ..⟩ (fun i hne => ?_)
    (goTo_wave _ k.wid k.slotB pc _ (issued_wave s k.wid k.core r h)) ?_ (hooks_marked ..)
  · simp [modWave, tget_tmod_ne _ _ hne]
  · cases k.slotB <;> rfl

/-- A completing word that has set its slot. -/
theorem setsSlot_placed (sp : WSpec) (k : IC) (s : State) (r : Wave) (h : tget s.waves k.wid = some r) :
    Placed s (setsSlot sp k s) k r := by
  unfold setsSlot settle
  dsimp only
  refine ended_of_hooks ⟨.refl _, .refl _⟩ (fun i hne => rfl) (issued_wave s k.wid k.core r h) ?_ (hooks_marked ..)
  cases k.slotB <;> rfl

/-- A word that completes and yields. -/
theorem completesYielding_completed (sp : WSpec) (k : IC) (s : State) (r : Wave) (h : tget s.waves k.wid = some r) :
    Completed s (completesYielding sp k s) k sp.u.words r := by
  unfold completesYielding settle
  dsimp only
  refine ended_of_hooks (advance_same ..) (fun i hne => advance_other _ _ _ _ _ hne)
    (advance_wave _ k.wid k.slotB _ _ (issued_wave s k.wid k.core r h)) ?_ (hooks_marked ..)
  cases k.slotB <;> rfl

/-- Effects of a wave alone, seen from the state before. -/
theorem ended_of_wave {k : IC} {s t : State} {f : Wave → Wave} {place : Slot → Slot}
    (c : Ended (modWave s k.wid f) t k place (f k.w)) : Ended s t k place (f k.w) := by
  refine ⟨(machine_modWave ..).trans c.machine, (units_modWave ..).trans c.units, ?_, c.wave⟩
  intro i hi
  rw [c.others i hi]; simp [modWave, tget_tmod_ne _ _ hi]

theorem modWave_self {k : IC} {s : State} {f : Wave → Wave} (hw : tget s.waves k.wid = some k.w) :
    tget (modWave s k.wid f).waves k.wid = some (f k.w) := by simp [modWave, tget_tmod_self, hw]

/-- A jump after effects on the wave alone. -/
theorem jumped_of_wave {sp : WSpec} {k : IC} {s : State} {f : Wave → Wave} {pc : Nat} (hw : tget s.waves k.wid = some k.w) :
    Jumped s (jumpsTo sp k (modWave s k.wid f) pc) k pc (f k.w) :=
  ended_of_wave (jumpsTo_jumped sp k _ pc _ (modWave_self hw))

/-- A slot set by effects on the wave alone. -/
theorem placed_of_wave {sp : WSpec} {k : IC} {s : State} {f : Wave → Wave} (hw : tget s.waves k.wid = some k.w) :
    Placed s (setsSlot sp k (modWave s k.wid f)) k (f k.w) :=
  ended_of_wave (setsSlot_placed sp k _ _ (modWave_self hw))

theorem modWave_modWave (s : State) (i : Nat) (f g : Wave → Wave) :
    modWave (modWave s i f) i g = modWave s i (fun w => g (f w)) := by
  simp only [modWave, tmod_tmod]

end Sys2Proof.Machine
end

