-- ==== Sys2Proof/Laws/Memory.lean ====
section
/-! SUPPORT. The canonical form of memory, and what a byte reads as after a write. -/

namespace Sys2Proof.Machine

theorem memory_wf_reset : Memory.wf State.reset.mem = true := rfl

/-- Writing one byte keeps the canonical form. -/
theorem memory_wf_tset (m : Tbl Byte) (a : Nat) (b : Byte) (h : Memory.wf m = true) :
    Memory.wf (tset 0 m a b) = true := by
  simp only [Memory.wf, Bool.and_eq_true] at h ⊢
  refine ⟨tsorted_tset _ _ _ _ h.1, ?_⟩
  rw [List.all_eq_true] at *
  unfold tset
  split
  · intro e he; exact h.2 e ((List.mem_filter.1 he).1)
  · intro e he
    rcases mem_tins _ _ _ _ he with rfl | he
    · simpa using ‹¬ b = 0›
    · exact h.2 e ((List.mem_filter.1 he).1)

theorem wrByte_wf (s : State) (a : Nat) (b : Byte) (h : Memory.wf s.mem = true) : Memory.wf (wrByte s a b).mem = true :=
  memory_wf_tset _ _ _ h

/-- A byte reads what was written to it; any other reads as before. -/
theorem rdByte_wrByte (s : State) (a c : Nat) (b : Byte) :
    rdByte (wrByte s a b) c = if canonPa s c = canonPa s a then b else rdByte s c := by
  have hc : ∀ x, canonPa (wrByte s a b) x = canonPa s x := fun _ => rfl
  simp only [rdByte, hc]
  exact tgetD_tset _ _ _ _ _

/-! What the shared operations on memory leave of it: those that write no byte leave `mem` as it is, those that write
bytes keep its canonical form. -/

/-- A fold keeps what each of its steps keeps. -/
theorem foldl_keeps (P : State → Prop) (f : State → α → State) (hf : ∀ s a, P s → P (f s a)) (l : List α) (s : State) (h : P s) :
    P (l.foldl f s) := by
  induction l generalizing s with
  | nil => exact h
  | cons a l ih => exact ih _ (hf s a h)

/-- A fold of steps that leave `mem` as it is leaves it as it is. -/
theorem foldl_mem (f : State → α → State) (hf : ∀ s a, (f s a).mem = s.mem) (l : List α) (s : State) :
    (l.foldl f s).mem = s.mem :=
  foldl_keeps (fun t => t.mem = s.mem) f (fun t a h => (hf t a).trans h) l s rfl

@[simp] theorem clearPois_mem (s : State) (bs : Tbl Byte) : (clearPois s bs).mem = s.mem := rfl
@[simp] theorem dropResv_mem (s : State) (lns : List Nat) : (dropResv s lns).mem = s.mem := rfl
@[simp] theorem pushHw_mem (s : State) (h : HomeWrite) : (pushHw s h).2.mem = s.mem := rfl

@[simp] theorem acquireL1_mem (s : State) (core scope : Nat) : (acquireL1 s core scope).mem = s.mem := by
  unfold acquireL1
  split
  · rfl
  · refine foldl_mem _ ?_ _ _
    intros
    rfl

@[simp] theorem dropClean_mem (s : State) (cid ln : Nat) : (dropClean s cid ln).mem = s.mem := by
  unfold dropClean
  split <;> rfl

@[simp] theorem acquireBy_mem (s : State) (wid core scope : Nat) : (acquireBy s wid core scope).mem = s.mem := by
  unfold acquireBy acquireTime acquireFetch
  dsimp only
  split <;> split <;> simp

@[simp] theorem modMons_mem (s : State) (g : Nat) (f : List Mon → List Mon) : (modMons s g f).mem = s.mem := by
  unfold modMons
  split <;> rfl

@[simp] theorem wakeMon_mem (s : State) (wid : Nat) (b : Bool) (m : MonReq) (x : Nat) : (wakeMon s wid b m x).mem = s.mem := by
  unfold wakeMon
  split
  · rfl
  · dsimp only
    split <;> simp

@[simp] theorem checkMons_mem (s : State) (g : Nat) (touch : Nat → Bool) : (checkMons s g touch).mem = s.mem := by
  unfold checkMons
  refine foldl_mem _ (fun t e => ?_) _ _
  split
  · split
    · simp
    · split <;> simp
  · rfl

@[simp] theorem freeFar_mem (s : State) (g : Nat) (touch : Nat → Bool) : (freeFar s g touch).mem = s.mem := by
  unfold freeFar
  split <;> rfl

theorem checkMons_fold_mem (touch : Nat → Bool) (gs : List Nat) (s : State) :
    (gs.foldl (fun t g => freeFar (checkMons t g touch) g touch) s).mem = s.mem :=
  foldl_mem _ (fun t g => (freeFar_mem _ g touch).trans (checkMons_mem t g touch)) gs s

/-- Bytes performed at their home keep the canonical form. -/
theorem performBytes_wf (s : State) (bs : Tbl Byte) (h : Memory.wf s.mem = true) :
    Memory.wf (performBytes s bs).1.mem = true := by
  have hw : ∀ (l : Tbl Byte), Memory.wf (l.foldl (fun t e => wrByte t e.1 e.2) s).mem = true := by
    intro l
    induction l generalizing s with
    | nil => exact h
    | cons e l ih => exact ih _ (wrByte_wf s e.1 e.2 h)
  unfold performBytes
  dsimp only
  split
  · rw [checkMons_mem, checkMons_fold_mem, dropResv_mem, clearPois_mem]
    exact hw _
  · rw [checkMons_fold_mem, dropResv_mem, clearPois_mem]
    exact hw _

theorem combineElem_wf (s : State) (pa code size c : Nat) (h : Memory.wf s.mem = true) :
    Memory.wf (combineElem s pa code size c).1.mem = true := by
  unfold combineElem
  split
  · exact h
  · exact performBytes_wf _ _ h

/-- A fold of pairs keeps what each of its steps keeps of the state. -/
theorem foldl_fst_keeps (P : State → Prop) (f : State × Nat → α → State × Nat) (hf : ∀ p a, P p.1 → P (f p a).1) (l : List α)
    (p : State × Nat) (h : P p.1) : P (l.foldl f p).1 := by
  induction l generalizing p with
  | nil => exact h
  | cons a l ih => exact ih _ (hf p a h)

@[simp] theorem raiseCacheT_mem (s : State) (cid ctx name t : Nat) : (raiseCacheT s cid ctx name t).mem = s.mem := rfl

theorem recallFrom_wf (s : State) (cid ctx ln code size : Nat) (el : Tbl Nat) (h : Memory.wf s.mem = true) :
    Memory.wf (recallFrom s cid ctx ln code size el).1.mem = true := by
  unfold recallFrom
  rw [raiseCacheT_mem]
  refine foldl_fst_keeps (fun t => Memory.wf t.mem = true) _ (fun p x hp => ?_) el _ h
  exact combineElem_wf p.1 _ _ _ _ hp

/-- A recall keeps the canonical form. -/
theorem recallLineT_wf (s : State) (ln : Nat) (h : Memory.wf s.mem = true) : Memory.wf (recallLineT s ln).1.mem = true := by
  unfold recallLineT
  refine foldl_fst_keeps (fun t => Memory.wf t.mem = true) _ (fun p e hp => ?_) _ _ h
  split
  · exact recallFrom_wf _ _ _ _ _ _ _ hp
  · exact hp

theorem recallLine_wf (s : State) (ln : Nat) (h : Memory.wf s.mem = true) : Memory.wf (recallLine s ln).mem = true :=
  recallLineT_wf s ln h

theorem homeRead_wf (s : State) (pa n : Nat) (h : Memory.wf s.mem = true) : Memory.wf (homeRead s pa n).2.mem = true :=
  recallLine_wf _ _ h

@[simp] theorem writeBack_mem (s : State) (wid ctx cid ln : Nat) : (writeBack s wid ctx cid ln).mem = s.mem := by
  unfold writeBack
  split <;> rfl

theorem evictLine_wf (s : State) (cid ln : Nat) (h : Memory.wf s.mem = true) : Memory.wf (evictLine s cid ln).mem = true := by
  unfold evictLine
  split
  · exact h
  · exact h
  · exact recallLine_wf _ _ h
  · exact h

/-- Making room for a line keeps the canonical form. -/
theorem makeRoom_wf (s : State) (cid ln : Nat) (h : Memory.wf s.mem = true) : Memory.wf (makeRoom s cid ln).mem = true := by
  unfold makeRoom
  dsimp only
  split
  · exact h
  · exact evictLine_wf _ _ _ h

theorem fillLine_wf (s : State) (cid ctx ln ws : Nat) (h : Memory.wf s.mem = true) :
    Memory.wf (fillLine s cid ctx ln ws).mem = true := makeRoom_wf s cid ln h

theorem cacheRead_fill_wf (s : State) (cid ctx pa : Nat) (f : State → Tbl Byte → List Byte × State × Bool)
    (hf : ∀ t, Memory.wf t.mem = true → Memory.wf (f t []).2.1.mem = true) (h : Memory.wf s.mem = true) :
    Memory.wf (cacheRead.fill s cid ctx pa f).2.1.mem = true :=
  fillLine_wf _ _ _ _ _ (hf s h)

/-- A read served to a cache keeps the canonical form. -/
theorem cacheRead_wf (s : State) (cid ctx pa n : Nat) (atHome : Bool) (h : Memory.wf s.mem = true) :
    Memory.wf (cacheRead s cid ctx pa n atHome).2.1.mem = true := by
  unfold cacheRead
  dsimp only
  split
  · exact recallLine_wf _ _ h
  · split
    · exact h
    · exact cacheRead_fill_wf _ _ _ _ _ (fun t ht => recallLine_wf _ _ ht) h
  · exact cacheRead_fill_wf _ _ _ _ _ (fun t ht => recallLine_wf _ _ ht) h

theorem narrowStore_wf (s : State) (cid ctx pa : Nat) (bs : List Byte) (scope blk : Nat) (h : Memory.wf s.mem = true) :
    Memory.wf (narrowStore s cid ctx pa bs scope blk).mem = true := by
  unfold narrowStore
  dsimp only
  split
  · exact h
  rw [putLine_mem]
  dsimp only
  split
  · exact recallLine_wf _ _ (makeRoom_wf _ _ _ h)
  · exact makeRoom_wf _ _ _ h

theorem wideStore_wf (s : State) (wid ctx cid pa : Nat) (bs : List Byte) (op scope : Nat) (h : Memory.wf s.mem = true) :
    Memory.wf (wideStore s wid ctx cid pa bs op scope).2.mem = true := by
  unfold wideStore
  dsimp only [pushHw_mem]
  split <;> split <;> first | exact h | exact recallLine_wf _ _ h

@[simp] theorem updateCopy_mem (s : State) (cid : Nat) (bs : Tbl Byte) (scope : Nat) :
    (updateCopy s cid bs scope).mem = s.mem := by
  unfold updateCopy
  refine foldl_mem _ (fun t e => ?_) _ _
  split <;> rfl

theorem releaseL1_wf (s : State) (wid ctx core scope : Nat) (h : Memory.wf s.mem = true) :
    Memory.wf (releaseL1 s wid ctx core scope).mem = true := by
  unfold releaseL1
  refine foldl_keeps (fun t => Memory.wf t.mem = true) _ (fun t c ht => ?_) _ _ h
  refine foldl_keeps (fun t => Memory.wf t.mem = true) _ (fun t e ht => ?_) _ _ ht
  split
  · split
    · simpa using ht
    · exact ht
  · exact recallLine_wf _ _ ht
  · exact ht

/-- Bytes an engine writes at their home keep the canonical form. -/
theorem engineWrite_wf (s : State) (pa : Nat) (bs : List Byte) (h : Memory.wf s.mem = true) :
    Memory.wf (engineWrite s pa bs).1.mem = true :=
  performBytes_wf _ _ (foldl_keeps (fun t => Memory.wf t.mem = true) _ (fun t ln => recallLine_wf t ln) _ _ h)

end Sys2Proof.Machine
end

