-- ==== Sys2Proof/Laws/Words.lean ====
section
/-! SUPPORT. What the shared parts of the words' meanings give: floating words, operations entered, values received. -/

namespace Sys2Proof.Machine

theorem fpWord_done {k : IC} {s : State} {wide : Bool} {f : Nat → Nat × Exc} (h : fpTrap k (fun l => (f l).2) = none) :
    fpWord k s wide f = .done (setV k s wide (fun l => (f l).1)) := by unfold fpWord; rw [h]

theorem fpWord_trap {k : IC} {s : State} {wide : Bool} {f : Nat → Nat × Exc} {t : TrapInfo}
    (h : fpTrap k (fun l => (f l).2) = some t) : fpWord k s wide f = .trap s t := by unfold fpWord; rw [h]

/-- An operation entered: the state around the wave, and the wave. -/
theorem produce_eq (k : IC) (s : State) (c : CntK) (cls : SymCls) (nums : List Nat) (body : Body) :
    produce k s c cls nums body =
      (s.nextId, modWave (entered s (opNow k s c body)) k.wid (fun w => markEmpty (cntUp w c) cls nums s.nextId)) := by
  simp only [produce, addOp, modWave_modWave]; rfl

/-- A word whose effects are changes of its own wave over a state s0 completes. -/
theorem completed_over {sp : WSpec} {k : IC} {s0 : State} {f : Wave → Wave} (h : tget s0.waves k.wid = some k.w) :
    Completed s0 (completes sp k (modWave s0 k.wid f)) k sp.u.words (f k.w) := completed_of_wave h

theorem entered_waves (s : State) (o : Op) : (entered s o).waves = s.waves := rfl

end Sys2Proof.Machine
end

