-- ==== Sys2Proof/Tests/Slice0.lean ====
section
/-! SUPPORT. Tests: ill-formed terms are refused, every instruction's word decodes as the spec encodes it, single steps give
the results of the spec's cards, and, for every statement with hypotheses, states and operands that meet them. -/

open Sys2Proof Sys2Proof.Machine

namespace Sys2Proof.Tests

set_option Elab.async false

/-! Ill-formed terms are refused, well-formed ones accepted. -/

theorem test_illFormed_refused :
    wellFormed (.eresumeRetry ⟨1, 0, 0, 0⟩) = false ∧ wellFormed (.eresumeRetry ⟨2, 0, 0, 0⟩) = false ∧
    wellFormed (.eresumeSkip ⟨0, 0, 0, 0⟩) = false ∧ wellFormed (.eresumeJmp ⟨3, 0, 0, 0⟩) = false ∧
    wellFormed (.unimplementedOpcode 7 0 0) = false ∧ wellFormed (.unimplementedOpcode 0 0 0) = false ∧
    wellFormed (.unimplementedOpcode 0 0xFC000000 1) = false :=
  ⟨rfl, rfl, rfl, rfl, rfl, rfl, rfl⟩

theorem test_wellFormed_accepted :
    wellFormed (.eresumeRetry ⟨3, 0, 0, 0⟩) = true ∧ wellFormed (.eresumeSkip ⟨1, 0, 0, 0⟩) = true ∧
    wellFormed (.eresumeJmp ⟨2, 0, 0, 0⟩) = true ∧ wellFormed (.unimplementedOpcode 0 0xFC000000 0) = true ∧
    wellFormed (.nop ⟨0, 0, 0, 0⟩) = true :=
  ⟨rfl, rfl, rfl, rfl, rfl⟩

/-! Every instruction's word, laid out from R62 and R63 (op in [31:25], d, a, b, guard or imm11; then the modifier, memory
or immediate word) with the op numbers of the opcode map (R67). -/

theorem test_decode_class0_part1 :
    decodeWords 0 0x00101851 0 = .nop ⟨4, 3, 5, 1⟩ ∧
    decodeWords 0 0x04141851 0 = .sadd ⟨5, 3, 5, 1⟩ ∧
    decodeWords 0 0x06181851 0x0C94B64D = .saddLong ⟨6, 3, 5, 1⟩ ⟨6, 9, 2, 1, 3, 12, 77⟩ ∧
    decodeWords 0 0x08101AA5 0 = .saddi ⟨4, 3, 677⟩ ∧
    decodeWords 0 0x0A141851 0x0C012345 = .saddiLong ⟨5, 3, 5, 1⟩ ⟨6, 74565⟩ ∧
    decodeWords 0 0x0C181851 0 = .ssub ⟨6, 3, 5, 1⟩ ∧
    decodeWords 0 0x0E101851 0x0C94B64D = .ssubLong ⟨4, 3, 5, 1⟩ ⟨6, 9, 2, 1, 3, 12, 77⟩ ∧
    decodeWords 0 0x10141851 0 = .smul ⟨5, 3, 5, 1⟩ ∧
    decodeWords 0 0x12181851 0x0C94B64D = .smulLong ⟨6, 3, 5, 1⟩ ⟨6, 9, 2, 1, 3, 12, 77⟩ ∧
    decodeWords 0 0x14101851 0 = .smulhi ⟨4, 3, 5, 1⟩ ∧
    decodeWords 0 0x16141851 0x0C94B64D = .smulhiLong ⟨5, 3, 5, 1⟩ ⟨6, 9, 2, 1, 3, 12, 77⟩ ∧
    decodeWords 0 0x18181851 0 = .sdiv ⟨6, 3, 5, 1⟩ ∧
    decodeWords 0 0x1A101851 0x0C94B64D = .sdivLong ⟨4, 3, 5, 1⟩ ⟨6, 9, 2, 1, 3, 12, 77⟩ ∧
    decodeWords 0 0x1C141851 0 = .srem ⟨5, 3, 5, 1⟩ ∧
    decodeWords 0 0x1E181851 0x0C94B64D = .sremLong ⟨6, 3, 5, 1⟩ ⟨6, 9, 2, 1, 3, 12, 77⟩ ∧
    decodeWords 0 0x20101851 0 = .sand ⟨4, 3, 5, 1⟩ ∧
    decodeWords 0 0x22141851 0x0C94B64D = .sandLong ⟨5, 3, 5, 1⟩ ⟨6, 9, 2, 1, 3, 12, 77⟩ ∧
    decodeWords 0 0x24181AA5 0 = .sandi ⟨6, 3, 677⟩ ∧
    decodeWords 0 0x26101851 0x0C012345 = .sandiLong ⟨4, 3, 5, 1⟩ ⟨6, 74565⟩ ∧
    decodeWords 0 0x28141851 0 = .sor ⟨5, 3, 5, 1⟩ ∧
    decodeWords 0 0x2A181851 0x0C94B64D = .sorLong ⟨6, 3, 5, 1⟩ ⟨6, 9, 2, 1, 3, 12, 77⟩ ∧
    decodeWords 0 0x2C101AA5 0 = .sori ⟨4, 3, 677⟩ ∧
    decodeWords 0 0x2E141851 0x0C012345 = .soriLong ⟨5, 3, 5, 1⟩ ⟨6, 74565⟩ ∧
    decodeWords 0 0x30181851 0 = .sxor ⟨6, 3, 5, 1⟩ :=
  ⟨rfl, rfl, rfl, rfl, rfl, rfl, rfl, rfl, rfl, rfl, rfl, rfl, rfl, rfl, rfl, rfl, rfl, rfl, rfl, rfl, rfl, rfl, rfl, rfl⟩

theorem test_decode_class0_part2 :
    decodeWords 0 0x32101851 0x0C94B64D = .sxorLong ⟨4, 3, 5, 1⟩ ⟨6, 9, 2, 1, 3, 12, 77⟩ ∧
    decodeWords 0 0x34141AA5 0 = .sxori ⟨5, 3, 677⟩ ∧
    decodeWords 0 0x36181851 0x0C012345 = .sxoriLong ⟨6, 3, 5, 1⟩ ⟨6, 74565⟩ ∧
    decodeWords 0 0x38101851 0 = .sshl ⟨4, 3, 5, 1⟩ ∧
    decodeWords 0 0x3A141851 0x0C94B64D = .sshlLong ⟨5, 3, 5, 1⟩ ⟨6, 9, 2, 1, 3, 12, 77⟩ ∧
    decodeWords 0 0x3C181AA5 0 = .sshli ⟨6, 3, 677⟩ ∧
    decodeWords 0 0x3E101851 0x0C012345 = .sshliLong ⟨4, 3, 5, 1⟩ ⟨6, 74565⟩ ∧
    decodeWords 0 0x40141851 0 = .sshr ⟨5, 3, 5, 1⟩ ∧
    decodeWords 0 0x42181851 0x0C94B64D = .sshrLong ⟨6, 3, 5, 1⟩ ⟨6, 9, 2, 1, 3, 12, 77⟩ ∧
    decodeWords 0 0x44101AA5 0 = .sshri ⟨4, 3, 677⟩ ∧
    decodeWords 0 0x46141851 0x0C012345 = .sshriLong ⟨5, 3, 5, 1⟩ ⟨6, 74565⟩ ∧
    decodeWords 0 0x48181851 0 = .ssra ⟨6, 3, 5, 1⟩ ∧
    decodeWords 0 0x4A101851 0x0C94B64D = .ssraLong ⟨4, 3, 5, 1⟩ ⟨6, 9, 2, 1, 3, 12, 77⟩ ∧
    decodeWords 0 0x4C141AA5 0 = .ssrai ⟨5, 3, 677⟩ ∧
    decodeWords 0 0x4E181851 0x0C012345 = .ssraiLong ⟨6, 3, 5, 1⟩ ⟨6, 74565⟩ ∧
    decodeWords 0 0x50101851 0 = .smin ⟨4, 3, 5, 1⟩ ∧
    decodeWords 0 0x52141851 0x0C94B64D = .sminLong ⟨5, 3, 5, 1⟩ ⟨6, 9, 2, 1, 3, 12, 77⟩ ∧
    decodeWords 0 0x54181851 0 = .smax ⟨6, 3, 5, 1⟩ ∧
    decodeWords 0 0x56101851 0x0C94B64D = .smaxLong ⟨4, 3, 5, 1⟩ ⟨6, 9, 2, 1, 3, 12, 77⟩ ∧
    decodeWords 0 0x58141851 0 = .scmp ⟨5, 3, 5, 1⟩ ∧
    decodeWords 0 0x5A181851 0x0C94B64D = .scmpLong ⟨6, 3, 5, 1⟩ ⟨6, 9, 2, 1, 3, 12, 77⟩ ∧
    decodeWords 0 0x5C101AA5 0 = .scmpi ⟨4, 3, 677⟩ ∧
    decodeWords 0 0x5E141851 0x0C012345 = .scmpiLong ⟨5, 3, 5, 1⟩ ⟨6, 74565⟩ ∧
    decodeWords 0 0x60181851 0 = .ssel ⟨6, 3, 5, 1⟩ :=
  ⟨rfl, rfl, rfl, rfl, rfl, rfl, rfl, rfl, rfl, rfl, rfl, rfl, rfl, rfl, rfl, rfl, rfl, rfl, rfl, rfl, rfl, rfl, rfl, rfl⟩

theorem test_decode_class0_part3 :
    decodeWords 0 0x62101851 0x0C94B64D = .sselLong ⟨4, 3, 5, 1⟩ ⟨6, 9, 2, 1, 3, 12, 77⟩ ∧
    decodeWords 0 0x64141851 0 = .smov ⟨5, 3, 5, 1⟩ ∧
    decodeWords 0 0x68181AA5 0 = .smovi ⟨6, 3, 677⟩ ∧
    decodeWords 0 0x6A101851 0x0C012345 = .smoviLong ⟨4, 3, 5, 1⟩ ⟨6, 74565⟩ ∧
    decodeWords 0 0x6C141AA5 0 = .sluiShort ⟨5, 3, 677⟩ ∧
    decodeWords 0 0x6E181851 0x0C012345 = .slui ⟨6, 3, 5, 1⟩ ⟨6, 74565⟩ ∧
    decodeWords 0 0x70101851 0 = .sclz ⟨4, 3, 5, 1⟩ ∧
    decodeWords 0 0x72141851 0x0C94B64D = .sclzLong ⟨5, 3, 5, 1⟩ ⟨6, 9, 2, 1, 3, 12, 77⟩ ∧
    decodeWords 0 0x74181851 0 = .spopc ⟨6, 3, 5, 1⟩ ∧
    decodeWords 0 0x76101851 0x0C94B64D = .spopcLong ⟨4, 3, 5, 1⟩ ⟨6, 9, 2, 1, 3, 12, 77⟩ ∧
    decodeWords 0 0x78141851 0 = .sbfe ⟨5, 3, 5, 1⟩ ∧
    decodeWords 0 0x7A181851 0x0C94B64D = .sbfeLong ⟨6, 3, 5, 1⟩ ⟨6, 9, 2, 1, 3, 12, 77⟩ ∧
    decodeWords 0 0x7C101851 0 = .sbfi ⟨4, 3, 5, 1⟩ ∧
    decodeWords 0 0x7E141851 0x0C94B64D = .sbfiLong ⟨5, 3, 5, 1⟩ ⟨6, 9, 2, 1, 3, 12, 77⟩ ∧
    decodeWords 0 0x80181AA5 0 = .sarg ⟨6, 3, 677⟩ ∧
    decodeWords 0 0x82101851 0x0C012345 = .sargSx ⟨4, 3, 5, 1⟩ ⟨6, 74565⟩ ∧
    decodeWords 0 0x84141AA5 0 = .br ⟨5, 3, 677⟩ ∧
    decodeWords 0 0x86181851 0x0C012345 = .brLong ⟨6, 3, 5, 1⟩ ⟨6, 74565⟩ ∧
    decodeWords 0 0x88101AA5 0 = .jmp ⟨4, 3, 677⟩ ∧
    decodeWords 0 0x8A141851 0x0C012345 = .jmpLong ⟨5, 3, 5, 1⟩ ⟨6, 74565⟩ ∧
    decodeWords 0 0x8C181AA5 0 = .call ⟨6, 3, 677⟩ ∧
    decodeWords 0 0x8E101851 0x0C012345 = .callLong ⟨4, 3, 5, 1⟩ ⟨6, 74565⟩ ∧
    decodeWords 0 0x90141851 0 = .ret ⟨5, 3, 5, 1⟩ ∧
    decodeWords 0 0x94181851 0 = .ifW ⟨6, 3, 5, 1⟩ :=
  ⟨rfl, rfl, rfl, rfl, rfl, rfl, rfl, rfl, rfl, rfl, rfl, rfl, rfl, rfl, rfl, rfl, rfl, rfl, rfl, rfl, rfl, rfl, rfl, rfl⟩

theorem test_decode_class0_part4 :
    decodeWords 0 0x98101851 0 = .elseW ⟨4, 3, 5, 1⟩ ∧
    decodeWords 0 0x9C141851 0 = .endif ⟨5, 3, 5, 1⟩ ∧
    decodeWords 0 0xA0181851 0 = .loopW ⟨6, 3, 5, 1⟩ ∧
    decodeWords 0 0xA2101851 0x0C012345 = .loopImm ⟨4, 3, 5, 1⟩ ⟨6, 74565⟩ ∧
    decodeWords 0 0xA4141851 0 = .breakW ⟨5, 3, 5, 1⟩ ∧
    decodeWords 0 0xA8181851 0 = .contW ⟨6, 3, 5, 1⟩ ∧
    decodeWords 0 0xAC101851 0 = .endloop ⟨4, 3, 5, 1⟩ ∧
    decodeWords 0 0xB0141851 0 = .yield ⟨5, 3, 5, 1⟩ ∧
    decodeWords 0 0xB4181AA5 0 = .waitcnt ⟨6, 3, 677⟩ ∧
    decodeWords 0 0xB8101851 0 = .endW ⟨4, 3, 5, 1⟩ ∧
    decodeWords 0 0xBC141AA5 0 = .win ⟨5, 3, 677⟩ ∧
    decodeWords 0 0xC0181851 0 = .modeW ⟨6, 3, 5, 1⟩ ∧
    decodeWords 0 0xC2101851 0x0C012345 = .modeFields ⟨4, 3, 5, 1⟩ ⟨6, 74565⟩ ∧
    decodeWords 0 0xC4141851 0 = .barArr ⟨5, 3, 5, 1⟩ ∧
    decodeWords 0 0xC8181851 0 = .barWait ⟨6, 3, 5, 1⟩ ∧
    decodeWords 0 0xCC101851 0 = .barSync ⟨4, 3, 5, 1⟩ ∧
    decodeWords 0 0xD0141851 0 = .barDrop ⟨5, 3, 5, 1⟩ ∧
    decodeWords 0 0xD4181851 0 = .pand ⟨6, 3, 5, 1⟩ ∧
    decodeWords 0 0xD8101851 0 = .por ⟨4, 3, 5, 1⟩ ∧
    decodeWords 0 0xDC141851 0 = .pxor ⟨5, 3, 5, 1⟩ ∧
    decodeWords 0 0xE0181851 0 = .pnot ⟨6, 3, 5, 1⟩ ∧
    decodeWords 0 0xE4101851 0 = .pmov ⟨4, 3, 5, 1⟩ ∧
    decodeWords 0 0xE8141851 0 = .ptos ⟨5, 3, 5, 1⟩ ∧
    decodeWords 0 0xEC181851 0 = .pfroms ⟨6, 3, 5, 1⟩ :=
  ⟨rfl, rfl, rfl, rfl, rfl, rfl, rfl, rfl, rfl, rfl, rfl, rfl, rfl, rfl, rfl, rfl, rfl, rfl, rfl, rfl, rfl, rfl, rfl, rfl⟩

theorem test_decode_class1_part1 :
    decodeWords 1 0x00101851 0 = .vadd ⟨4, 3, 5, 1⟩ ∧
    decodeWords 1 0x02141851 0x0C94B64D = .vaddLong ⟨5, 3, 5, 1⟩ ⟨6, 9, 2, 1, 3, 12, 77⟩ ∧
    decodeWords 1 0x04181AA5 0 = .vaddi ⟨6, 3, 677⟩ ∧
    decodeWords 1 0x06101851 0x0C012345 = .vaddiLong ⟨4, 3, 5, 1⟩ ⟨6, 74565⟩ ∧
    decodeWords 1 0x08141851 0 = .vsub ⟨5, 3, 5, 1⟩ ∧
    decodeWords 1 0x0A181851 0x0C94B64D = .vsubLong ⟨6, 3, 5, 1⟩ ⟨6, 9, 2, 1, 3, 12, 77⟩ ∧
    decodeWords 1 0x0C101851 0 = .vmul ⟨4, 3, 5, 1⟩ ∧
    decodeWords 1 0x0E141851 0x0C94B64D = .vmulLong ⟨5, 3, 5, 1⟩ ⟨6, 9, 2, 1, 3, 12, 77⟩ ∧
    decodeWords 1 0x10181851 0 = .vmulhi ⟨6, 3, 5, 1⟩ ∧
    decodeWords 1 0x12101851 0x0C94B64D = .vmulhiLong ⟨4, 3, 5, 1⟩ ⟨6, 9, 2, 1, 3, 12, 77⟩ ∧
    decodeWords 1 0x16141851 0x0C94B64D = .vmad ⟨5, 3, 5, 1⟩ ⟨6, 9, 2, 1, 3, 12, 77⟩ ∧
    decodeWords 1 0x18181851 0 = .vand ⟨6, 3, 5, 1⟩ ∧
    decodeWords 1 0x1A101851 0x0C94B64D = .vandLong ⟨4, 3, 5, 1⟩ ⟨6, 9, 2, 1, 3, 12, 77⟩ ∧
    decodeWords 1 0x1C141851 0 = .vor ⟨5, 3, 5, 1⟩ ∧
    decodeWords 1 0x1E181851 0x0C94B64D = .vorLong ⟨6, 3, 5, 1⟩ ⟨6, 9, 2, 1, 3, 12, 77⟩ ∧
    decodeWords 1 0x20101851 0 = .vxor ⟨4, 3, 5, 1⟩ ∧
    decodeWords 1 0x22141851 0x0C94B64D = .vxorLong ⟨5, 3, 5, 1⟩ ⟨6, 9, 2, 1, 3, 12, 77⟩ ∧
    decodeWords 1 0x24181851 0 = .vnot ⟨6, 3, 5, 1⟩ ∧
    decodeWords 1 0x26101851 0x0C94B64D = .vnotLong ⟨4, 3, 5, 1⟩ ⟨6, 9, 2, 1, 3, 12, 77⟩ ∧
    decodeWords 1 0x28141851 0 = .vshl ⟨5, 3, 5, 1⟩ ∧
    decodeWords 1 0x2A181851 0x0C94B64D = .vshlLong ⟨6, 3, 5, 1⟩ ⟨6, 9, 2, 1, 3, 12, 77⟩ ∧
    decodeWords 1 0x2C101851 0 = .vshr ⟨4, 3, 5, 1⟩ ∧
    decodeWords 1 0x2E141851 0x0C94B64D = .vshrLong ⟨5, 3, 5, 1⟩ ⟨6, 9, 2, 1, 3, 12, 77⟩ ∧
    decodeWords 1 0x30181851 0 = .vsra ⟨6, 3, 5, 1⟩ :=
  ⟨rfl, rfl, rfl, rfl, rfl, rfl, rfl, rfl, rfl, rfl, rfl, rfl, rfl, rfl, rfl, rfl, rfl, rfl, rfl, rfl, rfl, rfl, rfl, rfl⟩

theorem test_decode_class1_part2 :
    decodeWords 1 0x32101851 0x0C94B64D = .vsraLong ⟨4, 3, 5, 1⟩ ⟨6, 9, 2, 1, 3, 12, 77⟩ ∧
    decodeWords 1 0x34141851 0 = .vmin ⟨5, 3, 5, 1⟩ ∧
    decodeWords 1 0x36181851 0x0C94B64D = .vminLong ⟨6, 3, 5, 1⟩ ⟨6, 9, 2, 1, 3, 12, 77⟩ ∧
    decodeWords 1 0x38101851 0 = .vmax ⟨4, 3, 5, 1⟩ ∧
    decodeWords 1 0x3A141851 0x0C94B64D = .vmaxLong ⟨5, 3, 5, 1⟩ ⟨6, 9, 2, 1, 3, 12, 77⟩ ∧
    decodeWords 1 0x3C181851 0 = .vabs ⟨6, 3, 5, 1⟩ ∧
    decodeWords 1 0x3E101851 0x0C94B64D = .vabsLong ⟨4, 3, 5, 1⟩ ⟨6, 9, 2, 1, 3, 12, 77⟩ ∧
    decodeWords 1 0x40141851 0 = .vneg ⟨5, 3, 5, 1⟩ ∧
    decodeWords 1 0x42181851 0x0C94B64D = .vnegLong ⟨6, 3, 5, 1⟩ ⟨6, 9, 2, 1, 3, 12, 77⟩ ∧
    decodeWords 1 0x44101851 0 = .vclz ⟨4, 3, 5, 1⟩ ∧
    decodeWords 1 0x46141851 0x0C94B64D = .vclzLong ⟨5, 3, 5, 1⟩ ⟨6, 9, 2, 1, 3, 12, 77⟩ ∧
    decodeWords 1 0x48181851 0 = .vpopc ⟨6, 3, 5, 1⟩ ∧
    decodeWords 1 0x4A101851 0x0C94B64D = .vpopcLong ⟨4, 3, 5, 1⟩ ⟨6, 9, 2, 1, 3, 12, 77⟩ ∧
    decodeWords 1 0x4C141851 0 = .vbfe ⟨5, 3, 5, 1⟩ ∧
    decodeWords 1 0x4E181851 0x0C94B64D = .vbfeLong ⟨6, 3, 5, 1⟩ ⟨6, 9, 2, 1, 3, 12, 77⟩ ∧
    decodeWords 1 0x50101851 0 = .vbfi ⟨4, 3, 5, 1⟩ ∧
    decodeWords 1 0x52141851 0x0C94B64D = .vbfiLong ⟨5, 3, 5, 1⟩ ⟨6, 9, 2, 1, 3, 12, 77⟩ ∧
    decodeWords 1 0x54181851 0 = .vsel ⟨6, 3, 5, 1⟩ ∧
    decodeWords 1 0x56101851 0x0C94B64D = .vselLong ⟨4, 3, 5, 1⟩ ⟨6, 9, 2, 1, 3, 12, 77⟩ ∧
    decodeWords 1 0x58141851 0 = .vmov ⟨5, 3, 5, 1⟩ ∧
    decodeWords 1 0x5A181851 0x0C94B64D = .vmovLong ⟨6, 3, 5, 1⟩ ⟨6, 9, 2, 1, 3, 12, 77⟩ ∧
    decodeWords 1 0x5C101AA5 0 = .vmovi ⟨4, 3, 677⟩ ∧
    decodeWords 1 0x5E141851 0x0C012345 = .vmoviLong ⟨5, 3, 5, 1⟩ ⟨6, 74565⟩ ∧
    decodeWords 1 0x60181851 0 = .vbcast ⟨6, 3, 5, 1⟩ :=
  ⟨rfl, rfl, rfl, rfl, rfl, rfl, rfl, rfl, rfl, rfl, rfl, rfl, rfl, rfl, rfl, rfl, rfl, rfl, rfl, rfl, rfl, rfl, rfl, rfl⟩

theorem test_decode_class1_part3 :
    decodeWords 1 0x62101851 0x0C94B64D = .vbcastLong ⟨4, 3, 5, 1⟩ ⟨6, 9, 2, 1, 3, 12, 77⟩ ∧
    decodeWords 1 0x64141851 0 = .vlane ⟨5, 3, 5, 1⟩ ∧
    decodeWords 1 0x66181851 0x0C94B64D = .vlaneLong ⟨6, 3, 5, 1⟩ ⟨6, 9, 2, 1, 3, 12, 77⟩ ∧
    decodeWords 1 0x6A101851 0x0C94B64D = .vdot4 ⟨4, 3, 5, 1⟩ ⟨6, 9, 2, 1, 3, 12, 77⟩ ∧
    decodeWords 1 0x6C141851 0 = .vcmp ⟨5, 3, 5, 1⟩ ∧
    decodeWords 1 0x6E181851 0x0C94B64D = .vcmpLong ⟨6, 3, 5, 1⟩ ⟨6, 9, 2, 1, 3, 12, 77⟩ ∧
    decodeWords 1 0x70101851 0 = .vfadd ⟨4, 3, 5, 1⟩ ∧
    decodeWords 1 0x72141851 0x0C94B64D = .vfaddLong ⟨5, 3, 5, 1⟩ ⟨6, 9, 2, 1, 3, 12, 77⟩ ∧
    decodeWords 1 0x74181851 0 = .vfsub ⟨6, 3, 5, 1⟩ ∧
    decodeWords 1 0x76101851 0x0C94B64D = .vfsubLong ⟨4, 3, 5, 1⟩ ⟨6, 9, 2, 1, 3, 12, 77⟩ ∧
    decodeWords 1 0x78141851 0 = .vfmul ⟨5, 3, 5, 1⟩ ∧
    decodeWords 1 0x7A181851 0x0C94B64D = .vfmulLong ⟨6, 3, 5, 1⟩ ⟨6, 9, 2, 1, 3, 12, 77⟩ ∧
    decodeWords 1 0x7E101851 0x0C94B64D = .vfma ⟨4, 3, 5, 1⟩ ⟨6, 9, 2, 1, 3, 12, 77⟩ ∧
    decodeWords 1 0x80141851 0 = .vfmin ⟨5, 3, 5, 1⟩ ∧
    decodeWords 1 0x82181851 0x0C94B64D = .vfminLong ⟨6, 3, 5, 1⟩ ⟨6, 9, 2, 1, 3, 12, 77⟩ ∧
    decodeWords 1 0x84101851 0 = .vfmax ⟨4, 3, 5, 1⟩ ∧
    decodeWords 1 0x86141851 0x0C94B64D = .vfmaxLong ⟨5, 3, 5, 1⟩ ⟨6, 9, 2, 1, 3, 12, 77⟩ ∧
    decodeWords 1 0x88181851 0 = .vfabs ⟨6, 3, 5, 1⟩ ∧
    decodeWords 1 0x8A101851 0x0C94B64D = .vfabsLong ⟨4, 3, 5, 1⟩ ⟨6, 9, 2, 1, 3, 12, 77⟩ ∧
    decodeWords 1 0x8C141851 0 = .vfneg ⟨5, 3, 5, 1⟩ ∧
    decodeWords 1 0x8E181851 0x0C94B64D = .vfnegLong ⟨6, 3, 5, 1⟩ ⟨6, 9, 2, 1, 3, 12, 77⟩ ∧
    decodeWords 1 0x90101851 0 = .vfcmp ⟨4, 3, 5, 1⟩ ∧
    decodeWords 1 0x92141851 0x0C94B64D = .vfcmpLong ⟨5, 3, 5, 1⟩ ⟨6, 9, 2, 1, 3, 12, 77⟩ ∧
    decodeWords 1 0x94181851 0 = .vfclass ⟨6, 3, 5, 1⟩ :=
  ⟨rfl, rfl, rfl, rfl, rfl, rfl, rfl, rfl, rfl, rfl, rfl, rfl, rfl, rfl, rfl, rfl, rfl, rfl, rfl, rfl, rfl, rfl, rfl, rfl⟩

theorem test_decode_class1_part4 :
    decodeWords 1 0x96101851 0x0C94B64D = .vfclassLong ⟨4, 3, 5, 1⟩ ⟨6, 9, 2, 1, 3, 12, 77⟩ ∧
    decodeWords 1 0x9A141851 0x0C94B64D = .vcvt ⟨5, 3, 5, 1⟩ ⟨6, 9, 2, 1, 3, 12, 77⟩ ∧
    decodeWords 1 0x9C181851 0 = .vfrnd ⟨6, 3, 5, 1⟩ ∧
    decodeWords 1 0x9E101851 0x0C94B64D = .vfrndLong ⟨4, 3, 5, 1⟩ ⟨6, 9, 2, 1, 3, 12, 77⟩ ∧
    decodeWords 1 0xA2141851 0x0C94B64D = .vfdot2 ⟨5, 3, 5, 1⟩ ⟨6, 9, 2, 1, 3, 12, 77⟩ ∧
    decodeWords 1 0xA4181851 0 = .vshfl ⟨6, 3, 5, 1⟩ ∧
    decodeWords 1 0xA6101851 0x0C94B64D = .vshflLong ⟨4, 3, 5, 1⟩ ⟨6, 9, 2, 1, 3, 12, 77⟩ ∧
    decodeWords 1 0xA8141851 0 = .vshflx ⟨5, 3, 5, 1⟩ ∧
    decodeWords 1 0xAA181851 0x0C94B64D = .vshflxLong ⟨6, 3, 5, 1⟩ ⟨6, 9, 2, 1, 3, 12, 77⟩ ∧
    decodeWords 1 0xAC101851 0 = .vshflup ⟨4, 3, 5, 1⟩ ∧
    decodeWords 1 0xAE141851 0x0C94B64D = .vshflupLong ⟨5, 3, 5, 1⟩ ⟨6, 9, 2, 1, 3, 12, 77⟩ ∧
    decodeWords 1 0xB0181851 0 = .vshfldn ⟨6, 3, 5, 1⟩ ∧
    decodeWords 1 0xB2101851 0x0C94B64D = .vshfldnLong ⟨4, 3, 5, 1⟩ ⟨6, 9, 2, 1, 3, 12, 77⟩ ∧
    decodeWords 1 0xB4141851 0 = .vvote ⟨5, 3, 5, 1⟩ ∧
    decodeWords 1 0xB6181851 0x0C94B64D = .vvoteLong ⟨6, 3, 5, 1⟩ ⟨6, 9, 2, 1, 3, 12, 77⟩ ∧
    decodeWords 1 0xB8101851 0 = .vredadd ⟨4, 3, 5, 1⟩ ∧
    decodeWords 1 0xBA141851 0x0C94B64D = .vredaddLong ⟨5, 3, 5, 1⟩ ⟨6, 9, 2, 1, 3, 12, 77⟩ ∧
    decodeWords 1 0xBC181851 0 = .vredmin ⟨6, 3, 5, 1⟩ ∧
    decodeWords 1 0xBE101851 0x0C94B64D = .vredminLong ⟨4, 3, 5, 1⟩ ⟨6, 9, 2, 1, 3, 12, 77⟩ ∧
    decodeWords 1 0xC0141851 0 = .vredmax ⟨5, 3, 5, 1⟩ ∧
    decodeWords 1 0xC2181851 0x0C94B64D = .vredmaxLong ⟨6, 3, 5, 1⟩ ⟨6, 9, 2, 1, 3, 12, 77⟩ ∧
    decodeWords 1 0xC4101851 0 = .vscan ⟨4, 3, 5, 1⟩ ∧
    decodeWords 1 0xC6141851 0x0C94B64D = .vscanLong ⟨5, 3, 5, 1⟩ ⟨6, 9, 2, 1, 3, 12, 77⟩ ∧
    decodeWords 1 0xC8181851 0 = .vmatch ⟨6, 3, 5, 1⟩ :=
  ⟨rfl, rfl, rfl, rfl, rfl, rfl, rfl, rfl, rfl, rfl, rfl, rfl, rfl, rfl, rfl, rfl, rfl, rfl, rfl, rfl, rfl, rfl, rfl, rfl⟩

theorem test_decode_class1_part5 :
    decodeWords 1 0xCA101851 0x0C94B64D = .vmatchLong ⟨4, 3, 5, 1⟩ ⟨6, 9, 2, 1, 3, 12, 77⟩ ∧
    decodeWords 1 0xCE141851 0x0C94B64D = .vtopk ⟨5, 3, 5, 1⟩ ⟨6, 9, 2, 1, 3, 12, 77⟩ :=
  ⟨rfl, rfl⟩

theorem test_decode_class2 :
    decodeWords 2 0x00101851 0 = .vex2 ⟨4, 3, 5, 1⟩ ∧
    decodeWords 2 0x02141851 0x0C94B64D = .vex2Long ⟨5, 3, 5, 1⟩ ⟨6, 9, 2, 1, 3, 12, 77⟩ ∧
    decodeWords 2 0x04181851 0 = .vlg2 ⟨6, 3, 5, 1⟩ ∧
    decodeWords 2 0x06101851 0x0C94B64D = .vlg2Long ⟨4, 3, 5, 1⟩ ⟨6, 9, 2, 1, 3, 12, 77⟩ ∧
    decodeWords 2 0x08141851 0 = .vrcp ⟨5, 3, 5, 1⟩ ∧
    decodeWords 2 0x0A181851 0x0C94B64D = .vrcpLong ⟨6, 3, 5, 1⟩ ⟨6, 9, 2, 1, 3, 12, 77⟩ ∧
    decodeWords 2 0x0C101851 0 = .vrsq ⟨4, 3, 5, 1⟩ ∧
    decodeWords 2 0x0E141851 0x0C94B64D = .vrsqLong ⟨5, 3, 5, 1⟩ ⟨6, 9, 2, 1, 3, 12, 77⟩ ∧
    decodeWords 2 0x10181851 0 = .vsqrt ⟨6, 3, 5, 1⟩ ∧
    decodeWords 2 0x12101851 0x0C94B64D = .vsqrtLong ⟨4, 3, 5, 1⟩ ⟨6, 9, 2, 1, 3, 12, 77⟩ ∧
    decodeWords 2 0x14141851 0 = .vsin ⟨5, 3, 5, 1⟩ ∧
    decodeWords 2 0x16181851 0x0C94B64D = .vsinLong ⟨6, 3, 5, 1⟩ ⟨6, 9, 2, 1, 3, 12, 77⟩ ∧
    decodeWords 2 0x18101851 0 = .vcos ⟨4, 3, 5, 1⟩ ∧
    decodeWords 2 0x1A141851 0x0C94B64D = .vcosLong ⟨5, 3, 5, 1⟩ ⟨6, 9, 2, 1, 3, 12, 77⟩ ∧
    decodeWords 2 0x1C181851 0 = .vtanh ⟨6, 3, 5, 1⟩ ∧
    decodeWords 2 0x1E101851 0x0C94B64D = .vtanhLong ⟨4, 3, 5, 1⟩ ⟨6, 9, 2, 1, 3, 12, 77⟩ :=
  ⟨rfl, rfl, rfl, rfl, rfl, rfl, rfl, rfl, rfl, rfl, rfl, rfl, rfl, rfl, rfl, rfl⟩

theorem test_decode_class3_part1 :
    decodeWords 3 0x00101851 0 = .ld ⟨4, 3, 5, 1⟩ ∧
    decodeWords 3 0x02141851 0x0C979ABC = .ldLong ⟨5, 3, 5, 1⟩ ⟨6, 2, 1, 3, 1, 9, 2748⟩ ∧
    decodeWords 3 0x04181851 0 = .st ⟨6, 3, 5, 1⟩ ∧
    decodeWords 3 0x06101851 0x0C979ABC = .stLong ⟨4, 3, 5, 1⟩ ⟨6, 2, 1, 3, 1, 9, 2748⟩ ∧
    decodeWords 3 0x08141851 0 = .lds ⟨5, 3, 5, 1⟩ ∧
    decodeWords 3 0x0A181851 0x0C979ABC = .ldsLong ⟨6, 3, 5, 1⟩ ⟨6, 2, 1, 3, 1, 9, 2748⟩ ∧
    decodeWords 3 0x0C101851 0 = .sts ⟨4, 3, 5, 1⟩ ∧
    decodeWords 3 0x0E141851 0x0C979ABC = .stsLong ⟨5, 3, 5, 1⟩ ⟨6, 2, 1, 3, 1, 9, 2748⟩ ∧
    decodeWords 3 0x10181851 0 = .ldt ⟨6, 3, 5, 1⟩ ∧
    decodeWords 3 0x12101851 0x0C979ABC = .ldtLong ⟨4, 3, 5, 1⟩ ⟨6, 2, 1, 3, 1, 9, 2748⟩ ∧
    decodeWords 3 0x14141851 0 = .rdmV ⟨5, 3, 5, 1⟩ ∧
    decodeWords 3 0x16181851 0x0C979ABC = .rdmVLong ⟨6, 3, 5, 1⟩ ⟨6, 2, 1, 3, 1, 9, 2748⟩ ∧
    decodeWords 3 0x18101851 0 = .rdmS ⟨4, 3, 5, 1⟩ ∧
    decodeWords 3 0x1A141851 0x0C979ABC = .rdmSLong ⟨5, 3, 5, 1⟩ ⟨6, 2, 1, 3, 1, 9, 2748⟩ ∧
    decodeWords 3 0x1C181851 0 = .tkrel ⟨6, 3, 5, 1⟩ ∧
    decodeWords 3 0x20101851 0 = .tkq ⟨4, 3, 5, 1⟩ ∧
    decodeWords 3 0x26141851 0x0C979ABC = .atom ⟨5, 3, 5, 1⟩ ⟨6, 2, 1, 3, 1, 9, 2748⟩ ∧
    decodeWords 3 0x2A181851 0x0C979ABC = .red ⟨6, 3, 5, 1⟩ ⟨6, 2, 1, 3, 1, 9, 2748⟩ ∧
    decodeWords 3 0x2E101851 0x0C979ABC = .waitc ⟨4, 3, 5, 1⟩ ⟨6, 2, 1, 3, 1, 9, 2748⟩ ∧
    decodeWords 3 0x30141851 0 = .fence ⟨5, 3, 5, 1⟩ ∧
    decodeWords 3 0x32181851 0x0C979ABC = .fenceLong ⟨6, 3, 5, 1⟩ ⟨6, 2, 1, 3, 1, 9, 2748⟩ ∧
    decodeWords 3 0x34101851 0 = .fenceI ⟨4, 3, 5, 1⟩ ∧
    decodeWords 3 0x38141851 0 = .pref ⟨5, 3, 5, 1⟩ ∧
    decodeWords 3 0x3A181851 0x0C979ABC = .prefLong ⟨6, 3, 5, 1⟩ ⟨6, 2, 1, 3, 1, 9, 2748⟩ :=
  ⟨rfl, rfl, rfl, rfl, rfl, rfl, rfl, rfl, rfl, rfl, rfl, rfl, rfl, rfl, rfl, rfl, rfl, rfl, rfl, rfl, rfl, rfl, rfl, rfl⟩

theorem test_decode_class3_part2 :
    decodeWords 3 0x3C101851 0 = .cwb ⟨4, 3, 5, 1⟩ ∧
    decodeWords 3 0x3E141851 0x0C979ABC = .cwbLong ⟨5, 3, 5, 1⟩ ⟨6, 2, 1, 3, 1, 9, 2748⟩ ∧
    decodeWords 3 0x42181851 0x0C979ABC = .tidef ⟨6, 3, 5, 1⟩ ⟨6, 2, 1, 3, 1, 9, 2748⟩ ∧
    decodeWords 3 0x46101851 0x0C979ABC = .tsweep ⟨4, 3, 5, 1⟩ ⟨6, 2, 1, 3, 1, 9, 2748⟩ ∧
    decodeWords 3 0x4A141851 0x0C979ABC = .twalk ⟨5, 3, 5, 1⟩ ⟨6, 2, 1, 3, 1, 9, 2748⟩ :=
  ⟨rfl, rfl, rfl, rfl, rfl⟩

theorem test_decode_class4 :
    decodeWords 4 0x00101851 0 = .gang ⟨4, 3, 5, 1⟩ ∧
    decodeWords 4 0x02141851 0x0C94B64D = .gangLong ⟨5, 3, 5, 1⟩ ⟨6, 9, 2, 1, 3, 12, 77⟩ ∧
    decodeWords 4 0x04181851 0 = .mm ⟨6, 3, 5, 1⟩ ∧
    decodeWords 4 0x06101851 0x0C94B64D = .mmLong ⟨4, 3, 5, 1⟩ ⟨6, 9, 2, 1, 3, 12, 77⟩ ∧
    decodeWords 4 0x08141851 0 = .mmg ⟨5, 3, 5, 1⟩ ∧
    decodeWords 4 0x0A181851 0x0C94B64D = .mmgLong ⟨6, 3, 5, 1⟩ ⟨6, 9, 2, 1, 3, 12, 77⟩ ∧
    decodeWords 4 0x0C101851 0 = .mmb ⟨4, 3, 5, 1⟩ ∧
    decodeWords 4 0x0E141851 0x0C94B64D = .mmbLong ⟨5, 3, 5, 1⟩ ⟨6, 9, 2, 1, 3, 12, 77⟩ ∧
    decodeWords 4 0x10181851 0 = .mtile ⟨6, 3, 5, 1⟩ ∧
    decodeWords 4 0x12101851 0x0C94B64D = .mtileLong ⟨4, 3, 5, 1⟩ ⟨6, 9, 2, 1, 3, 12, 77⟩ ∧
    decodeWords 4 0x14141851 0 = .mscl ⟨5, 3, 5, 1⟩ ∧
    decodeWords 4 0x16181851 0x0C94B64D = .msclLong ⟨6, 3, 5, 1⟩ ⟨6, 9, 2, 1, 3, 12, 77⟩ ∧
    decodeWords 4 0x18101851 0 = .aclr ⟨4, 3, 5, 1⟩ ∧
    decodeWords 4 0x1A141851 0x0C94B64D = .aclrLong ⟨5, 3, 5, 1⟩ ⟨6, 9, 2, 1, 3, 12, 77⟩ ∧
    decodeWords 4 0x1C181851 0 = .amov ⟨6, 3, 5, 1⟩ ∧
    decodeWords 4 0x1E101851 0x0C94B64D = .amovLong ⟨4, 3, 5, 1⟩ ⟨6, 9, 2, 1, 3, 12, 77⟩ ∧
    decodeWords 4 0x20141851 0 = .afill ⟨5, 3, 5, 1⟩ ∧
    decodeWords 4 0x22181851 0x0C94B64D = .afillLong ⟨6, 3, 5, 1⟩ ⟨6, 9, 2, 1, 3, 12, 77⟩ ∧
    decodeWords 4 0x24101851 0 = .ald ⟨4, 3, 5, 1⟩ ∧
    decodeWords 4 0x26141851 0x0C94B64D = .aldLong ⟨5, 3, 5, 1⟩ ⟨6, 9, 2, 1, 3, 12, 77⟩ ∧
    decodeWords 4 0x28181851 0 = .ast ⟨6, 3, 5, 1⟩ ∧
    decodeWords 4 0x2A101851 0x0C94B64D = .astLong ⟨4, 3, 5, 1⟩ ⟨6, 9, 2, 1, 3, 12, 77⟩ :=
  ⟨rfl, rfl, rfl, rfl, rfl, rfl, rfl, rfl, rfl, rfl, rfl, rfl, rfl, rfl, rfl, rfl, rfl, rfl, rfl, rfl, rfl, rfl⟩

theorem test_decode_class5 :
    decodeWords 5 0x00101851 0 = .cpy ⟨4, 3, 5, 1⟩ ∧
    decodeWords 5 0x02141851 0x0C94B64D = .cpyLong ⟨5, 3, 5, 1⟩ ⟨6, 9, 2, 1, 3, 12, 77⟩ ∧
    decodeWords 5 0x04181851 0 = .cpym ⟨6, 3, 5, 1⟩ ∧
    decodeWords 5 0x06101851 0x0C94B64D = .cpymLong ⟨4, 3, 5, 1⟩ ⟨6, 9, 2, 1, 3, 12, 77⟩ ∧
    decodeWords 5 0x08141851 0 = .cpyw ⟨5, 3, 5, 1⟩ ∧
    decodeWords 5 0x0A181851 0x0C94B64D = .cpywLong ⟨6, 3, 5, 1⟩ ⟨6, 9, 2, 1, 3, 12, 77⟩ ∧
    decodeWords 5 0x0C101851 0 = .mbsend ⟨4, 3, 5, 1⟩ ∧
    decodeWords 5 0x0E141851 0x0C94B64D = .mbsendLong ⟨5, 3, 5, 1⟩ ⟨6, 9, 2, 1, 3, 12, 77⟩ ∧
    decodeWords 5 0x10181851 0 = .mbrecv ⟨6, 3, 5, 1⟩ ∧
    decodeWords 5 0x12101851 0x0C94B64D = .mbrecvLong ⟨4, 3, 5, 1⟩ ⟨6, 9, 2, 1, 3, 12, 77⟩ ∧
    decodeWords 5 0x14141851 0 = .mbpoll ⟨5, 3, 5, 1⟩ ∧
    decodeWords 5 0x16181851 0x0C94B64D = .mbpollLong ⟨6, 3, 5, 1⟩ ⟨6, 9, 2, 1, 3, 12, 77⟩ ∧
    decodeWords 5 0x18101851 0 = .mbver ⟨4, 3, 5, 1⟩ ∧
    decodeWords 5 0x1A141851 0x0C94B64D = .mbverSet ⟨5, 3, 5, 1⟩ ⟨6, 9, 2, 1, 3, 12, 77⟩ :=
  ⟨rfl, rfl, rfl, rfl, rfl, rfl, rfl, rfl, rfl, rfl, rfl, rfl, rfl, rfl⟩

theorem test_decode_class6 :
    decodeWords 6 0x00101AA5 0 = .trap ⟨4, 3, 677⟩ ∧
    decodeWords 6 0x04141AA5 0 = .bkpt ⟨5, 3, 677⟩ ∧
    decodeWords 6 0x08181851 0 = .trec ⟨6, 3, 5, 1⟩ ∧
    decodeWords 6 0x0A101851 0x0C94B64D = .trecLong ⟨4, 3, 5, 1⟩ ⟨6, 9, 2, 1, 3, 12, 77⟩ ∧
    decodeWords 6 0x0C141851 0 = .xget ⟨5, 3, 5, 1⟩ ∧
    decodeWords 6 0x0E181851 0x0C94B64D = .xgetLong ⟨6, 3, 5, 1⟩ ⟨6, 9, 2, 1, 3, 12, 77⟩ ∧
    decodeWords 6 0x10101851 0 = .xset ⟨4, 3, 5, 1⟩ ∧
    decodeWords 6 0x12141851 0x0C94B64D = .xsetLong ⟨5, 3, 5, 1⟩ ⟨6, 9, 2, 1, 3, 12, 77⟩ ∧
    decodeWords 6 0x14001851 0 = .eresumeRetry ⟨0, 3, 5, 1⟩ ∧
    decodeWords 6 0x14041851 0 = .eresumeSkip ⟨1, 3, 5, 1⟩ ∧
    decodeWords 6 0x14081851 0 = .eresumeJmp ⟨2, 3, 5, 1⟩ ∧
    decodeWords 6 0x16181851 0x0C012345 = .eresumeRel ⟨6, 3, 5, 1⟩ ⟨6, 74565⟩ ∧
    decodeWords 6 0x18101851 0 = .getsr ⟨4, 3, 5, 1⟩ ∧
    decodeWords 6 0x1C141851 0 = .setsr ⟨5, 3, 5, 1⟩ ∧
    decodeWords 6 0x20181851 0 = .time ⟨6, 3, 5, 1⟩ ∧
    decodeWords 6 0x24101851 0 = .sample ⟨4, 3, 5, 1⟩ ∧
    decodeWords 6 0x26141851 0x0C94B64D = .sampleMark ⟨5, 3, 5, 1⟩ ⟨6, 9, 2, 1, 3, 12, 77⟩ ∧
    decodeWords 6 0x28181AA5 0 = .hostsig ⟨6, 3, 677⟩ ∧
    decodeWords 6 0x2A101851 0x0C012345 = .hostsigLong ⟨4, 3, 5, 1⟩ ⟨6, 74565⟩ :=
  ⟨rfl, rfl, rfl, rfl, rfl, rfl, rfl, rfl, rfl, rfl, rfl, rfl, rfl, rfl, rfl, rfl, rfl, rfl, rfl⟩

/-! Helpers: a board with one launched wave, and the checks of a claim's hypothesis as a test. -/

/-- A slot in a clause of n words, its 32 lanes in MASK. -/
def tSlot (n : Nat) : Slot :=
  { used := true, inClause := true, hdrW := w32 (3 * 2 ^ 30 + n), mask := 0xFFFFFFFF }
/-- A wave of width 32 whose slot A is in a clause of n words. -/
def tWave (n : Nat) : Wave := { blk := 1, idx := 0, width := 32, ctx := 0, a := tSlot n }
/-- Its block, with two buffers and two barriers. -/
def tBlock : Block :=
  { ctx := 0, lid := 1, grp := 1, idx := 0, core := 0, budget := 32, width := 32, waves := [1],
    var := ⟨0, 0, 64, placedMeta⟩, bars := [⟨false, 0, true, 1, 0, 0, [], [], [], false⟩] }
/-- The machine that holds them: the wave is active on core 0 and under the cursor. -/
def tState (w : Wave) (b : Block) : State :=
  { State.reset with
    waves := [(1, w)], blocks := [(1, b)], nextId := 100, cur := some ⟨1, false⟩,
    groups := [(1, { lid := 1, num := 0, ctx := 0, rope := 0, blocks := [1],
                     bars := [⟨true, 1, true, 1, 0, 0, [], [], [], false⟩] })],
    cores := [(0, { active := [1] })] }
/-- A word of these facts as its wave offers it. -/
def tIC (sp : WSpec) (w : Wave) (b : Block) : IC :=
  ⟨1, false, w, w.a, b, b.core, liveLanes sp.lanes w w.a.mask sp.u.g, sp.u⟩

/-- The checks of `Offered`. -/
def offers (sp : WSpec) (k : IC) (s : State) : Bool :=
  decide (s.cur = some ⟨k.wid, k.slotB⟩) && decide (tget s.waves k.wid = some k.w) && decide (blockOf s k.w = some k.b) &&
  decide (k.x = slotOf k.w k.slotB) && decide (k.core = k.b.core) &&
  decide (k.live = liveLanes sp.lanes k.w k.x.mask sp.u.g) && decide (k.u = sp.u) && waveRuns s k.wid k.w k.b &&
  slotRuns k.x && k.x.inClause && decide (k.w.defer = [])

/-- The checks of `Passes`. -/
def meets (sp : WSpec) (k : IC) (s : State) : Bool :=
  offers sp k s && decide (sp.last = true → hdrCount k.x.hdrW ≤ k.x.idx + sp.u.words) && sp.ok k.w.width &&
  decide (sp.hOnly = true → k.b.handler = true) && (sp.lanes || guardWave k.w k.x.mask sp.u.g) &&
  decide (boundTrap s k.b k.x (wordOps sp k) = none) &&
  decide (emptyCheck k.b k.wid k.w k.x sp.mat (usedOps sp k (wordOps sp k)) = .full) &&
  decide (poisonRead k.b k.w k.x (usedOps sp k (wordOps sp k)) = none)

theorem offered_of {sp : WSpec} {k : IC} {s : State} (h : offers sp k s = true) : Offered sp k s := by
  simp only [offers, Bool.and_eq_true, decide_eq_true_eq] at h
  obtain ⟨⟨⟨⟨⟨⟨⟨⟨⟨⟨h1, h2⟩, h3⟩, h4⟩, h5⟩, h6⟩, h7⟩, h8⟩, h9⟩, h10⟩, h11⟩ := h
  exact ⟨h1, h2, h3, h4, h5, h6, h7, h8, h9, h10, h11⟩

theorem passes_of {sp : WSpec} {k : IC} {s : State} (h : meets sp k s = true) : Passes sp k s := by
  simp only [meets, Bool.and_eq_true, decide_eq_true_eq, Bool.or_eq_true] at h
  obtain ⟨⟨⟨⟨⟨⟨⟨h1, h2⟩, h3⟩, h4⟩, h5⟩, h6⟩, h7⟩, h8⟩ := h
  exact ⟨offered_of h1, h2, h3, h4, h5, h6, h7, h8⟩

/-- Every word of the list meets a claim's hypotheses, P among them, in some state. -/
abbrev Each (l : List WordForm) (P : IC → State → Prop) : Prop := ∀ f ∈ l, ∃ k s, Passes f.sp k s ∧ P k s

theorem each_at {l : List WordForm} {P : IC → State → Prop} [∀ k s, Decidable (P k s)] (w : Nat → Wave) (b : Block)
    (g : State → State) (h : l.all (fun f =>
      let k := tIC f.sp (w f.sp.u.words) b
      let s := g (tState (w f.sp.u.words) b)
      meets f.sp k s && decide (P k s)) = true) : Each l P := by
  intro f hf
  have := List.all_eq_true.mp h f hf
  simp only [Bool.and_eq_true, decide_eq_true_eq] at this
  exact ⟨_, _, passes_of this.1, this.2⟩

/-- Words of zeros. -/
abbrev m0 : ModW := ⟨0, 0, 0, 0, 0, 0, 0⟩
abbrev c0 : CW := ⟨0, 0, 0, 0⟩
abbrev x0 : XW := ⟨0, 0⟩
abbrev n0 : MemW := ⟨0, 0, 0, 0, 0, 0, 0⟩
/-- A wave of the board with its slot A changed. -/
def tWaveA (f : Slot → Slot) (n : Nat) : Wave := { tWave n with a := f (tSlot n) }
/-- The wave with a value in s0, and with one in v0 of every lane. -/
def tWaveS (v : W64) (n : Nat) : Wave := { tWave n with sc := [(0, v)] }
def tWaveV (v : W32) (n : Nat) : Wave := { tWave n with ve := [(0, List.replicate 32 v)] }
/-- The board's launch, with its arguments. -/
def tLaunch (args : List Byte) : Launch :=
  { ctx := 0, queue := 0, k := 0, kind := 1, ord := false, fuse := false, width := 32, mode := 0, prio := 0, opp := 0,
    sig := false, nblocks := 1, kdesc := 0, args := args, argsBad := false, start := 0, seed := 1, comp := 0, deps := [],
    tlbVa := 0, tlbLen := 0 }
/-- Code at address 8 in the instruction cache of core 0: a clause of two words, an ELSE and an ENDIF, an ENDIF alone twice,
or an ENDLOOP; the slot's page is translated. -/
def tCode (w1 w2 : W32) (s : State) : State :=
  { s with icache := [(0, [(0x10008, 0xC0000002), (0x1000C, w1), (0x10010, w2)])] }
def tElse (s : State) : State := tCode 0x98000000 0x9C000000 s
def tEndif (s : State) : State := tCode 0x9C000000 0x9C000000 s
def tEndloop (s : State) : State := tCode 0xAC000000 0xAC000000 s
def tLeaf : Leaf := ⟨0x10000, 16, true, true, true⟩
def tX (x : Slot) : Slot := { x with walked := [⟨0, some tLeaf⟩] }
/-- An IF frame whose ELSE or ENDIF is the word of the board's slot, and a LOOP frame whose ENDLOOP it is. -/
def tIf (d : DivMode) : Frame := .ifF ⟨0, 0xFFFFFFFF, 0xFFFF0000, false, d, some {}, {}, {}⟩
def tLoop (left : Option Nat) : Frame := .loopF ⟨0xFFFFFFFF, 0, 0, left, 0, {}⟩
def tFr (l : List Frame) (n : Nat) : Wave := tWaveA (fun x => tX { x with frames := l }) n
/-- The board's block with one barrier, and a wave whose page 0 has a leaf. -/
def tBar (x : Barrier) : Block := { tBlock with bars := [x] }
def tMem (sc : W64) (leaf : Option Leaf) (n : Nat) : Wave :=
  { tWaveA (fun x => { x with walked := [⟨0, leaf⟩] }) n with sc := [(0, sc)] }
/-- The running copy of another word holds addresses 0 to 255 against all accesses. -/
def tLock : Lock :=
  { slo := 0, dlo := 0, slen := 256, dlen := 256, seq := 9, done := 0, sbv := false, dbv := false, mcv := false, blk := 7,
    sbuf := 0, dbuf := 0, ctx := 0, owner := (0, 0) }
def tLocked (s : State) : State := { s with ropes := [(0, { locks := [(0, tLock)] })] }
/-- An operation of wave 1 outstanding. -/
def tOp (c : CntK) (b : Body) (s : State) : State := { s with ops := [(5, ⟨1, c, {}, 0, b⟩)] }
/-- A memory word of 4 bytes a lane with no index. -/
abbrev n4 : MemW := ⟨0, 0, 0, 2, 1, 0, 0⟩
/-- Ticket 5 of slice 0 in a state, for the board's context, and the word that names it. -/
def tTicket (e : Ticket) (s : State) : State := { s with slices := [(0, { tk := [(5, { e with leaseEnd := 9 })] })] }
def tTk : W64 := mkTicket 0 0 5 1 0
/-- An iterator over n elements of 4 bytes at address 0, with a progress. -/
def tIter (n : Nat) (progress : Nat) (c : Nat) : Wave :=
  putScalars (tWaveA (fun x => { x with walked := [⟨0, some tLeaf⟩] }) c) 0
    [0, 0, 0, w64 (n + 0x1000100010000), 1, 1, 1, w64 (progress * 2 ^ 32 + 2 ^ 31 + 6 * 256)]
/-- A bound episode of the board's context with observations. -/
def tEp (obs : List Msg) (owner : Nat) (s : State) : State :=
  { s with eps := [(0, { bound := true, owner := owner, estate := 1, obs := obs })] }
/-- Context 0 in use, its page 0 mapped to physical page 0 by a tree at address 0, a handler at 64. -/
def tCtxOn (f : Ctx → Ctx) (s : State) : State :=
  { s with
    mem := [(0, 0x01), (1, 0x10), (0x1000, 0x01), (0x1001, 0x20), (0x2000, 0x03), (0x2007, 0xE0)],
    ctxs := [(0, f { st := 1, en := true, handler := 64, metas := [(0, {})] })] }
/-- A wave that its handler, wave 1, finds parked with a record. -/
def tParked (rec : List W64) : Wave :=
  { blk := 3, idx := 0, width := 32, ctx := 0, a := { tSlot 2 with park := .trapped }
    trap := some ⟨rec, false, false, some 1, false, none⟩ }
/-- The board's wave as the handler of wave 2. -/
def tHandler (rec : List W64) (f : Wave → Wave) (s : State) : State :=
  { s with
    waves := s.waves ++ [(2, f (tParked rec))]
    blocks := s.blocks ++ [(3, { tBlock with waves := [2] })] }
def tHandlerWave (v : W64) (n : Nat) : Wave := { tWaveS v n with parent := some 2 }
def tHandlerBlock : Block := { tBlock with handler := true }
/-- The board. -/
abbrev tS : State := tState (tWave 1) tBlock
/-- The device answers and has booted. -/
def tDev (s : State) : State := { s with dev := { s.dev with answering := true, bootOk := true } }

/-! A cell that the map leaves unassigned, a class-7 header, the table's words, and a few steps. -/

theorem test_decode_unassigned :
    decodeWords 0 0xFC000000 0 = .unimplementedOpcode 0 0xFC000000 0 ∧
    decodeWords 6 0xFE000000 5 = .unimplementedOpcode 6 0xFE000000 5 := ⟨rfl, rfl⟩

theorem test_decode_rejects :
    (match decode 7 [0, 0, 0, 0] with | .error .classSeven => true | _ => false) = true ∧
    (match decode 0 [0, 0, 0] with | .error .shortWord => true | _ => false) = true ∧
    (match decode 0 [0, 0, 0, 2, 0] with | .error .shortWord => true | _ => false) = true := ⟨rfl, rfl, rfl⟩

/-- The wave after one step on words placed in a class, from a state. -/
noncomputable def tRun (cls : BitVec 3) (ws : List W32) (f : State → State) : Option Wave :=
  match step (f (placeWords State.reset cls ws)) with
  | .next s => tget s.waves 1
  | _ => none

/-- R99: `SADDI s3, s3, 100` from zero. -/
theorem test_step_saddi : (tRun 0 [0x080C1864] id).map (fun w => scGet w 3) = some 100 := by decide +kernel
/-- R99: `SADDI s3, s3, 5000` in two words. -/
theorem test_step_saddiLong : (tRun 0 [0x0A0C1800, 5000] id).map (fun w => scGet w 3) = some 5000 := by decide +kernel
/-- R98: a division by 0 gives all ones, its remainder the dividend (SDIV op 12, SREM op 14: s5 = s3 op s4). -/
theorem test_step_sdiv_by_zero :
    (tRun 0 [12 <<< 25 ||| 5 <<< 18 ||| 3 <<< 11 ||| 4 <<< 4] id).map (fun w => scGet w 5) = some (BitVec.allOnes 64) := by
  decide +kernel
/-- R117: END leaves a wave with no lane draining. -/
theorem test_step_end : (tRun 0 [0xB8000000] id).map (·.st) = some .draining := by decide +kernel
/-- R68, R231: an unassigned cell traps with cause 0x01, and TRAP 5 with cause 0x11 and subcode 5 (R220); with a handler
registered the slot parks, word 0 of its record holding the cause and, from bit 32, the subcode. -/
theorem test_step_traps :
    (tRun 0 [0xFC000000] (tCtxOn id)).map (fun w => (w.a.park, (w.trap.map (·.words.headD 0)))) = some (.trapped, some 1) ∧
    (tRun 6 [0x00000005] (tCtxOn id)).map (fun w => (w.trap.map (·.words.headD 0))) = some (some 0x500000011) := by
  constructor <;> decide +kernel
/-- The step after reset runs the word that the table gives NOP. -/
theorem test_withFetchWord :
    (match step (State.reset.withFetchWord 32 0) with | .next s => (tget s.waves 1).map (fun w => w.a.inClause) | _ => none) = some false := by
  decide +kernel

/-! Witnesses. Registers. -/

theorem witness_scalar_words :
    Each ((scalarRegWords c0 m0).map (·.1)) (fun _ _ => True) ∧
    Each ((scalarImmWords c0 ⟨0, 0, 63⟩ ⟨0, 63⟩).map (·.1)) (fun _ _ => True) ∧
    Each ((scalarMoveWords c0 ⟨0, 0, 0⟩ m0 ⟨0, 0⟩).map (·.1)) (fun _ _ => True) ∧
    Each ((compareWords c0 ⟨0, 1, 3⟩ m0 ⟨0, 5⟩).map (·.1)) (fun _ _ => True) :=
  ⟨each_at tWave tBlock id (by decide +kernel), each_at tWave tBlock id (by decide +kernel),
   each_at tWave tBlock id (by decide +kernel), each_at tWave tBlock id (by decide +kernel)⟩

theorem witness_arguments :
    Each (argForms ⟨0, 4, 0, 0⟩ ⟨0, 4, 0⟩ ⟨0, 0⟩) (fun k _ => 3 < k.u.a) ∧
    Each (argForms ⟨0, 1, 0, 0⟩ ⟨0, 1, 1⟩ ⟨0, 1⟩) (fun k _ => k.u.a ≤ 3 ∧ k.u.imm % 2 ^ 11 % 2 ^ k.u.a ≠ 0) ∧
    Each (argForms ⟨0, 2, 0, 0⟩ ⟨0, 2, 4⟩ ⟨0, 4⟩) (fun k s => k.u.a ≤ 3 ∧ k.u.imm % 2 ^ 11 % 2 ^ k.u.a = 0 ∧
      (argsOf s k.b).length + 1 = k.u.imm % 2 ^ 11 + 2 ^ k.u.a) ∧
    Each (argForms ⟨0, 2, 0, 0⟩ ⟨0, 2, 4⟩ ⟨0, 4⟩) (fun k s => k.u.a ≤ 3 ∧ k.u.imm % 2 ^ 11 % 2 ^ k.u.a = 0 ∧
      k.u.imm % 2 ^ 11 + 2 ^ k.u.a = (argsOf s k.b).length) :=
  ⟨each_at tWave tBlock id (by decide +kernel),
   each_at tWave tBlock id (by decide +kernel),
   each_at tWave tBlock (fun s => { s with launches := [(1, tLaunch [1, 2, 3, 4, 5, 6, 7])] }) (by decide +kernel),
   each_at tWave tBlock (fun s => { s with launches := [(1, tLaunch [1, 2, 3, 4, 5, 6, 7, 8])] }) (by decide +kernel)⟩

theorem witness_vector_words :
    Each ((predicateWords c0).map (·.1)) (fun _ _ => True) ∧
    Each ((vectorIntWords c0 m0).map (·.1)) (fun k _ => k.live = 0xFFFFFFFF) ∧
    Each (((vectorMoveWords c0 ⟨0, 0, 0⟩ m0 x0).map (·.1)).eraseIdx 5) (fun k _ => k.live ≠ 0) ∧
    Each ((((vectorMoveWords c0 ⟨0, 0, 0⟩ ⟨0, 1, 0, 0, 0, 2, 1⟩ x0).map (·.1)).drop 5).take 1) (fun k _ => k.live ≠ 0) ∧
    Each ((crossLaneWords c0 m0).map (·.1)) (fun _ _ => True) :=
  ⟨each_at tWave tBlock id (by decide +kernel), each_at tWave tBlock id (by decide +kernel),
   each_at tWave tBlock id (by decide +kernel), each_at tWave tBlock id (by decide +kernel),
   each_at tWave tBlock id (by decide +kernel)⟩

/-- A wave whose v0 holds a signalling NaN, with traps of invalid operations enabled. -/
def tWaveNan (n : Nat) : Wave := { tWaveV 0x7F800001 n with a := { tSlot n with ctl := { mode := 0x100 } } }

theorem witness_rankings_reductions_scans :
    Each (topkForms c0 m0) (fun _ _ => True) ∧
    (∀ p ∈ reduceWords c0 m0, ∃ k s, Passes p.1.sp k s ∧ (redTree (redStep p.2 k 5) 5
      ((upto 32).map (fun l => if k.live.getLsbD l then vVal k 5 k.u.a l else redIdent p.2 5)) {}).2.traps (modeOf k) = false) ∧
    Each (scanForms c0 m0) (fun k _ => (scanRun (redStep .add { k with u := { k.u with card := 0 } } 5) false
      (vVal k 5 k.u.a) (lanesOf k.live) 0).2.traps (modeOf k) = false) := by
  refine ⟨each_at tWave tBlock id (by decide +kernel), fun p hp => ?_, each_at tWave tBlock id (by decide +kernel)⟩
  have h : (reduceWords c0 m0).all (fun p =>
      let k := tIC p.1.sp (tWave p.1.sp.u.words) tBlock
      meets p.1.sp k (tState (tWave p.1.sp.u.words) tBlock) && !(redTree (redStep p.2 k 5) 5
        ((upto 32).map (fun l => if k.live.getLsbD l then vVal k 5 k.u.a l else redIdent p.2 5)) {}).2.traps (modeOf k)) = true := by
    decide +kernel
  have h := List.all_eq_true.mp h p hp
  simp only [Bool.and_eq_true, Bool.not_eq_true'] at h
  exact ⟨_, _, passes_of h.1, h.2⟩

theorem witness_reduction_and_scan_traps :
    (∀ p ∈ reduceWords c0 ⟨0, 10, 0, 0, 0, 0, 0⟩, p.1.sp.u.two = true → ∃ k s, Passes p.1.sp k s ∧ (redTree (redStep p.2 k 10) 5
      ((upto 32).map (fun l => if k.live.getLsbD l then vVal k 10 k.u.a l else redIdent p.2 10)) {}).2.traps (modeOf k) = true) ∧
    Each ((scanForms c0 ⟨0, 10, 0, 0, 0, 0, 0⟩).drop 1) (fun k _ => tyOf k.u 5 = 10 ∧
      (scanRun (redStep .add { k with u := { k.u with card := 0 } } 10) false
        (vVal k 10 k.u.a) (lanesOf k.live) (redIdent .add 10)).2.traps (modeOf k) = true) := by
  refine ⟨fun p hp h2 => ?_, each_at tWaveNan tBlock id (by decide +kernel)⟩
  have h : (reduceWords c0 ⟨0, 10, 0, 0, 0, 0, 0⟩).all (fun p => !p.1.sp.u.two ||
      (let k := tIC p.1.sp (tWaveNan p.1.sp.u.words) tBlock
      meets p.1.sp k (tState (tWaveNan p.1.sp.u.words) tBlock) && (redTree (redStep p.2 k 10) 5
        ((upto 32).map (fun l => if k.live.getLsbD l then vVal k 10 k.u.a l else redIdent p.2 10)) {}).2.traps (modeOf k))) = true := by
    decide +kernel
  have h := List.all_eq_true.mp h p hp
  simp only [h2, Bool.not_true, Bool.false_or, Bool.and_eq_true] at h
  exact ⟨_, _, passes_of h.1, h.2⟩

theorem witness_float_words :
    (∀ g : Nat → Wave, g = tWave ∨ g = tWaveNan → ∀ p ∈ floatWords c0 m0, ∃ k s, Passes p.1.sp k s ∧
      (fpTrap k (fun l => (p.2 k l).2)).isSome = decide (k.w.ve ≠ [])) ∧
    Each (dotForms c0 ⟨0, 11, 0, 0, 0, 0, 0⟩) (fun k _ => fpTrap k (fun l => (fltDot2 k l).2) = none) ∧
    Each (dotForms c0 ⟨0, 11, 0, 0, 0, 0, 0⟩) (fun k _ => (fpTrap k (fun l => (fltDot2 k l).2)).isSome = true) ∧
    Each (floatCmpForms c0 m0) (fun k _ =>
      fpTrap k (fun l => (cmpFp (fmtOf (tyOf k.u 10)) (bits k.u.card 2 0) (fltA k l 0) (fltB k l 0)).2) = none) ∧
    Each (floatCmpForms c0 m0) (fun k _ =>
      (fpTrap k (fun l => (cmpFp (fmtOf (tyOf k.u 10)) (bits k.u.card 2 0) (fltA k l 0) (fltB k l 0)).2)).isSome = true) := by
  refine ⟨fun g hg p hp => ?_, each_at tWave tBlock id (by decide +kernel), each_at tWaveNan tBlock id (by decide +kernel),
    each_at tWave tBlock id (by decide +kernel), each_at tWaveNan tBlock id (by decide +kernel)⟩
  have h : [tWave, tWaveNan].all (fun g => (floatWords c0 m0).all (fun p =>
      let k := tIC p.1.sp (g p.1.sp.u.words) tBlock
      meets p.1.sp k (tState (g p.1.sp.u.words) tBlock) &&
        decide ((fpTrap k (fun l => (p.2 k l).2)).isSome = decide (k.w.ve ≠ [])))) = true := by decide +kernel
  have h := List.all_eq_true.mp (List.all_eq_true.mp h g (by simpa using hg)) p hp
  simp only [Bool.and_eq_true, decide_eq_true_eq] at h
  exact ⟨_, _, passes_of h.1, h.2⟩

theorem witness_conversions :
    Each (cvtForms c0 ⟨0, 10, 0, 0, 5, 6, 0⟩) (fun k s => rmK k = 4 ∧ fpTrap k (fun l => (cvtEl k.u.ty k.u.ty2 false (rmK k)
      (ftzOn k) false (bits (xorshift (seedGet k s l)).toNat 31 16) (vVal k 6 k.u.a l)).2) = none) ∧
    Each (cvtForms c0 ⟨0, 6, 0, 0, 0, 10, 0⟩) (fun k _ => fpTrap k (fun l => (cvtEl k.u.ty k.u.ty2 false (rmK k)
      (ftzOn k) false 0 (vVal k 6 k.u.a l)).2) = none) ∧
    Each (cvtForms c0 ⟨0, 5, 0, 0, 0, 10, 0⟩) (fun k s => (fpTrap k (fun l => (cvtEl k.u.ty k.u.ty2 false (rmK k)
      (ftzOn k) false (bits (xorshift (seedGet k s l)).toNat 31 16) (daz (dazOn k) (fmtOf k.u.ty2) (vVal k 10 k.u.a l))).2)).isSome = true) :=
  ⟨each_at tWave tBlock id (by decide +kernel), each_at tWave tBlock id (by decide +kernel),
   each_at tWaveNan tBlock id (by decide +kernel)⟩

theorem witness_special_functions :
    Each ((specialWords c0 m0).map (·.1)) (fun k _ => k.live ≠ 0 ∧ k.w.cnt.special = 62) ∧
    Each ((specialWords c0 m0).map (·.1)) (fun k _ => k.live ≠ 0 ∧ k.w.cnt.special = 63) :=
  ⟨each_at (fun n => { tWave n with cnt := { special := 62 } }) tBlock id (by decide +kernel),
   each_at (fun n => { tWave n with cnt := { special := 63 } }) tBlock id (by decide +kernel)⟩

/-! Witnesses. Control. -/

theorem witness_housekeeping :
    Each (nopForms c0) (fun _ _ => True) ∧ Each (yieldForms c0) (fun _ _ => True) ∧
    Each ((controlWords c0 ⟨0, 0, 31⟩ x0).map (·.1)) (fun _ _ => True) ∧
    Each (modeForms c0) (fun k _ => srcA k % 2 ^ 32 = 8060 ∧ modeOk (srcA k % 2 ^ 32) = true) ∧
    Each (modeForms c0) (fun k _ => srcA k % 2 ^ 32 = 8192 ∧ modeOk (srcA k % 2 ^ 32) = false) ∧
    Each (waitcntForms ⟨0, 0, 64 * 3 + 63⟩) (fun k _ => ∀ p ∈ [(0, k.w.cnt.load), (1, k.w.cnt.store), (2, k.w.cnt.ticket),
      (3, k.w.cnt.matrix), (4, k.w.cnt.copy), (5, k.w.cnt.special)], bit k.u.imm p.1 = true → p.2 ≤ bits k.u.imm 10 6) ∧
    Each (waitcntForms ⟨0, 0, 64 * 2 + 63⟩) (fun k _ => ¬ ∀ p ∈ [(0, k.w.cnt.load), (1, k.w.cnt.store), (2, k.w.cnt.ticket),
      (3, k.w.cnt.matrix), (4, k.w.cnt.copy), (5, k.w.cnt.special)], bit k.u.imm p.1 = true → p.2 ≤ bits k.u.imm 10 6) :=
  ⟨each_at tWave tBlock id (by decide +kernel), each_at tWave tBlock id (by decide +kernel),
   each_at tWave tBlock id (by decide +kernel), each_at (tWaveS 8060) tBlock id (by decide +kernel),
   each_at (tWaveS 8192) tBlock id (by decide +kernel),
   each_at (fun n => { tWave n with cnt := { store := 3 } }) tBlock id (by decide +kernel),
   each_at (fun n => { tWave n with cnt := { store := 3 } }) tBlock id (by decide +kernel)⟩

theorem witness_transfers :
    Each (brForms c0 ⟨0, 0, 2⟩ x0) (fun k _ => condBr k.w k.x k.u.d k.u.a = true) ∧
    Each (brForms c0 ⟨0, 0, 2⟩ x0) (fun k _ => condBr k.w k.x k.u.d k.u.a = false) ∧
    Each (brForms ⟨16, 1, 0, 0⟩ ⟨16, 1, 0⟩ x0) (fun k _ => condBr k.w k.x k.u.d k.u.a = true) ∧
    Each (jmpForms c0 ⟨0, 0, 2⟩ x0) (fun k _ => 0 ≤ (wordAddr k.x : Int) + 4 * immS k.u) ∧
    Each (jmpForms c0 ⟨0, 0, 2046⟩ ⟨0, 0x1FFFFFE⟩) (fun k _ => (wordAddr k.x : Int) + 4 * immS k.u < 0) ∧
    Each (callForms c0 ⟨0, 0, 2⟩ x0) (fun k _ => 0 ≤ (wordAddr k.x : Int) + 4 * immS k.u) ∧
    Each (retForms c0) (fun k _ => srcA k % 4 = 0 ∧ canonical (srcA k) = true) ∧
    Each (retForms c0) (fun k _ => srcA k % 4 = 3) :=
  ⟨each_at (tWaveA (fun x => { x with ctl := { z := true } })) tBlock id (by decide +kernel),
   each_at tWave tBlock id (by decide +kernel),
   each_at (fun n => { tWave n with preds := [0, 0x80000000] }) tBlock id (by decide +kernel),
   each_at tWave tBlock id (by decide +kernel), each_at tWave tBlock id (by decide +kernel),
   each_at tWave tBlock id (by decide +kernel), each_at (tWaveS 64) tBlock id (by decide +kernel),
   each_at (tWaveS 67) tBlock id (by decide +kernel)⟩

/-- What an IF finds: whether it has an ELSE, its two arms. -/
def ifMeets (els : Bool) (t e : Lanes) (k : IC) (s : State) : Bool :=
  let c := if k.u.b = 0 then prGet k.w k.u.a else if k.u.b = 1 then ~~~(prGet k.w k.u.a) else BitVec.allOnes 64
  (k.x.mask &&& c) == t && (k.x.mask &&& ~~~c) == e &&
  (match scan s k.b k.core k.w.ctx k.x true with | .found _ o _ => o.isSome == els | _ => false)

theorem witness_if :
    Each (ifForms ⟨0, 1, 1, 0⟩) (fun k _ => frameCount k.w = 64) ∧
    Each (ifForms ⟨0, 1, 0, 0⟩) (fun k s => frameCount k.w = 63 ∧ ifMeets false 0 0xFFFFFFFF k s = true) ∧
    Each (ifForms ⟨0, 1, 1, 0⟩) (fun k s => ifMeets false 0xFFFFFFFF 0 k s = true) ∧
    Each (ifForms ⟨0, 1, 0, 0⟩) (fun k s => ifMeets true 0 0xFFFFFFFF k s = true) ∧
    Each (ifForms ⟨0, 1, 1, 0⟩) (fun k s => ifMeets true 0xFFFFFFFF 0 k s = true) ∧
    Each (ifForms ⟨0, 1, 0, 0⟩) (fun k s => ifMeets true 1 0xFFFFFFFE k s = true ∧ k.w.b.used = false) ∧
    Each (ifForms ⟨0, 1, 0, 0⟩) (fun k s => ifMeets true 1 0xFFFFFFFE k s = true ∧ k.w.b.used = true ∧
      k.w.spills.length = 31) ∧
    Each (ifForms ⟨0, 1, 0, 0⟩) (fun k s => ifMeets true 1 0xFFFFFFFE k s = true ∧ k.w.b.used = true ∧
      k.w.spills.length = 32) :=
  ⟨each_at (tFr (List.replicate 64 (tIf .plain))) tBlock id (by decide +kernel),
   each_at (tFr (List.replicate 63 (tIf .plain))) tBlock tEndif (by decide +kernel),
   each_at (tFr []) tBlock tEndif (by decide +kernel), each_at (tFr []) tBlock tElse (by decide +kernel),
   each_at (tFr []) tBlock tElse (by decide +kernel),
   each_at (fun n => { tFr [] n with preds := [0, 1] }) tBlock tElse (by decide +kernel),
   each_at (fun n => { tFr [] n with preds := [0, 1], b := { used := true }, spills := List.replicate 31 ⟨true, 0, 0, {}, false⟩ })
     tBlock tElse (by decide +kernel),
   each_at (fun n => { tFr [] n with preds := [0, 1], b := { used := true }, spills := List.replicate 32 ⟨true, 0, 0, {}, false⟩ })
     tBlock tElse (by decide +kernel)⟩

/-- The top frame of the word's slot is an IF of a mode, and the word stands at its ELSE or its ENDIF. -/
def topIf (d : DivMode) (els : Bool) (k : IC) : Bool :=
  match topFrame k.w k.slotB with
  | some (.ifF fr) => fr.div == d && (if els then (fr.elseAt.map (atLoc k.x)).getD false else atLoc k.x fr.endAt)
  | _ => false

theorem witness_else_endif :
    Each (elseForms c0) (fun k _ => topIf .plain true k = true) ∧ Each (elseForms c0) (fun k _ => topIf .split true k = true) ∧
    (∀ bad ∈ [false, true], Each (elseForms c0) (fun k _ => topIf .spilled true k = true ∧
      (popSpill k.slotB k.w.spills).map (·.1.bad) = some bad)) ∧
    Each (endifForms c0) (fun k _ => topIf .split false k = true ∧ (slotOf k.w true).park ≠ .joining) ∧
    Each (endifForms c0) (fun k _ => topIf .split false k = true ∧ (slotOf k.w true).park = .joining) ∧
    Each (endifForms c0) (fun k _ => topIf .plain false k = true) ∧
    Each (endifForms c0) (fun k _ => topIf .spilled false k = true) ∧
    Each (endifForms c0) (fun k _ => topIf .spilledElse false k = true) :=
  ⟨each_at (tFr [tIf .plain]) tBlock id (by decide +kernel), each_at (tFr [tIf .split]) tBlock id (by decide +kernel),
   (fun bad hb => by
     simp only [List.mem_cons, List.not_mem_nil, or_false] at hb
     rcases hb with rfl | rfl
     · exact each_at (fun n => { tFr [tIf .spilled] n with spills := [⟨false, 16, 1, {}, false⟩] }) tBlock id (by decide +kernel)
     · exact each_at (fun n => { tFr [tIf .spilled] n with spills := [⟨false, 16, 1, {}, true⟩] }) tBlock id (by decide +kernel)),
   each_at (tFr [tIf .split]) tBlock id (by decide +kernel),
   each_at (fun n => { tFr [tIf .split] n with b := { used := true, park := .joining } }) tBlock id (by decide +kernel),
   each_at (tFr [tIf .plain]) tBlock id (by decide +kernel), each_at (tFr [tIf .spilled]) tBlock id (by decide +kernel),
   each_at (tFr [tIf .spilledElse]) tBlock id (by decide +kernel)⟩

/-- A LOOP's scan finds its ENDLOOP. -/
def loopFinds (k : IC) (s : State) : Bool :=
  match scan s k.b k.core k.w.ctx k.x false with | .found .. => true | _ => false

/-- Code at address 12, behind a clause of two words. -/
def tEndloop2 (s : State) : State :=
  { s with icache := [(0, [(0x1000C, 0xC0000002), (0x10010, 0xAC000000), (0x10014, 0)])] }

theorem witness_loops :
    Each (((loopWords ⟨0, 0, 2, 0⟩ x0).map (·.1)).drop 1) (fun k s => k.u.imm = 0 ∧ loopFinds k s = true) ∧
    Each (((loopWords ⟨0, 0, 2, 0⟩ ⟨0, 1⟩).map (·.1)).drop 1) (fun k s => k.u.imm = 1 ∧ loopFinds k s = true ∧ frameCount k.w = 63) ∧
    Each (((loopWords ⟨0, 0, 2, 0⟩ ⟨0, 1⟩).map (·.1)).drop 1) (fun k _ => k.u.imm = 1 ∧ frameCount k.w = 64) ∧
    Each (((loopWords ⟨0, 0, 1, 0⟩ x0).map (·.1)).take 1) (fun k s => srcA k = 7 ∧ loopFinds k s = true) ∧
    Each ((leaveWords ⟨0, 0, 2, 0⟩).map (·.1)) (fun k _ => framesOf k.w k.slotB = []) ∧
    Each ((leaveWords ⟨0, 0, 2, 0⟩).map (·.1)) (fun k _ => tLoop none ∈ framesOf k.w k.slotB) ∧
    Each (endloopForms c0) (fun k _ => topFrame k.w k.slotB = some (tLoop none) ∧ atLoc k.x {} = true) ∧
    Each (endloopForms c0) (fun k _ => topFrame k.w k.slotB = some (tLoop (some 2)) ∧ atLoc k.x {} = true) ∧
    Each (endloopForms c0) (fun k _ => topFrame k.w k.slotB = some (tLoop (some 1)) ∧ atLoc k.x {} = true) :=
  ⟨each_at (tFr []) tBlock tEndloop2 (by decide +kernel),
   each_at (tFr (List.replicate 63 (tIf .plain))) tBlock tEndloop2 (by decide +kernel),
   each_at (tFr (List.replicate 64 (tIf .plain))) tBlock tEndloop2 (by decide +kernel),
   each_at (fun n => { tFr [] n with sc := [(0, 7)] }) tBlock tEndloop (by decide +kernel),
   each_at tWave tBlock id (by decide +kernel), each_at (tFr [tLoop none]) tBlock id (by decide +kernel),
   each_at (tFr [tLoop none]) tBlock id (by decide +kernel), each_at (tFr [tLoop (some 2)]) tBlock id (by decide +kernel),
   each_at (tFr [tLoop (some 1)]) tBlock id (by decide +kernel)⟩

theorem witness_mismatch_and_end :
    Each (elseForms c0) (fun k _ => topFrame k.w k.slotB = none) ∧
    Each (elseForms c0) (fun k _ => topFrame k.w k.slotB = some (tLoop none)) ∧
    Each (endifForms c0) (fun k _ => topFrame k.w k.slotB = none) ∧
    Each (endloopForms c0) (fun k _ => topFrame k.w k.slotB = some (tIf .plain)) ∧
    Each (endForms c0) (fun k _ => (k.w.exited ||| k.x.mask) &&& allLanes k.w.width = allLanes k.w.width) ∧
    Each (endForms c0) (fun k _ => (k.w.exited ||| k.x.mask) &&& allLanes k.w.width = 0x7FFFFFFF) :=
  ⟨each_at tWave tBlock id (by decide +kernel), each_at (tFr [tLoop none]) tBlock id (by decide +kernel),
   each_at tWave tBlock id (by decide +kernel), each_at (tFr [tIf .plain]) tBlock id (by decide +kernel),
   each_at tWave tBlock id (by decide +kernel),
   each_at (tWaveA (fun x => { x with mask := 0x7FFFFFFF })) tBlock id (by decide +kernel)⟩

/-! Witnesses. Barriers and memory. -/

/-- The four barrier words. -/
noncomputable abbrev barForms : List WordForm := barArrForms c0 ++ barWaitForms c0 ++ barDropForms c0 ++ barSyncForms c0

theorem witness_barriers :
    (let is := fun (k : IC) (s : State) (p : Barrier → Bool) => ((barOf s k.b k.u.a).map p).getD false = true
    Each barForms (fun k s => is k s (fun _ => k.w.b.used)) ∧
    Each barForms (fun k s => is k s (fun x => k.w.b.used == false && x.left.contains k.wid)) ∧
    Each barForms (fun k s => is k s (fun x => !x.left.contains k.wid && x.broken)) ∧
    Each barForms (fun k s => is k s (fun x => flagOf x k.wid == none && x.left == [] && !x.broken)) ∧
    Each barForms (fun k s => is k s (fun x => x.rope && flagOf x k.wid == none &&
      releaseDone (sent 3 k s) k.wid k.core 3)) ∧
    Each barForms (fun k s => is k s (fun x => flagOf x k.wid == some 4 && x.phase == 5 && !replayOf s k.w)) ∧
    Each barForms (fun k s => is k s (fun x => flagOf x k.wid == some 5 && x.phase == 5 && !replayOf s k.w)) ∧
    Each (barSyncForms c0) (fun k s => is k s (fun x =>
      releaseDone (sent 2 k s) k.wid k.core 2 &&
      (((tget (barArrive (sent 2 k s) k.w.blk k.wid x).blocks k.w.blk).bind
        (fun b => barOf (barArrive (sent 2 k s) k.w.blk k.wid x) b k.u.a)).map
        (fun y => decide (flagOf y k.wid = some 0 ∧ y.phase = 1))).getD false)) ∧
    Each (barSyncForms c0) (fun k s => is k s (fun x =>
      (((tget (barArrive (sent 2 k s) k.w.blk k.wid x).blocks k.w.blk).bind
        (fun b => barOf (barArrive (sent 2 k s) k.w.blk k.wid x) b k.u.a)).map
        (fun y => decide (flagOf y k.wid = some 0 ∧ y.phase = 0))).getD false))) :=
  ⟨each_at (fun n => { tWave n with b := { used := true } }) tBlock id (by decide +kernel),
   each_at tWave (tBar ⟨false, 0, true, 2, 0, 5, [], [1], [1], false⟩) id (by decide +kernel),
   each_at tWave (tBar ⟨false, 0, true, 2, 0, 5, [], [], [1], true⟩) id (by decide +kernel),
   each_at tWave tBlock id (by decide +kernel),
   each_at tWave { tBlock with bars := [] } (fun s => { s with groups := [(1,
     { lid := 1, num := 0, ctx := 0, rope := 0, blocks := [1], bars := [⟨true, 0, true, 1, 0, 0, [], [], [], false⟩] })] })
     (by decide +kernel),
   each_at tWave (tBar ⟨false, 0, true, 2, 0, 5, [(1, 4)], [], [1], false⟩) id (by decide +kernel),
   each_at tWave (tBar ⟨false, 0, true, 2, 0, 5, [(1, 5)], [], [1], false⟩) id (by decide +kernel),
   each_at tWave tBlock id (by decide +kernel),
   each_at tWave (tBar ⟨false, 0, true, 2, 0, 0, [], [], [], false⟩) id (by decide +kernel)⟩

theorem witness_address_checks :
    let k := fun (leaf : Option Leaf) => tIC { u := ucw c0, ok := fun _ => true } (tMem 0 leaf 1) tBlock
    let s := tState (tMem 0 (some tLeaf) 1) tBlock
    let q : Need := ⟨8, true, false, fun _ => false, 1⟩
    let bad := fun (c : Chk) => match c with | .trap t => (t.cause, t.sub) | _ => (0, 0)
    bad (memCheck (k (some tLeaf)) s true q [(0, 8), (1, 12)]) = (8, 1) ∧
    bad (memCheck (k (some tLeaf)) s true q [(0, 8), (1, 2 ^ 60)]) = (6, 2) ∧
    xlatKnown s 0 0 (k none).x 8 = some none ∧ bad (memCheck (k none) s true q [(0, 8)]) = (6, 1) ∧
    permBad s q ⟨0x10000, 16, true, true, false⟩ 8 = some 1 ∧
    bad (memCheck (k (some ⟨0x10000, 16, true, true, false⟩)) s true q [(0, 8)]) = (7, 1) ∧
    (lockMem (tLocked s) (ropeOfCore 0) 0 248 8 false).isSome = true ∧
    (lockMem (tLocked s) (ropeOfCore 0) 0 256 8 false).isSome = false ∧
    bad (memCheck (k (some tLeaf)) (tLocked s) true q [(0, 248)]) = (9, 0) ∧
    (match memCheck (k (some tLeaf)) (tLocked s) true q [(0, 256)] with | .go l => l | _ => []) = [⟨0, 256, 0x10100⟩] := by decide +kernel


/-- The words that count, each with its counter. -/
noncomputable def counted : List (CntK × List WordForm) :=
  let c : CW := ⟨0, 0, 0, 1⟩
  [(.special, (specialWords c m0).map (·.1)), (.load, ldForms c n4 ++ ldsForms c ⟨0, 0, 0, 2, 0, 0, 0⟩ ++ atomForms c ⟨0, 2, 0, 2, 1, 0, 0⟩),
   (.store, stForms c n4 ++ stsForms c ⟨0, 0, 0, 2, 0, 0, 0⟩ ++ redForms c ⟨0, 2, 0, 2, 1, 0, 0⟩ ++ cwbForms c ⟨0, 0, 0, 0, 1, 0, 0⟩)]

/-- A guard leaves no lane live, with room in the word's counter and without. -/
theorem witness_laneless :
    ∀ n ∈ [62, 63], ∀ p ∈ counted, Each p.2 (fun k _ => k.live = 0 ∧ cntGet k.w.cnt p.1 = n) := by
  intro n hn p hp
  simp only [List.mem_cons, List.not_mem_nil, or_false, counted] at hn hp
  rcases hn with rfl | rfl
  · rcases hp with rfl | rfl | rfl <;>
      exact each_at (fun m => { tWave m with cnt := { load := 62, store := 62, special := 62 } }) tBlock id (by decide +kernel)
  · rcases hp with rfl | rfl | rfl <;>
      exact each_at (fun m => { tWave m with cnt := { load := 63, store := 63, special := 63 } }) tBlock id (by decide +kernel)

theorem witness_loads :
    (let chk := fun (k : IC) (s : State) =>
      memCheck k s true ⟨if k.u.two then 2 ^ k.u.size else 4, true, false, fun _ => false, 1⟩ (laneEas (bit k.u.card 1) k)
    Each (ldForms c0 n4) (fun k s => k.live ≠ 0 ∧ acqHeld k s = true) ∧
    Each (ldForms c0 n4) (fun k s => k.live ≠ 0 ∧ acqHeld k s = false ∧ (match chk k s with | .trap t => t.cause | _ => 0) = 8) ∧
    Each (ldForms c0 n4) (fun k s => k.live ≠ 0 ∧ acqHeld k s = false ∧ (match chk k s with | .go l => l.length | _ => 0) = 32 ∧ k.w.cnt.load = 63) ∧
    Each (ldForms c0 n4) (fun k s => k.live ≠ 0 ∧ acqHeld k s = false ∧ (match chk k s with | .go l => l.length | _ => 0) = 32 ∧ k.w.cnt.load = 62) ∧
    Each (prefForms c0 ⟨0, 0, 0, 0, 1, 0, 0⟩) (fun _ _ => True)) :=
  ⟨each_at (fun n => { tMem 0 (some tLeaf) n with a := { tSlot n with acq := [5] } }) tBlock
     (tOp .load (.vals [] [] [] [] [])) (by decide +kernel),
   each_at (tMem 2 (some tLeaf)) tBlock id (by decide +kernel),
   each_at (fun n => { tMem 0 (some tLeaf) n with cnt := { load := 63 } }) tBlock id (by decide +kernel),
   each_at (fun n => { tMem 0 (some tLeaf) n with cnt := { load := 62 } }) tBlock id (by decide +kernel),
   each_at tWave tBlock id (by decide +kernel)⟩

theorem witness_scratchpad :
    (let n : MemW := ⟨0, 0, 0, 2, 0, 0, 0⟩
    let bad := fun (k : IC) => (lanesOf k.live).flatMap (fun l => k.b.bufPois.filter (fun p =>
      decide (bufAt k.b.var.info k.u.a + (bufOff k l).toNat ≤ p.off ∧ p.off < bufAt k.b.var.info k.u.a + (bufOff k l).toNat + 4)))
    Each (ldsForms c0 n) (fun k s => k.live ≠ 0 ∧ acqHeld k s = true) ∧
    Each (ldsForms c0 n) (fun k s => k.live ≠ 0 ∧ acqHeld k s = false ∧ ((bufCheck k s false).map (·.cause)) = some 4) ∧
    (∀ c ∈ [62, 63], Each (ldsForms c0 n) (fun k s => k.live ≠ 0 ∧ acqHeld k s = false ∧ bufCheck k s false = none ∧
      k.w.cnt.load = c ∧ (∀ l ∈ lanesOf k.live, bufOff k l = 4092) ∧ bad k ≠ [] ∧ ∀ p ∈ bad k, p.sub ≠ 2)) ∧
    Each (ldsForms c0 n) (fun k s => k.live ≠ 0 ∧ acqHeld k s = false ∧ bufCheck k s false = none ∧ ∃ p ∈ bad k, p.sub = 2) ∧
    Each (stsForms c0 n) (fun k s => k.live ≠ 0 ∧ acqHeld k s = true) ∧
    Each (stsForms c0 n) (fun k s => k.live ≠ 0 ∧ acqHeld k s = false ∧ ((bufCheck k s true).map (·.cause)) = some 8) ∧
    (∀ c ∈ [62, 63], Each (stsForms c0 n) (fun k s => k.live ≠ 0 ∧ acqHeld k s = false ∧ bufCheck k s true = none ∧ k.w.cnt.store = c ∧
      ∀ l ∈ lanesOf k.live, bufOff k l = 4092))) := by
  refine ⟨?_, ?_, fun c hc => ?_, ?_, ?_, ?_, fun c hc => ?_⟩
  · exact each_at (fun n => { tMem 0 (some tLeaf) n with a := { tSlot n with acq := [5] } }) tBlock
      (tOp .load (.vals [] [] [] [] [])) (by decide +kernel)
  · exact each_at (fun n => { tMem 4096 (some tLeaf) n with ve := [(0, List.replicate 32 4093)] }) tBlock id (by decide +kernel)
  · simp only [List.mem_cons, List.not_mem_nil, or_false] at hc
    rcases hc with rfl | rfl
    · exact each_at (fun n => { tMem 4092 (some tLeaf) n with cnt := { load := 62 }, ve := [(0, List.replicate 32 4092)] })
        { tBlock with bufPois := [⟨4095, 1, {}, 8⟩] } id (by decide +kernel)
    · exact each_at (fun n => { tMem 4092 (some tLeaf) n with cnt := { load := 63 }, ve := [(0, List.replicate 32 4092)] })
        { tBlock with bufPois := [⟨4095, 1, {}, 8⟩] } id (by decide +kernel)
  · exact each_at (tWaveA (fun x => { x with mask := 1 })) { tBlock with bufPois := [⟨3, 2, {}, 3⟩] } id (by decide +kernel)
  · exact each_at (fun n => { tMem 0 (some tLeaf) n with a := { tSlot n with acq := [5] } }) tBlock
      (tOp .load (.vals [] [] [] [] [])) (by decide +kernel)
  · exact each_at (fun n => { tMem 2 (some tLeaf) n with ve := [(0, List.replicate 32 2)] }) tBlock id (by decide +kernel)
  · simp only [List.mem_cons, List.not_mem_nil, or_false] at hc
    rcases hc with rfl | rfl
    · exact each_at (fun n => { tMem 4092 (some tLeaf) n with cnt := { store := 62 }, ve := [(0, List.replicate 32 4092)] }) tBlock id
        (by decide +kernel)
    · exact each_at (fun n => { tMem 4092 (some tLeaf) n with cnt := { store := 63 }, ve := [(0, List.replicate 32 4092)] }) tBlock id
        (by decide +kernel)

theorem witness_stores :
    (let chk := fun (k : IC) (s : State) =>
      memCheck k s true ⟨if k.u.two then 2 ^ k.u.size else 4, false, true, fun _ => false, 2⟩ (laneEas (bit k.u.card 1) k)
    Each (stForms c0 n4) (fun k s => k.live ≠ 0 ∧ acqHeld k s = true) ∧
    Each (stForms c0 n4) (fun k s => k.live ≠ 0 ∧ acqHeld k s = false ∧ (match chk k s with | .trap t => (t.cause, t.sub) | _ => (0, 0)) = (7, 2)) ∧
    Each (stForms c0 n4) (fun k s => k.live ≠ 0 ∧ acqHeld k s = false ∧ (match chk k s with | .go l => storeHeld k s l 4 | _ => false) = true) ∧
    Each (stForms c0 n4) (fun k s => k.live ≠ 0 ∧ acqHeld k s = false ∧ (match chk k s with | .go l => !storeHeld k s l 4 | _ => false) = true ∧ k.w.cnt.store = 63) ∧
    Each (stForms c0 n4) (fun k s => k.live ≠ 0 ∧ acqHeld k s = false ∧ (match chk k s with | .go l => !storeHeld k s l 4 | _ => false) = true ∧
      k.w.cnt.store = 62 ∧ k.u.order ≠ 3) ∧
    Each ((stForms c0 ⟨0, 3, 3, 2, 1, 0, 0⟩).drop 1) (fun k s => k.live ≠ 0 ∧ acqHeld k s = false ∧ (match chk k s with | .go l => !storeHeld k s l 4 | _ => false) = true ∧
      k.u.order = 3 ∧ releaseDone (sent (scopeK k) k s) k.wid k.core (scopeK k) = true)) :=
  ⟨each_at (fun n => { tMem 0 (some tLeaf) n with a := { tSlot n with acq := [5] } }) tBlock
     (tOp .load (.vals [] [] [] [] [])) (by decide +kernel),
   each_at (tMem 0 (some ⟨0x10000, 16, true, false, true⟩)) tBlock id (by decide +kernel),
   each_at (tMem 0 (some tLeaf)) tBlock (tOp .load (.load 4 0 0 false 0 [⟨0, 0, 0x10000⟩])) (by decide +kernel),
   each_at (fun n => { tMem 0 (some tLeaf) n with cnt := { store := 63 } }) tBlock id (by decide +kernel),
   each_at (fun n => { tMem 0 (some tLeaf) n with cnt := { store := 62 } }) tBlock id (by decide +kernel),
   each_at (tMem 0 (some tLeaf)) tBlock id (by decide +kernel)⟩

theorem witness_narrow_and_wide_stores :
    let s := { State.reset with l1 := [(0, [(2, ⟨.dirty [(256, 7)] 0, 0, 0⟩)])] }
    (l1Of s 0).length < 2048 ∧ (getLine s 0 (lineOf 380)).isSome = true ∧ (l1Of State.reset 0).length < 2048 ∧
    (∀ code size el c g, getLine s 0 (lineOf 380) ≠ some ⟨.upd code size el, c, g⟩) ∧ 380 % 128 + [1, 2, 3, 4].length ≤ 128 ∧
    (∀ code size el c g, getLine State.reset 0 (lineOf 380) ≠ some ⟨.upd code size el, c, g⟩) ∧
    departed s 380 = false ∧ departed s (2 ^ 50 + 3 * 2 ^ 42) = true := by
  refine ⟨by decide +kernel, by decide +kernel, by decide +kernel, fun code size el c g h => ?_, by decide,
    fun code size el c g h => ?_, by decide +kernel, by decide +kernel⟩ <;> revert h
  · show getLine _ 0 2 ≠ _
    have : getLine { State.reset with l1 := [(0, [(2, ⟨.dirty [(256, 7)] 0, 0, 0⟩)])] } 0 2 =
      some ⟨.dirty [(256, 7)] 0, 0, 0⟩ := by decide +kernel
    rw [this]; simp
  · show getLine _ 0 2 ≠ _
    have : getLine State.reset 0 2 = none := by decide +kernel
    rw [this]; simp

theorem witness_performed_writes :
    let s := State.reset
    let bytes : Tbl Byte := [(0, 1), (1, 2), (2 ^ 39 - 1, 3)]
    (∀ e ∈ bytes, isStorage s e.1 = true ∧ departed s e.1 = false) ∧ (bytes.map (fun e => canonPa s e.1)).Nodup := by
  decide +kernel

theorem witness_fences :
    Each ((fenceForms c0 ⟨0, 2, 0, 0, 1, 1, 0⟩).drop 1) (fun k s => bit k.u.card 0 = true ∧ readBusy s k.wid = true) ∧
    Each ((fenceForms c0 ⟨0, 2, 0, 0, 1, 1, 0⟩).drop 1) (fun k s => bit k.u.card 0 = true ∧ readBusy s k.wid = false) ∧
    Each ((fenceForms c0 ⟨0, 2, 0, 0, 1, 2, 0⟩).drop 1) (fun k s => bit k.u.card 0 = false ∧
      releaseDone (sent (scopeK k) k s) k.wid k.core (scopeK k) = true) ∧
    Each (fenceForms c0 ⟨0, 2, 0, 0, 1, 0, 0⟩) (fun k s => bit k.u.card 0 = false ∧
      releaseDone (sent (scopeK k) k s) k.wid k.core (scopeK k) = true) ∧
    Each (fenceForms c0 ⟨0, 2, 0, 0, 1, 0, 0⟩) (fun k s => bit k.u.card 0 = false ∧
      releaseDone (sent (scopeK k) k s) k.wid k.core (scopeK k) = false) ∧
    Each (fenceIForms c0) (fun k s => acqHeld k s = true) ∧ Each (fenceIForms c0) (fun k s => acqHeld k s = false) ∧
    Each (cwbForms c0 ⟨0, 0, 0, 0, 1, 0, 0⟩) (fun k s => k.live ≠ 0 ∧ acqHeld k s = false ∧ k.w.cnt.store = 62 ∧
      (match memCheck k s true ⟨1, false, true, fun _ => false, 2⟩ (laneEas (bit k.u.card 1) k) with
       | .go l => l.length | _ => 0) = 32) :=
  ⟨each_at tWave tBlock (tOp .load (.load 4 0 0 false 0 [⟨0, 0, 0x10000⟩])) (by decide +kernel),
   each_at tWave tBlock id (by decide +kernel), each_at tWave tBlock id (by decide +kernel),
   each_at tWave tBlock id (by decide +kernel),
   each_at tWave tBlock (tOp .load (.load 4 0 0 false 0 [⟨0, 0, 0x10000⟩])) (by decide +kernel),
   each_at (fun n => { tMem 0 (some tLeaf) n with a := { tSlot n with acq := [5] } }) tBlock
     (tOp .load (.vals [] [] [] [] [])) (by decide +kernel),
   each_at tWave tBlock id (by decide +kernel),
   each_at (fun n => { tMem 0 (some tLeaf) n with cnt := { store := 62 } }) tBlock id (by decide +kernel)⟩

/-! Witnesses. Atomics, tickets, iterators. -/

/-- The checks of an atomic's addresses: its cause, or how many lanes go on. -/
def atMeets (k : IC) (s : State) : Nat × Nat :=
  match memCheck k s true ⟨2 ^ (k.u.size % 4), false, true, fun _ => false, 3⟩ (laneEas (bit k.u.size 2) k) with
  | .go l => (0, if storeHeld k s l (2 ^ (k.u.size % 4)) || fetchHeld k s l (2 ^ (k.u.size % 4)) || k.live == 0 then 0 else l.length)
  | .trap t => (t.cause, t.sub)
  | .wait _ => (0, 0)

/-- WAITC's address passes; what its monitor reads meets the condition or not. -/
def waitcMeets (k : IC) (s : State) : Option Bool :=
  let va := wrapI 64 (((sVal k k.u.a).toNat : Int) + sextI k.u.disp 12)
  match memCheck k s false ⟨4, true, false, fun _ => false, 1⟩ [(0, va)] with
  | .go [a] =>
    let s0 := reachNow s k.wid (homeLevel s k.core a.pa)
    let s1 := writeBack s0 k.wid k.w.ctx (cacheOf s0 k.core a.pa) (lineOf a.pa)
    let r := homeRead (dropClean s1 (cacheOf s1 k.core a.pa) (lineOf a.pa)) a.pa 4
    if departed s0 a.pa || linesBusy s1 k.core [a.pa] || storeHeld k s1 [a] 4 || (upto 4).any (fun i => unitPois r.2 (a.pa + i)) ||
      ((tget r.2.waves k.wid).map (replayOf r.2)).getD true then none
    else some (monCond k.u.card 4 (ofBytes r.1) (sVal k k.u.c))
  | _ => none

theorem witness_atomics :
    Each (atomForms c0 ⟨0, 2, 0, 2, 1, 0, 0⟩) (fun k s => acqHeld k s = false ∧ atMeets k s = (8, 1)) ∧
    Each (atomForms c0 ⟨0, 2, 0, 2, 1, 0, 0⟩) (fun k s => acqHeld k s = false ∧ atMeets k s = (0, 32) ∧ k.w.cnt.load = 63) ∧
    Each (atomForms c0 ⟨0, 2, 0, 2, 1, 0, 0⟩) (fun k s => acqHeld k s = false ∧ k.live ≠ 0 ∧ fetchHeld k s [⟨0, 0, 0x10000⟩] 4 = true ∧
      atMeets k s = (0, 0)) ∧
    Each (atomForms c0 ⟨0, 2, 0, 2, 1, 0, 0⟩) (fun k s => acqHeld k s = false ∧ atMeets k s = (0, 32) ∧ k.w.cnt.load = 62 ∧
      k.u.order = 0) ∧
    Each (atomForms c0 ⟨0, 2, 3, 2, 1, 0, 0⟩) (fun k s => acqHeld k s = false ∧ atMeets k s = (0, 32) ∧ k.u.order = 3 ∧
      releaseDone (sent (scopeK k) k s) k.wid k.core (scopeK k) = true) ∧
    Each (redForms c0 ⟨0, 2, 0, 2, 1, 0, 0⟩) (fun k s => acqHeld k s = false ∧ atMeets k s = (7, 2)) ∧
    (∀ scope ∈ [2, 3], Each (redForms c0 ⟨0, scope, 0, 2, 1, 0, 0⟩) (fun k s => acqHeld k s = false ∧ atMeets k s = (0, 32) ∧
      k.w.cnt.store = 62 ∧ k.u.order = 0 ∧ linesBusy s k.core [0x10000] = false ∧ scopeK k = scope.toNat)) ∧
    Each (waitcForms c0 n4) (fun k s => acqHeld k s = false ∧ replayOf s k.w = false ∧ waitcMeets k s = some true) ∧
    Each (waitcForms c0 ⟨0, 2, 0, 2, 1, 1, 0⟩) (fun k s => acqHeld k s = false ∧ replayOf s k.w = false ∧ waitcMeets k s = some false) ∧
    Each (waitcForms c0 n4) (fun k s => acqHeld k s = false ∧ replayOf s k.w = false ∧
      (match memCheck k s false ⟨4, true, false, fun _ => false, 1⟩ [(0, 0)] with
       | .go [a] => departed s a.pa && !linesBusy s k.core [a.pa] && !storeHeld k s [a] 4 | _ => false) = true) := by
  refine ⟨each_at (tMem 2 (some tLeaf)) tBlock id (by decide +kernel),
    each_at (fun n => { tMem 0 (some tLeaf) n with cnt := { load := 63 } }) tBlock id (by decide +kernel),
    each_at (tMem 0 (some tLeaf)) tBlock (tTicket { gen := 1, st := .pending, size := 128, pa := 0x10000, wid := 1, op := 3 }) (by decide +kernel),
    each_at (fun n => { tMem 0 (some tLeaf) n with cnt := { load := 62 } }) tBlock id (by decide +kernel),
    each_at (tMem 0 (some tLeaf)) tBlock id (by decide +kernel),
    each_at (tMem 0 (some ⟨0x10000, 16, true, false, true⟩)) tBlock id (by decide +kernel), fun scope hs => ?_,
    each_at (tMem 0 (some tLeaf)) tBlock id (by decide +kernel), each_at (tMem 0 (some tLeaf)) tBlock id (by decide +kernel),
    each_at (tMem 0 (some ⟨2 ^ 50 + 3 * 2 ^ 42, 16, true, true, true⟩)) tBlock id (by decide +kernel)⟩
  simp only [List.mem_cons, List.not_mem_nil, or_false] at hs
  rcases hs with rfl | rfl <;>
    exact each_at (fun n => { tMem 0 (some tLeaf) n with cnt := { store := 62 } }) tBlock id (by decide +kernel)

theorem witness_atomic_waits :
    (let n : MemW := ⟨0, 2, 0, 2, 1, 0, 0⟩
    let chk := fun (k : IC) (s : State) => memCheck k s true ⟨4, false, true, fun _ => false, 3⟩ (laneEas (bit k.u.size 2) k)
    Each (atomForms c0 n ++ redForms c0 n ++ waitcForms c0 n4) (fun k s => k.live ≠ 0 ∧ acqHeld k s = true) ∧
    Each (redForms c0 n) (fun k s => k.live ≠ 0 ∧ acqHeld k s = false ∧
      (match chk k s with | .go l => storeHeld k s l 4 | _ => false) = true) ∧
    Each (redForms c0 n) (fun k s => k.live ≠ 0 ∧ acqHeld k s = false ∧ atMeets k s = (0, 32) ∧ k.w.cnt.store = 63) ∧
    Each (redForms c0 n) (fun k s => k.live ≠ 0 ∧ acqHeld k s = false ∧ atMeets k s = (0, 32) ∧ k.w.cnt.store = 0 ∧ k.u.order = 0 ∧
      linesBusy s k.core [0x10000] = true)) :=
  ⟨each_at (fun n => { tMem 0 (some tLeaf) n with a := { tSlot n with acq := [5] } }) tBlock
     (tOp .load (.vals [] [] [] [] [])) (by decide +kernel),
   each_at (tMem 0 (some tLeaf)) tBlock (tOp .load (.load 4 0 0 false 0 [⟨0, 0, 0x10000⟩])) (by decide +kernel),
   each_at (fun n => { tMem 0 (some tLeaf) n with cnt := { store := 63 } }) tBlock id (by decide +kernel),
   each_at (tMem 0 (some tLeaf)) tBlock
     (fun s => { s with hw := [(3, ⟨2, 0, 0, [(0x10000, 7)], none, none, 0, none, []⟩)] }) (by decide +kernel)⟩

/-- LDT's address: its checks up to the range lock pass, with what it finds of its page. -/
def ldtMeets (k : IC) (s : State) : Option (Option (Bool × Bool)) :=
  let va := wrapI 64 (((sVal k k.u.a).toNat : Int) + sextI k.u.disp 12)
  if acqHeld k s || va % 128 ≠ 0 || !canonical va then none
  else (xlatKnown s k.core k.w.ctx k.x va).map (fun lf => lf.map (fun l =>
    (l.rd, (lockMem s (ropeOfCore k.core) k.w.ctx va 128 false).isNone &&
      !linesBusy (drainLines k s (leafPa s l va) 128) k.core [leafPa s l va])))

theorem witness_ticket_fetches :
    (let n : MemW := ⟨0, 0, 0, 0, 1, 1, 0⟩
    let quota := fun (k : IC) (s : State) => tkUse s k.w.ctx 0
    Each (ldtForms c0 n) (fun k s => acqHeld k s = true) ∧
    Each (ldtForms c0 n) (fun k s => acqHeld k s = false ∧ srcA k = 64) ∧
    Each (ldtForms c0 n) (fun k s => acqHeld k s = false ∧ srcA k = 2 ^ 63 ∧ canonical (srcA k) = false) ∧
    Each (ldtForms c0 n) (fun k s => acqHeld k s = false ∧ srcA k = 0 ∧ (xlatKnown s k.core k.w.ctx k.x 0).isSome = true ∧
      ∃ l ∈ [(⟨0x00F000000000, 16, true, true, true⟩ : Leaf)], xlatKnown s k.core k.w.ctx k.x 0 = some (some l) ∧
        regionOf s (leafPa s l 0) = .regs) ∧
    Each (ldtForms c0 n) (fun k s => ldtMeets k s = some (some (true, false)) ∧ (lockMem s 0 k.w.ctx 0 128 false).isSome = true) ∧
    Each (ldtForms c0 n) (fun k s => ldtMeets k s = some none ∧ quota k s = (0, 0) ∧ k.w.cnt.ticket = 62) ∧
    Each (ldtForms c0 n) (fun k s => ldtMeets k s = some (some (false, true)) ∧ replayOf s k.w = false) ∧
    Each (ldtForms c0 n) (fun k s => ldtMeets k s = some (some (true, true)) ∧ k.w.cnt.ticket = 62 ∧
      (quota k s).1 < (ctxOf s k.w.ctx).tkent ∧ (quota k s).2 + 128 ≤ (ctxOf s k.w.ctx).tkkib * 1024) ∧
    Each (ldtForms c0 n) (fun k s => ldtMeets k s = some (some (true, true)) ∧ replayOf s k.w = false ∧
      (ctxOf s k.w.ctx).tkent ≤ (quota k s).1) ∧
    Each (ldtForms c0 n) (fun k s => ldtMeets k s = some (some (true, true)) ∧ replayOf s k.w = false ∧ k.w.cnt.ticket = 0 ∧
      (quota k s).1 < (ctxOf s k.w.ctx).tkent ∧ (quota k s).2 + 128 ≤ (ctxOf s k.w.ctx).tkkib * 1024 ∧
      sliceFull (drainLines k s 0x10000 128) 0 128 none = true)) :=
  ⟨each_at (fun n => { tMem 0 (some tLeaf) n with a := { tSlot n with acq := [5] } }) tBlock
     (tOp .load (.vals [] [] [] [] [])) (by decide +kernel),
   each_at (tMem 64 (some tLeaf)) tBlock id (by decide +kernel), each_at (tMem (2 ^ 63) (some tLeaf)) tBlock id (by decide +kernel),
   each_at (tMem 0 (some ⟨0x00F000000000, 16, true, true, true⟩)) tBlock id (by decide +kernel),
   each_at (tMem 0 (some tLeaf)) tBlock tLocked (by decide +kernel),
   each_at (fun n => { tMem 0 none n with cnt := { ticket := 62 } }) tBlock id (by decide +kernel),
   each_at (tMem 0 (some ⟨0x10000, 16, true, true, false⟩)) tBlock id (by decide +kernel),
   each_at (fun n => { tMem 0 (some tLeaf) n with cnt := { ticket := 62 } }) tBlock id (by decide +kernel),
   each_at (tMem 0 (some tLeaf)) tBlock (fun s => { s with ctxs := [(0, { tkent := 0 })] }) (by decide +kernel),
   each_at (tMem 0 (some tLeaf)) tBlock
     (tTicket { gen := 1, st := .pending, ctx := 1, size := 1048576, pa := 0x20000, wid := 2, op := 3 }) (by decide +kernel)⟩

theorem witness_redeems :
    (let n : MemW := ⟨0, 0, 0, 0, 1, 1, 0⟩
    let forms := rdmVForms ⟨0, 0, 0, 0⟩ n ++ (rdmSForms ⟨0, 0, 1, 0⟩ ⟨0, 0, 0, 0, 0, 1, 0⟩)
    let ready := fun (k : IC) (s : State) => acqHeld k s = false ∧ k.w.cnt.load = 62 ∧ replayOf s k.w = false ∧
      lockBuf s (ropeOfCore k.core) k.w.blk k.u.d 0 128 true = none
    Each forms (fun k s => ready k s ∧ claimState s k.w.ctx (sVal k k.u.a) = 5) ∧
    Each forms (fun k s => ready k s ∧ claimState s k.w.ctx (sVal k k.u.a) = 3) ∧
    Each forms (fun k s => ready k s ∧ claimState s k.w.ctx (sVal k k.u.a) < 3 ∧ (ticketAt s 0 5).size = 64) ∧
    (∀ st ∈ [TkSt.faulted, .ready, .pending], Each forms (fun k s => ready k s ∧ claimState s k.w.ctx (sVal k k.u.a) < 3 ∧
      tkSlice (sVal k k.u.a) = 0 ∧ tkIndex (sVal k k.u.a) = 5 ∧ (ticketAt s 0 5).size = 128 ∧ (ticketAt s 0 5).st = st)))  := by
  refine ⟨each_at (fun n => { tWaveS (tTk + 1) n with cnt := { load := 62 } }) tBlock (tTicket { gen := 1, st := .ready, size := 128 }) (by decide +kernel),
    each_at (fun n => { tWaveS tTk n with cnt := { load := 62 } }) tBlock
      (tTicket { gen := 1, st := .pending, size := 128, claim := some (.port 0) }) (by decide +kernel),
    each_at (fun n => { tWaveS tTk n with cnt := { load := 62 } }) tBlock (tTicket { gen := 1, st := .ready, size := 64 }) (by decide +kernel),
    fun st hs => ?_⟩
  simp only [List.mem_cons, List.not_mem_nil, or_false] at hs
  rcases hs with rfl | rfl | rfl
  · exact each_at (fun n => { tWaveS tTk n with cnt := { load := 62 } }) tBlock (tTicket { gen := 1, st := .faulted, size := 128 }) (by decide +kernel)
  · exact each_at (fun n => { tWaveS tTk n with cnt := { load := 62 } }) tBlock (tTicket { gen := 1, st := .ready, size := 128 }) (by decide +kernel)
  · exact each_at (fun n => { tWaveS tTk n with cnt := { load := 62 } }) tBlock (tTicket { gen := 1, st := .pending, size := 128 }) (by decide +kernel)

theorem witness_release_and_query :
    Each (tkrelForms c0) (fun k s => replayOf s k.w = true) ∧
    Each (tkrelForms c0) (fun k s => replayOf s k.w = false ∧ claimState s k.w.ctx (sVal k k.u.a) = 3) ∧
    Each (tkrelForms c0) (fun k s => replayOf s k.w = false ∧ claimState s k.w.ctx (sVal k k.u.a) = 2) ∧
    Each (tkqForms c0) (fun k _ => k.w.cnt.ticket = 63) ∧ Each (tkqForms c0) (fun k _ => k.w.cnt.ticket = 62) :=
  ⟨each_at tWave tBlock (fun s => { s with launches := [(1, { tLaunch [] with replay := some 0 })] }) (by decide +kernel),
   each_at (tWaveS (mkTicket 0 0 5 0 0)) tBlock (tTicket { gen := 1, st := .ready, size := 128 }) (by decide +kernel),
   each_at (tWaveS tTk) tBlock (tTicket { gen := 1, st := .faulted, size := 128 }) (by decide +kernel),
   each_at (fun n => { tWave n with cnt := { ticket := 63 } }) tBlock id (by decide +kernel),
   each_at (fun n => { tWave n with cnt := { ticket := 62 } }) tBlock id (by decide +kernel)⟩

theorem witness_iterators :
    (let n : MemW := ⟨0, 0, 0, 0, 1, 0, 0⟩
    Each (tidefForms c0 ⟨0, 2, 0, 0, 1, 0, 0⟩) (fun k _ => iterBad (iterAt k) = some 3) ∧
    Each (tidefForms c0 ⟨0, 2, 0, 0, 1, 0, 0⟩) (fun k _ => iterBad (iterAt k) = none) ∧
    (let ready := fun (k : IC) (s : State) => let r := iterAt k
       acqHeld k s = false ∧ r.valid = true ∧ r.progress ≤ r.count ∧ r.type ∈ iterTys ∧ isFltTy r.type = false ∧
       k.w.cnt.load = 62 ∧ linesBusy s k.core [0x10000] = false ∧ storeHeld k s [⟨0, 0, 0x10000⟩] r.size = false
     let p := fun (k : IC) (s : State) => let r := iterAt k
       prepass k s r (sweepAccs r k.u.card) ((upto (r.count - r.progress)).map (fun i => r.progress + i))
     Each (tsweepForms c0 n) (fun k _ => (iterAt k).valid = false) ∧
     Each (tsweepForms c0 n) (fun k s => ready k s ∧ p k s = ([], [0x10000, 0x10000, 0x10000]) ∧
       (match sweepRun k (iterAt k) k.u.card 1 0 s with | .all _ => true | _ => false) = true) ∧
     Each (tsweepForms c0 n) (fun k s => ready k s ∧ (iterAt k).progress = (iterAt k).count ∧ p k s = ([], [])) ∧
     Each (tsweepForms c0 n) (fun k s => ready k s ∧ p k s = ([], []) ∧
       (match sweepRun k (iterAt k) k.u.card 1 0 s with | .at_ _ e t => e == 0 && t.cause == 7 | _ => false) = true) ∧
     Each (twalkForms ⟨8, 0, 0, 0⟩ n) (fun k _ => (iterAt k).valid = false) ∧
     Each (twalkForms ⟨8, 0, 0, 0⟩ n) (fun k s => acqHeld k s = false ∧ (iterAt k).valid = true ∧ k.w.cnt.load = 62 ∧
       walkSegs (iterAt k) (Config.walkOrder s.fresh) = [0] ∧
       prepass k { s with fresh := s.fresh + 1 } (iterAt k) (fun e => [((iterAt k).addr 1 e, false)])
         (segElems (iterAt k).count 0) = ([], [0x10000]) ∧
       (match walkRun k (iterAt k) k.u.card [0] s (scGet k.w 8) (iterAt k).progress with | .all .. => true | _ => false) = true) ∧
     Each (twalkForms ⟨8, 0, 0, 0⟩ n) (fun k s => acqHeld k s = false ∧ (iterAt k).valid = true ∧
       walkSegs (iterAt k) (Config.walkOrder s.fresh) = [0] ∧
       (match walkRun k (iterAt k) k.u.card [0] s (scGet k.w 8) (iterAt k).progress with
        | .at_ _ _ _ t => t.cause == 7 | _ => false) = true))) :=
  ⟨each_at (fun c => tIter 0 0 c) tBlock id (by decide +kernel), each_at (fun c => tIter 1 0 c) tBlock id (by decide +kernel),
   each_at tWave tBlock id (by decide +kernel),
   each_at (fun c => { tIter 1 0 c with cnt := { load := 62 } }) tBlock id (by decide +kernel),
   each_at (fun c => { tIter 1 1 c with cnt := { load := 62 } }) tBlock id (by decide +kernel),
   each_at (fun c => { tIter 1 0 c with cnt := { load := 62 }, a := { tSlot c with walked := [⟨0, some ⟨0x10000, 16, true, false, true⟩⟩] } })
     tBlock id (by decide +kernel),
   each_at tWave tBlock id (by decide +kernel),
   each_at (fun c => { tIter 1 0xFFFFFFFE c with cnt := { load := 62 } }) tBlock id (by decide +kernel),
   each_at (fun c => { tIter 1 0xFFFFFFFE c with a := { tSlot c with walked := [⟨0, some ⟨0x10000, 16, true, true, false⟩⟩] } })
     tBlock id (by decide +kernel)⟩

/-! Witnesses. Copies, mailboxes, the matrix engine. -/

/-- A copy word's slice is good. -/
def copyGood (kind : Nat) (k : IC) (s : State) : Bool :=
  let sl := sliceOfWord k kind none
  let buf := fun (b off : Nat) => decide (b < k.b.var.info.bufs.length) && decide (off + sl.len ≤ bufSize k.b b)
  !acqHeld k s && (!bit sl.card 0 || buf sl.sbuf sl.src) && (bit sl.card 1 || buf sl.dbuf sl.dst) &&
  [sl.src, sl.dst, sl.len, sl.recVa].all (fun x => x % 16 == 0) && (recordTrap k s sl.recVa == some none) && !sliceReserved k sl

theorem witness_copies :
    (let m : ModW := ⟨0, 0, 3, 0, 0, 0, 0⟩
    let late := fun (k : IC) (n : Nat) => ((tget k.b.copies n).map (fun c => c.st == 2)).getD false
    let words := fun (i : Nat) => (((copyWords ⟨8, 0, 0, 0⟩ m).map (·.1)).drop i).take (if i = 0 then 4 else 2)
    Each (words 0) (fun k s => copyGood 0 k s = true ∧ late k (k.w.copyK + 1) = false ∧ k.w.cnt.copy = 62) ∧
    Each (words 4) (fun k s => copyGood 2 k s = true ∧ late k (k.w.copyK + 1) = false) ∧
    Each (words 0) (fun k s => copyGood 0 k s = true ∧ late k (k.w.copyK + 1) = true ∧ k.w.cnt.copy = 62) ∧
    Each (words 4) (fun k s => copyGood 2 k s = true ∧ late k (k.w.copyK + 1) = true)) :=
  let w := fun (n : Nat) => { tMem 0 (some tLeaf) n with sc := [(2, 4096)], cnt := { copy := 62 } }
  ⟨each_at w tBlock id (by decide +kernel), each_at w tBlock id (by decide +kernel),
   each_at w { tBlock with copies := [(1, { st := 2 })] } id (by decide +kernel),
   each_at w { tBlock with copies := [(1, { st := 2 })] } id (by decide +kernel)⟩

/-- An observation on its way. -/
def tMsg : Msg := ⟨1, 0, 0, 4, []⟩

theorem witness_mailboxes :
    (let sends := fun (k : IC) (s : State) => acqHeld k s = false ∧ mbTrap k s true = none ∧ k.w.cnt.copy = 62 ∧
       releaseDone (sent 5 k s) k.wid k.core 5 = true ∧ replayOf s k.w = false ∧
       (∀ w1 ∈ tget (sent 5 k s).waves k.wid, replayOf (sent 5 k s) w1 = false)
    Each (mbsendForms c0 m0) (fun k s => acqHeld k s = false ∧ (mbTrap k s true).map (·.sub) = some 2) ∧
    Each (mbsendForms c0 m0) (fun k s => sends k s ∧ actsUsed (sent 5 k s) 0 + 1 = mbDepth) ∧
    Each ((mbsendForms c0 ⟨0, 0, 0, 0, 0, 0, 1⟩).drop 1) (fun k s => sends k s ∧ actsUsed (sent 5 k s) 0 = mbDepth ∧ bit k.u.card 0 = true) ∧
    Each (mbsendForms c0 m0) (fun k s => sends k s ∧ actsUsed (sent 5 k s) 0 = mbDepth ∧ bit k.u.card 0 = false) ∧
    (let recvs := fun (k : IC) (s : State) => acqHeld k s = false ∧ replayOf s k.w = false ∧ mbTrap k s false = none ∧
       k.w.cnt.copy = 62 ∧ (epOf s 0).waiters = []
     Each (mbrecvForms c0 m0) (fun k s => acqHeld k s = false ∧ replayOf s k.w = false ∧ (mbTrap k s false).map (·.sub) = some 1) ∧
     Each (mbrecvForms c0 m0) (fun k s => recvs k s ∧ (epOf s 0).obs = [tMsg]) ∧
     Each (mbrecvForms c0 m0) (fun k s => recvs k s ∧ (epOf s 0).obs = [] ∧ bit k.u.card 0 = false) ∧
     Each ((mbrecvForms c0 ⟨0, 0, 0, 0, 0, 0, 1⟩).drop 1) (fun k s => recvs k s ∧ (epOf s 0).obs = [] ∧ bit k.u.card 0 = true)) ∧
    Each (mbpollForms c0 m0) (fun k _ => bits (sVal k k.u.a).toNat 63 9 = 1) ∧
    Each (mbpollForms c0 m0) (fun k s => replayOf s k.w = false ∧ (epOf s (bits (sVal k k.u.a).toNat 8 0)).bound = false) ∧
    Each (mbpollForms c0 m0) (fun k s => replayOf s k.w = false ∧ (epOf s 0).bound = true ∧ (epOf s 0).owner ≠ k.w.ctx) ∧
    Each (mbpollForms c0 m0) (fun k s => replayOf s k.w = false ∧ (epOf s 0).bound = true ∧ (epOf s 0).owner = k.w.ctx ∧ k.w.cnt.copy = 62) ∧
    Each (mbpollForms c0 m0) (fun k s => replayOf s k.w = false ∧ (epOf s 0).bound = true ∧ (epOf s 0).owner = k.w.ctx ∧ k.w.cnt.copy = 63) ∧
    (let ver := fun (k : IC) (s : State) => match verNew k s with | .ok v => v.toNat | .error t => t.cause * 100000
     Each ((mbverForms c0 ⟨0, 0, 0, 0, 0, 0, 1⟩).drop 1) (fun k s => acqHeld k s = false ∧ ver k s = 0x0F * 100000) ∧
     Each (mbverForms c0 m0) (fun k s => acqHeld k s = false ∧ ver k s = 0 ∧ (ctxOf s k.w.ctx).policy = 0xFFFF ∧
       releaseDone (sent 5 k s) k.wid k.core 5 = true ∧ replayOf s k.w = false ∧ ver k (sent 5 k s) = 0 ∧
       ∀ w1 ∈ tget (setPolicy (sent 5 k s) k.w.ctx 0).waves k.wid, replayOf (setPolicy (sent 5 k s) k.w.ctx 0) w1 = false))) := by
  refine ⟨?_, ?_, ?_, ?_, ⟨?_, ?_, ?_, ?_⟩, ?_, ?_, ?_, ?_, ?_, ?_, ?_⟩
  · exact each_at tWave tBlock id (by decide +kernel)
  · exact each_at (fun n => { tWave n with cnt := { copy := 62 } }) tBlock (fun s => { s with
      eps := [(0, { bound := true, estate := 1, actions := List.replicate (mbDepth - 1) tMsg })] }) (by decide +kernel)
  · exact each_at (fun n => { tWave n with cnt := { copy := 62 } }) tBlock (fun s => { s with
      eps := [(0, { bound := true, estate := 1, actions := List.replicate mbDepth tMsg })] }) (by decide +kernel)
  · exact each_at (fun n => { tWave n with cnt := { copy := 62 } }) tBlock (fun s => { s with
      eps := [(0, { bound := true, estate := 1, actions := List.replicate mbDepth tMsg })] }) (by decide +kernel)
  · exact each_at tWave tBlock (tEp [] 3) (by decide +kernel)
  · exact each_at (fun n => { tWave n with cnt := { copy := 62 } }) tBlock (tEp [tMsg] 0) (by decide +kernel)
  · exact each_at (fun n => { tWave n with cnt := { copy := 62 } }) tBlock (tEp [] 0) (by decide +kernel)
  · exact each_at (fun n => { tWave n with cnt := { copy := 62 } }) tBlock (tEp [] 0) (by decide +kernel)
  · exact each_at (tWaveS 512) tBlock id (by decide +kernel)
  · exact each_at (tWaveS 511) tBlock id (by decide +kernel)
  · exact each_at tWave tBlock (tEp [] 3) (by decide +kernel)
  · exact each_at (fun n => { tWave n with cnt := { copy := 62 } }) tBlock (tEp [] 0) (by decide +kernel)
  · exact each_at (fun n => { tWave n with cnt := { copy := 63 } }) tBlock (tEp [] 0) (by decide +kernel)
  · exact each_at (tWaveS 0) tBlock id (by decide +kernel)
  · exact each_at tWave tBlock (fun s => { s with ctxs := [(0, { policy := 0xFFFF })] }) (by decide +kernel)

theorem witness_matrix_words :
    (let m : ModW := ⟨0, 12, 0, 0, 0, 12, 0⟩
    let room := fun (k : IC) (s : State) => k.w.cnt.matrix = 62 ∧ resFull s (ropeOfCore k.core) = false
    (∀ p ∈ multiplyWords c0 m, ∃ k s, Passes p.1.sp k s ∧ gangN k.w.gang = 0 ∧ room k s ∧
      rangeTrap k s (p.2 k).offs (p.2 k).ranges = none) ∧
    (∀ p ∈ multiplyWords c0 m, ∃ k s, Passes p.1.sp k s ∧ gangN k.w.gang = 0 ∧
      (rangeTrap k s (p.2 k).offs (p.2 k).ranges).isSome = true) ∧
    Each (msclForms c0 m0 ++ aclrForms c0 m0 ++ afillForms c0 m0 ++ (aldForms c0 ⟨0, 10, 0, 0, 0, 0, 0⟩) ++
      astForms c0 ⟨0, 10, 0, 0, 0, 0, 0⟩) (fun k s => room k s) ∧
    (∀ c ∈ [0, 4, 8], Each ((amovForms c0 ⟨0, 0, 0, 0, 0, 0, c⟩).drop 1) (fun k s => room k s ∧ bits k.u.card 3 2 = c.toNat / 4)) ∧
    Each (gangForms c0 m0) (fun k s => gangOk s k.b k.w (sVal k k.u.a) = false) ∧
    Each (gangForms c0 m0) (fun k s => gangOk s k.b k.w (sVal k k.u.a) = true) ∧
    Each (mtileForms c0 m) (fun k _ => bits (sVal k k.u.d).toNat 47 32 = 0)) := by
  refine ⟨fun p hp => ?_, fun p hp => ?_, ?_, fun c hc => ?_, ?_, ?_, ?_⟩
  · have h : (multiplyWords c0 ⟨0, 12, 0, 0, 0, 12, 0⟩).all (fun p =>
        let w := { tWave p.1.sp.u.words with cnt := { matrix := 62 } }
        let b : Block := { tBlock with var := ⟨0, 0, 64, { placedMeta with bufs := [⟨262144, 256⟩] }⟩ }
        let k := tIC p.1.sp w b
        let s := tState w b
        meets p.1.sp k s && decide ((gangN k.w.gang = 0 ∧ (k.w.cnt.matrix = 62 ∧ resFull s (ropeOfCore k.core) = false) ∧
          rangeTrap k s (p.2 k).offs (p.2 k).ranges = none))) = true := by decide +kernel
    have h := List.all_eq_true.mp h p hp
    simp only [Bool.and_eq_true, decide_eq_true_eq] at h
    exact ⟨_, _, passes_of h.1, h.2⟩
  · have h : (multiplyWords c0 ⟨0, 12, 0, 0, 0, 12, 0⟩).all (fun p =>
        let b : Block := { tBlock with var := ⟨0, 0, 64, { placedMeta with bufs := [⟨16, 256⟩] }⟩ }
        let k := tIC p.1.sp (tWave p.1.sp.u.words) b
        let s := tState (tWave p.1.sp.u.words) b
        meets p.1.sp k s && decide (gangN k.w.gang = 0 ∧ (rangeTrap k s (p.2 k).offs (p.2 k).ranges).isSome = true)) = true := by
      decide +kernel
    have h := List.all_eq_true.mp h p hp
    simp only [Bool.and_eq_true, decide_eq_true_eq] at h
    exact ⟨_, _, passes_of h.1, h.2⟩
  · exact each_at (fun n => { tWave n with cnt := { matrix := 62 } }) tBlock id (by decide +kernel)
  · simp only [List.mem_cons, List.not_mem_nil, or_false] at hc
    rcases hc with rfl | rfl | rfl <;>
      exact each_at (fun n => { tWave n with cnt := { matrix := 62 } }) tBlock id (by decide +kernel)
  · exact each_at (tWaveS 1) tBlock id (by decide +kernel)
  · exact each_at (tWaveS 0) tBlock id (by decide +kernel)
  · exact each_at (tWaveS 0) tBlock id (by decide +kernel)

/-! Witnesses. Gangs, traps, system words. -/

theorem witness_gangs :
    (let words := (multiplyWords c0 ⟨0, 12, 0, 0, 0, 12, 0⟩).map (·.1)
    Each words (fun k s => gangN k.w.gang = 2 ∧ k.w.gangBad = true ∧ gangLate k s = []) ∧
    Each words (fun k s => gangN k.w.gang = 2 ∧ k.w.gangBad = false ∧ memberGone s k 1 = true ∧ gangLate k s = []) ∧
    Each words (fun k s => gangN k.w.gang = 2 ∧ k.w.gangBad = false ∧ memberGone s k 1 = false ∧ k.w.cnt.matrix = 62 ∧
      (ropeOf s 0).latch = [] ∧ gangLate k s = [] ∧ gangOther k s = none ∧ bufSize k.b k.u.a = 262144)) :=
  let b : Block := { tBlock with waves := [1, 2], var := ⟨0, 0, 64, { placedMeta with bufs := [⟨262144, 256⟩] }⟩ }
  ⟨each_at (fun n => { tWave n with gang := 0x10002, gangBad := true }) b id (by decide +kernel),
   each_at (fun n => { tWave n with gang := 0x10002 }) b id (by decide +kernel),
   each_at (fun n => { tWave n with gang := 0x10002, cnt := { matrix := 62 } }) b
     (fun s => { s with waves := s.waves ++ [(2, { blk := 1, idx := 1, width := 32, ctx := 0 })] }) (by decide +kernel)⟩

theorem witness_mtile :
    Each (mtileForms c0 ⟨0, 12, 0, 0, 0, 12, 0⟩) (fun k s =>
      let x := (sVal k k.u.d).toNat
      let own : List Opnd := [{ field := 0, cls := .q, f := bits x 63 57, n := 4, wr := true, al := 4 },
        { field := 0, cls := .buf, f := bits x 55 48, wr := true }]
      bits x 47 32 = 1 ∧ bits x 15 8 = 1 ∧ bits x 7 0 = 1 ∧ bit x 56 = false ∧ bits x 31 16 = 0 ∧ bits x 55 48 = 1 ∧
      boundTrap s k.b k.x own = none ∧ emptyCheck k.b k.wid k.w k.x true own = .full ∧
      rangeTrap k s [] [(k.u.a, 0, elBytes (typeA k.u) 8192, false), (k.u.b, 0, elBytes (typeB k.u) 8192, false),
        (1, 0, 16384, true)] = none ∧ k.w.cnt.matrix = 62 ∧ resFull s (ropeOfCore k.core) = false) :=
  each_at (fun n => { tWaveS 0x0001000100000101 n with cnt := { matrix := 62 } })
    { tBlock with var := ⟨0, 0, 64, { placedMeta with bufs := [⟨262144, 256⟩, ⟨262144, 256⟩] }⟩ } id (by decide +kernel)

theorem witness_traps :
    Each (trapForms ⟨0, 0, 2047⟩) (fun _ _ => True) ∧
    Each (bkptForms ⟨0, 0, 5⟩) (fun k s => bkptStops s k.core k.w.ctx = false) ∧
    Each (bkptForms ⟨0, 0, 5⟩) (fun k s => bkptStops s k.core k.w.ctx = true) ∧
    (let s := tCtxOn id (tState (tWave 1) tBlock)
     tget s.waves 1 = some (tWave 1) ∧ blockOf s (tWave 1) = some tBlock ∧ (tWave 1).parent = none ∧
     (handlerOf s 0 32).isSome = true ∧ handlerOf (tState (tWave 1) tBlock) 0 32 = none ∧
     (tHandlerWave 0 1).parent = some 2 ∧ blockOf s (tHandlerWave 0 1) = some tBlock) := by
  refine ⟨each_at tWave tBlock id (by decide +kernel), each_at tWave tBlock id (by decide +kernel),
    each_at tWave tBlock (fun s => tCtxOn (fun c => { c with dbg := true })
      { s with cores := [(0, { active := [1], dbg := { bkstop := true } })] }) (by decide +kernel), by decide +kernel⟩

/-- A parked wave with a record is the handler's own. -/
def parked (k : IC) (s : State) : Bool :=
  ((k.w.parent.bind (tget s.waves)).bind (·.trap)).isSome && k.b.handler

theorem witness_trec :
    (∀ a ∈ [0, 31], Each (trecForms ⟨0, a, 0, 0⟩ m0) (fun k s => parked k s = true ∧ k.u.a = a.toNat)) ∧
    (let w := tHandlerWave 0 1
     let f : WordForm := ⟨.trec ⟨0, 32, 0, 0⟩, { u := ucw ⟨0, 32, 0, 0⟩, ok := fun _ => ok85 (ucw ⟨0, 32, 0, 0⟩), hOnly := true, ops := fun _ => [dS (ucw ⟨0, 32, 0, 0⟩)] }⟩
     f ∈ trecForms ⟨0, 32, 0, 0⟩ m0 ∧ offers f.sp (tIC f.sp w tHandlerBlock) (tHandler [] id (tState w tHandlerBlock)) = true ∧ 31 < f.sp.u.a) ∧
    (let w := tHandlerWave 0 2
     (trecForms c0 ⟨0, 0, 0, 0, 0, 0, 1⟩).any (fun f => f.sp.u.two &&
       offers f.sp (tIC f.sp w tHandlerBlock) (tHandler [] id (tState w tHandlerBlock))) = true) := by
  refine ⟨fun a ha => ?_, ⟨List.mem_of_getElem? (i := 0) rfl, by decide +kernel⟩, by decide +kernel⟩
  simp only [List.mem_cons, List.not_mem_nil, or_false] at ha
  rcases ha with rfl | rfl <;> exact each_at (tHandlerWave 0) tHandlerBlock (tHandler [] id) (by decide +kernel)

/-- A selector's symbol of the parked wave can be read. -/
def selGood (k : IC) (s : State) (q : Sel) (own : List Opnd) : Bool :=
  ((k.w.parent.bind (tget s.waves)).map (fun p => !selReserved p.width q &&
    ((blockOf s p).map (fun b => declared s b (selCls q) q.num)).getD false && !isEmpty p (selCls q) q.num && p.pois == [])).getD false &&
  (boundTrap s k.b k.x own == none) && (emptyCheck k.b k.wid k.w k.x false own == .full) && (poisonRead k.b k.w k.x own == none)

theorem witness_parked_symbols :
    Each (xgetForms c0 m0) (fun k s => parked k s = true ∧ selReserved 32 (selOf (srcA k)) = true) ∧
    Each (xgetForms c0 m0) (fun k s => parked k s = true ∧ (selOf (srcA k)).tov = true ∧ selGood k s (selOf (srcA k)) [dV k.u 1] = true) ∧
    (∀ v ∈ [(31 * 2 ^ 16 : W64), 2 ^ 12 + 5, 2 ^ 13 + 31], Each (xgetForms c0 m0) (fun k s => parked k s = true ∧
      (selOf (srcA k)).tov = false ∧ srcA k = v.toNat ∧ selGood k s (selOf (srcA k)) [dS k.u] = true)) ∧
    Each (xsetForms c0 m0) (fun k s => parked k s = true ∧ selReserved 32 (selOf (srcA k)) = true) ∧
    Each (xsetForms c0 m0) (fun k s => parked k s = true ∧ (selOf (srcA k)).tov = true ∧ selGood k s (selOf (srcA k)) [bV k.u 1] = true) ∧
    (∀ v ∈ [(31 * 2 ^ 16 : W64), 2 ^ 12 + 5, 2 ^ 13 + 31], Each (xsetForms c0 m0) (fun k s => parked k s = true ∧
      (selOf (srcA k)).tov = false ∧ srcA k = v.toNat ∧ selGood k s (selOf (srcA k)) [bS k.u] = true)) := by
  refine ⟨each_at (tHandlerWave (2 ^ 21)) tHandlerBlock (tHandler [] id) (by decide +kernel),
    each_at (tHandlerWave (2 ^ 22)) tHandlerBlock (tHandler [] id) (by decide +kernel), fun v hv => ?_,
    each_at (tHandlerWave (2 ^ 21)) tHandlerBlock (tHandler [] id) (by decide +kernel),
    each_at (tHandlerWave (2 ^ 22)) tHandlerBlock (tHandler [] id) (by decide +kernel), fun v hv => ?_⟩ <;>
  · simp only [List.mem_cons, List.not_mem_nil, or_false] at hv
    rcases hv with rfl | rfl | rfl
    · exact each_at (tHandlerWave (31 * 2 ^ 16)) tHandlerBlock (tHandler [] id) (by decide +kernel)
    · exact each_at (tHandlerWave (2 ^ 12 + 5)) tHandlerBlock (tHandler [] id) (by decide +kernel)
    · exact each_at (tHandlerWave (2 ^ 13 + 31)) tHandlerBlock (tHandler [] id) (by decide +kernel)

theorem witness_resumes :
    (let t := fun (k : IC) (s : State) => (k.w.parent.bind (tget s.waves)).bind (·.trap)
    let at_ := fun (k : IC) (s : State) => ((k.w.parent.bind (tget s.waves)).map (fun v => wordAddr v.a)).getD 0
    Each (retryForms c0) (fun k s => parked k s = true ∧ cntZero k.w.cnt = true) ∧
    Each (retryForms c0) (fun k s => parked k s = true ∧ cntZero k.w.cnt = false) ∧
    Each (skipForms ⟨1, 0, 0, 0⟩) (fun k s => parked k s = true ∧ (t k s).map skipOk = some true) ∧
    Each (skipForms ⟨1, 0, 0, 0⟩) (fun k s => parked k s = true ∧ (t k s).map skipOk = some false) ∧
    Each (eresumeJmpForms ⟨2, 0, 0, 0⟩) (fun k s => parked k s = true ∧ srcA k % 4 = 2) ∧
    Each (eresumeJmpForms ⟨2, 0, 0, 0⟩) (fun k s => parked k s = true ∧ srcA k % 4 = 0 ∧ canonical (srcA k) = true) ∧
    Each (eresumeJmpForms ⟨2, 0, 0, 0⟩) (fun k s => parked k s = true ∧ srcA k % 4 = 0 ∧ canonical (srcA k) = false) ∧
    Each (eresumeRelForms ⟨3, 0, 0, 0⟩ ⟨0, 0x1FFFFFF⟩) (fun k s => parked k s = true ∧ (at_ k s : Int) + 4 * immS k.u = 0)) := by
  refine ⟨?_, ?_, ?_, ?_, ?_, ?_, ?_, ?_⟩
  · exact each_at (tHandlerWave 0) tHandlerBlock (tHandler [] id) (by decide +kernel)
  · exact each_at (fun n => { tHandlerWave 0 n with cnt := { store := 1 } }) tHandlerBlock (tHandler [] id) (by decide +kernel)
  · exact each_at (tHandlerWave 0) tHandlerBlock (tHandler [] id) (by decide +kernel)
  · exact each_at (tHandlerWave 0) tHandlerBlock (tHandler [] (fun w => { w with trap := some ⟨[], false, true, some 1, false, none⟩ }))
      (by decide +kernel)
  · exact each_at (tHandlerWave 6) tHandlerBlock (tHandler [] id) (by decide +kernel)
  · exact each_at (tHandlerWave 64) tHandlerBlock (tHandler [] id) (by decide +kernel)
  · exact each_at (tHandlerWave (2 ^ 63)) tHandlerBlock (tHandler [] id) (by decide +kernel)
  · exact each_at (tHandlerWave 0) tHandlerBlock (tHandler [] id) (by decide +kernel)

theorem witness_resume_places :
    (let t : Trap := ⟨[0, 0, 0, 0xC0000002, 0x02000000], false, false, none, false, none⟩
    let x := tSlot 2
    t.atHdr = false ∧ t.stay = false ∧ x.inClause = true ∧ (if bit (t.words.getD 4 0).toNat 25 then 2 else 1) = 2 ∧
    x.idx + 1 < hdrCount x.hdrW ∧ hdrCount x.hdrW ≤ x.idx + 2 ∧ x.back = [] ∧ t.again = none ∧
    { t with again := some {} }.again = some {} ∧ { t with atHdr := true }.atHdr = true ∧
    { x with back := [{ idx := 1 }] }.back = [{ idx := 1 }] ∧ { x with back := [{ idx := 1 }] }.inClause = true) := by decide +kernel

/-- Some form of a word is offered by the board's wave. -/
def offered (l : List WordForm) : Bool :=
  l.any (fun f => offers f.sp (tIC f.sp (tWave 1) tBlock) (tState (tWave 1) tBlock))

/-- The system registers that GETSR shows as they are. -/
theorem witness_system_registers :
    (∀ n ∈ [1, 2, 3, 4, 5, 6, 8, 9, 10, 11, 12, 0x10, 0x18, 0x1A, 0, 0x19, 0x11], Each (getsrForms ⟨0, n, 0, 0⟩) (fun k s =>
      replayOf s k.w = false ∧ k.u.a = n.toNat ∧ k.u.b = 0)) ∧
    (∀ n ∈ [1, 2, 3, 4, 5, 6, 8, 9, 10, 11, 12, 0x10, 0x18, 0x1A, 0, 0x19], Each (getsrForms ⟨0, n, 1, 0⟩) (fun k s =>
      replayOf s k.w = false ∧ k.u.a = n.toNat ∧ k.u.b = 1)) ∧
    (offered (getsrForms ⟨0, 7, 0, 0⟩) = true ∧ offered (getsrForms ⟨0, 0x1B, 0, 0⟩) = true ∧
     offered (getsrForms ⟨1, 0x18, 1, 0⟩) = true) ∧
    offered (setsrForms ⟨0, 7, 0, 0⟩) = true ∧
    Each (setsrForms ⟨0, 0, 0, 0⟩) (fun k _ => k.u.a ∉ [9, 10, 11, 12, 0x19]) ∧
    Each (setsrForms ⟨0, 9, 0, 0⟩) (fun k _ => modeOk (srcB k % 2 ^ 32) = true) ∧
    Each (setsrForms ⟨0, 9, 0, 0⟩) (fun k _ => modeOk (srcB k % 2 ^ 32) = false) ∧
    Each (setsrForms ⟨0, 10, 0, 0⟩) (fun k _ => srcB k = 31) ∧ Each (setsrForms ⟨0, 11, 0, 0⟩) (fun k _ => srcB k = 32) ∧
    Each (setsrForms ⟨0, 12, 0, 0⟩) (fun k _ => srcB k = 1) ∧ Each (setsrForms ⟨0, 12, 0, 0⟩) (fun k _ => srcB k = 2) ∧
    Each (setsrForms ⟨1, 0x19, 0, 0⟩) (fun k _ => k.w.parent = none) := by
  refine ⟨?_, ?_, by decide +kernel, by decide +kernel, each_at tWave tBlock id (by decide +kernel),
    each_at (tWaveS 8060) tBlock id (by decide +kernel), each_at (tWaveS 7) tBlock id (by decide +kernel),
    each_at (tWaveS 31) tBlock id (by decide +kernel), each_at (tWaveS 32) tBlock id (by decide +kernel),
    each_at (tWaveS 1) tBlock id (by decide +kernel), each_at (tWaveS 2) tBlock id (by decide +kernel),
    each_at tWave tBlock id (by decide +kernel)⟩ <;> intro n hn <;>
  · simp only [List.mem_cons, List.not_mem_nil, or_false] at hn
    rcases hn with rfl | rfl | rfl | rfl | rfl | rfl | rfl | rfl | rfl | rfl | rfl | rfl | rfl | rfl | rfl | rfl | rfl <;>
      exact each_at tWave tBlock id (by decide +kernel)

theorem witness_time_samples_signals :
    Each (timeForms c0) (fun k s => replayOf s k.w = false ∧ ¬(memBusy s k.wid = false ∧ ownOwed s k.wid = false)) ∧
    Each (timeForms c0) (fun k s => replayOf s k.w = false ∧ memBusy s k.wid = false ∧ ownOwed s k.wid = true) ∧
    Each (timeForms c0) (fun k s => replayOf s k.w = false ∧ memBusy s k.wid = false ∧ ownOwed s k.wid = false) ∧
    Each (sampleForms c0 m0) (fun k s => (ctxOf s k.w.ctx).speriod = 0) ∧
    Each (sampleForms c0 m0) (fun k s => (ctxOf s k.w.ctx).speriod = 1 ∧ bit k.u.card 0 = false) ∧
    Each ((sampleForms c0 ⟨0, 0, 0, 0, 0, 0, 1⟩).drop 1) (fun k s => (ctxOf s k.w.ctx).speriod = 1 ∧ bit k.u.card 0 = true) ∧
    (let sig := fun (k : IC) (s : State) => acqHeld k s = false ∧ sigWaits s k.wid k.slotB = false ∧
       releaseDone (sent 7 k s) k.wid k.core 7 = true
     let put := fun (k : IC) (s : State) => (putSignal (sent 7 k s) k.w.ctx (sigWords k.b k.w k.u.imm (sVal k k.u.a))).isSome
     Each (hostsigForms c0 ⟨0, 0, 63⟩ ⟨0, 63⟩) (fun k s => sig k s ∧ ringFull (ctxOf (sent 7 k s) k.w.ctx).sigq = true) ∧
     Each (hostsigForms c0 ⟨0, 0, 63⟩ ⟨0, 63⟩) (fun k s => sig k s ∧ ringFull (ctxOf (sent 7 k s) k.w.ctx).sigq = false ∧ put k s = true) ∧
     Each (hostsigForms c0 ⟨0, 0, 63⟩ ⟨0, 63⟩) (fun k s => sig k s ∧ ringFull (ctxOf (sent 7 k s) k.w.ctx).sigq = false ∧ put k s = false)) := by
  refine ⟨each_at tWave tBlock (tOp .load (.load 4 0 0 false 0 [⟨0, 0, 0x10000⟩])) (by decide +kernel),
    each_at (fun n => { tWave n with ownT := 1 }) tBlock id (by decide +kernel),
    each_at tWave tBlock id (by decide +kernel), each_at tWave tBlock id (by decide +kernel),
    each_at tWave tBlock (tCtxOn (fun c => { c with speriod := 1 })) (by decide +kernel),
    each_at tWave tBlock (tCtxOn (fun c => { c with speriod := 1 })) (by decide +kernel),
    each_at tWave tBlock id (by decide +kernel),
    each_at tWave tBlock (tCtxOn (fun c => { c with sigq := { base := 0x4000, log2n := 4, widx := 15 } })) (by decide +kernel),
    each_at tWave tBlock (tCtxOn (fun c => { c with sigq := { base := 0x40000000, log2n := 4, widx := 15 } })) (by decide +kernel)⟩

/-! Witnesses. Events of memory, tickets and the engine. -/

theorem witness_memory_events :
    (let s := tOp .load (.load 4 0 0 false 3 [⟨0, 0, 0x10000⟩, ⟨31, 4, 0x1007C⟩]) tS
     let o : Op := ⟨1, .load, {}, 0, .load 4 0 0 false 3 [⟨0, 0, 0x10000⟩, ⟨31, 4, 0x1007C⟩]⟩
     tget s.ops 5 = some o ∧ (∀ a ∈ [0x10000, 0x1007C], accessHeld s 5 o a 4 = false ∧ regionOf s a ≠ .regs) ∧
     notTurn s 1 {} (some 5) [false, true] = false ∧ awayWave s 1 = false ∧
     (loadLanes o 4 0 0 [⟨0, 0, 0x10000⟩, ⟨31, 4, 0x1007C⟩] s []).any (fun r => r.2.all (fun g => !g.2.2)) = true ∧
     (loadLanes o 4 0 0 [⟨0, 0, 0x10000⟩, ⟨31, 4, 0x1007C⟩] { s with poison := [unitOf 0x1007C] } []).any
       (fun r => (r.2.find? (fun g => g.2.2)).isSome) = true ∧
     (loadLanes o 4 2 0 [⟨0, 0, 0x10000⟩, ⟨31, 4, 0x1007C⟩] { s with poison := [unitOf 0x1007C] } []).any
       (fun r => (r.2.find? (fun g => g.2.2)).isSome) = true) ∧
    (let s := tOp .load (.rdm (.vec 0) tTk 128) { tS with launches := [(1, { tLaunch [] with replay := some 0 })] }
     replayOf s (tWave 1) = true ∧ notTurn s 1 {} (some 5) [false, true] = false ∧ awayWave s 1 = false ∧
     receive s 1 3 0 {} (List.replicate 128 0) = none) ∧
    (let bad := fun (l : List (Nat × W32)) => (l.filter (fun e => (sfLane 2 0 0x200 e.2).2.traps 0x200)).length
     bad [(0, 0x3F800000)] = 0 ∧ bad [(0, 0x3F800000), (5, 0)] = 1) ∧
    (let s := tOp .load (.atom 0 4 0 0 3 [⟨0, 0, 0x10000, 7, 0⟩] [] []) tS
     awayWave s 1 = false ∧ accessHeld s 5 ⟨1, .load, {}, 0, .atom 0 4 0 0 3 [⟨0, 0, 0x10000, 7, 0⟩] [] []⟩ 0x10000 4 = false ∧
     (∀ i < 4, unitPois s (0x10000 + i) = false) ∧ (∃ i < 4, unitPois { s with poison := [unitOf 0x10000] } (0x10000 + i) = true) ∧
     lineOwn s (cacheOf s 0 0x10000) (lineOf 0x10000) = false ∧
     (let d : State := { s with l1 := [(0, [(512, ⟨.dirty [(0x10000, 7)] 0, 0, 0⟩)])] }
      lineOwn d (cacheOf d 0 0x10000) (lineOf 0x10000) = true ∧
      accessHeld d 5 ⟨1, .load, {}, 0, .atom 0 4 0 0 3 [⟨0, 0, 0x10000, 7, 0⟩] [] []⟩ 0x10000 4 = false) ∧
     accessHeld { s with ops := (4, ⟨1, .load, {}, 0, .load 4 0 0 false 3 [⟨0, 0, 0x10000⟩]⟩) :: s.ops } 5
       ⟨1, .load, {}, 0, .atom 0 4 0 0 3 [⟨0, 0, 0x10000, 7, 0⟩] [] []⟩ 0x10000 4 = true ∧
     (laneReceive s ⟨1, .load, {}, 0, .atom 0 4 0 0 3 [⟨0, 0, 0x10000, 7, 0⟩] [(0, 9)] [[]].flatten⟩ 0 [(0, 9)]).isSome = true) ∧
    (let h : HomeWrite := ⟨1, 0, 0, [(0x10000, 1)], none, some 5, 2, none, []⟩
     let s := tOp .store (.store [3] 0) { tS with hw := [(3, h)] }
     tget s.hw 3 = some h ∧ hwBehind s 3 h = false ∧ (tget s.ops 5).isSome = true) ∧
    (let line := fun (st : LineSt) => getLine { State.reset with now := 7, l1 := [(2, [(1, ⟨st, 0, 0⟩)])] } 2 1
     line (.clean [] 7 0 []) = some ⟨.clean [] 7 0 [], 0, 0⟩ ∧ line (.clean [] 8 0 []) = some ⟨.clean [] 8 0 [], 0, 0⟩ ∧
     line (.dirty [(128, 1)] 0) = some ⟨.dirty [(128, 1)] 0, 0, 0⟩ ∧ line (.upd 0 4 [(128, 1)]) = some ⟨.upd 0 4 [(128, 1)], 0, 0⟩) ∧
    (walkTable tS 0 0 = none ∧ (walkTable (tCtxOn id tS) 0 65536).isSome = true) := by
  refine ⟨?_, ?_, ?_, ?_, ?_, ?_, ?_⟩ <;> decide +kernel

/-- Wave 1 waits at a monitor in a mode since a time. -/
def tMon (mode : Nat) (cmp : W64) (s : State) : State :=
  { s with waves := [(1, tWaveA (fun x => { x with park := .monitor ⟨0x10000, 0, 4, 0, cmp, 3, 2, 0, mode, 0⟩ }) 1)] }

theorem witness_tickets_and_waits :
    (let e : Ticket := { gen := 1, st := .pending, size := 128, pa := 0x10000, leaseEnd := 9 }
     ticketAt (tTicket e tS) 0 5 = e ∧ tkLines e = 1 ∧ tget e.lines 0 = none ∧ e.claim = none ∧
     earlierTouches (tTicket e tS) e.op e.wid 0x10000 128 = false ∧
     tkLines { e with lines := [(0, [])] } ≤ [(0, ([] : List Byte))].length ∧ e.leaseEnd ≤ 9 ∧ 8 < e.leaseEnd ∧
     (let f := { e with wid := 1, op := 3 }
      issuerOf tS e 0x10000 = .none ∧ issuerOf tS f 0x10000 = .free 0 ∧
      issuerOf { tS with l1 := [(0, [(512, ⟨.dirty [(0x10000, 7)] 0, 0, 0⟩)])] } f 0x10000 = .holds 0 ∧
      issuerOf { tS with hw := [(3, ⟨1, 0, 0, [(0x10000, 7)], none, none, 0, none, []⟩)] } f 0x10000 = .sends ∧
      earlierTouches (tTicket f tS) 3 1 0x10000 128 = false)) ∧
    (let s := tOp .ticket (.ldt 3 0 0x10000 128 2 none 0) tS
     (tget s.ops 5).isSome = true ∧ awayWave s 1 = false ∧ notTurn s 1 {} (some 5) [false, true] = false ∧ replayOf s (tWave 1) = false ∧
     (ticketAt s 0 16383).st = .free ∧ lineBytes s 0 + 128 ≤ 1048576) ∧
    (let m : MonReq := ⟨0x10000, 0, 4, 0, 0, 3, 2, 0, 1, 0⟩
     let at_ := fun (mode : Nat) (cmp : W64) => monSlot ((tget (tMon mode cmp tS).waves 1).getD (tWave 1)) (fun m => m.mode == 1 || m.mode == 2)
     waitHeld ((tget (tMon 1 0 tS).waves 1).getD (tWave 1)) = false ∧ waitHeld ((tget (tMon 2 1 tS).waves 1).getD (tWave 1)) = false ∧
     monSlot ((tget (tMon 2 1 { tS with now := 60000000000 }).waves 1).getD (tWave 1))
       (fun m => m.mode ≥ 2 && msPast { tS with now := 60000000000 } m.since 60000) = some (false, { m with mode := 2, cmp := 1 }) ∧
     at_ 1 0 = some (false, m) ∧ at_ 2 1 = some (false, { m with mode := 2, cmp := 1 }) ∧
     (let both := { tWaveA (fun x => { x with park := .monitor m }) 1 with b := { used := true, park := .monitor { m with mode := 2 } } }
      waitHeld both = false ∧ monOf both false = some m ∧ monOf both true = some { m with mode := 2 } ∧ monOf (tWave 1) true = none) ∧
     monCond 0 4 0 0 = true ∧ monCond 0 4 0 1 = false ∧ monRoom (tMon 1 1 tS) 0 (homeSlice tS 0x10000) = true ∧
     (∀ i < 4, unitPois tS (0x10000 + i) = false) ∧ (∃ i < 4, unitPois { tS with poison := [unitOf 0x10000] } (0x10000 + i) = true) ∧
     msPast { tS with now := 60000000000 } 0 60000 = true ∧ msPast { tS with now := 59999999999 } 0 60000 = false) ∧
    (let c := fun (ms : Nat) => ctxOf { tS with ctxs := [(0, { st := 1, extms := ms, dlms := ms, dlStart := some 5, preqs := [⟨4, 0, 5, [(1, false)]⟩] })] } 0
     ((c 1).preqs.find? (fun q => q.tag == 4)).isSome = true ∧ (c 1).extms = 1 ∧ (c 0).extms = 0 ∧ (c 1).dlStart = some 5) := by
  refine ⟨?_, ?_, ?_, ?_⟩ <;> decide +kernel

/-- An operation of the matrix engine, outstanding under the name 5. -/
def tMat (m : MatReq) (s : State) : State := tOp .matrix (.mat m) s

theorem witness_matrix_events :
    (let m : MatReq := { kind := 5, d := 0 }
     let s := tMat m { tS with ropes := [(0, { quads := [(0, { owner := some 0 }), (1, { owner := some 0 }), (2, { owner := some 0 }), (3, { owner := some 0 })] })] }
     matOf s 5 = some (⟨1, .matrix, {}, 0, .mat m⟩, m) ∧ matReady s 0 5 ⟨1, .matrix, {}, 0, .mat m⟩ m = true ∧
     reserved s 0 = [(5, ⟨1, .matrix, {}, 0, .mat m⟩)]) ∧
    (∀ kind ∈ [0, 1, 2, 4, 5, 6, 7, 8, 9, 10, 11, 3], let m : MatReq := { kind := kind, granted := true, offB := 1, val := 0x101 }
      let s := tMat m tS
      (matOf s 5).map (·.2) = some m ∧ tget s.waves 1 = some (tWave 1) ∧ blockOf s (tWave 1) = some tBlock ∧
      matOwned s 0 ⟨1, .matrix, {}, 0, .mat m⟩ m = true ∧ (kind ≠ 3 → matErr s 5 m = none) ∧
      (kind = 6 → (matErr { s with blocks := [(1, { tBlock with qpois := [0] })] } 5 m).map (·.1) = some 5) ∧
      (kind = 10 → (matErr { s with blocks := [(1, { tBlock with bufPois := [⟨15, 1, {}, 7⟩] })] } 5 { m with ty := 12 }).map (·.1) = some 5 ∧
        matErr s 5 { m with ty := 12 } = none) ∧
      (kind = 11 → matErr s 5 { m with ty := 12 } = none)) ∧
    (let m : MatReq := { kind := 3, ty := 12, ty2 := 12, offB := 1, val := 0x201, granted := true }
     tileNP m * tileMP m = 2 ∧ m.pitch + 1 < 2 ∧ 2 ≤ { m with pitch := 1 }.pitch + 1 ∧
     bufPoison tBlock m.a (tileRange m.ty (tileKC m) 0).1 (tileRange m.ty (tileKC m) 0).2 = none ∧
     bufPoison { tBlock with bufPois := [⟨4095, 1, {}, 7⟩] } m.a (tileRange m.ty (tileKC m) 0).1 (tileRange m.ty (tileKC m) 0).2 =
       some ⟨4095, 1, {}, 7⟩ ∧
     (∃ q ∈ matQuads m, q ∈ [(0 : Nat)]) ∧ (tWave 1).halted = false ∧ { tWave 1 with halted := true }.halted = true) ∧
    (let e : Latch := ⟨0x10002, 1, 5, 1, [(1, 5)]⟩
     tget (ropeOf { tS with ropes := [(0, { latch := [(7, e)] })] } 0).latch 7 = some e) ∧
    (let m : MatReq := { kind := 5, shape := 1, d := 0, granted := true }
     let s := tMat m { tS with ropes := [(0, { quads := [(0, { owner := some 3 })] })], blocks := [(1, { tBlock with qbind := [(0, 0)] })] }
     let o : Op := ⟨1, .matrix, {}, 0, .mat m⟩
     matOf s 5 = some (o, m) ∧ m.granted = true ∧ 0 ∈ matPhys s o m ∧ ownsQuad s 0 0 0 = false) := by
  refine ⟨?_, ?_, ?_, ?_, ?_⟩ <;> decide +kernel

/-! Witnesses. Copies, messages, waves. -/

/-- Copy 1 of the board's block, with one slice. -/
def tCopy (f : Copy → Copy) (s : State) : State :=
  { s with blocks := [(1, { tBlock with copies := [(1, f { slices := [⟨1, 0, none, 0, 0, 3, 0, 0, 16, 0, 0, 0, 0, 0x4000, {}, none⟩] })] })]
           waves := [(1, { tWave 1 with copyK := 1 })] }

theorem witness_copies_and_messages :
    (∀ st ∈ [0, 1, 3, 4], ((tget (tCopy (fun c => { c with st := st }) tS).blocks 1).bind (fun b => tget b.copies 1)).isSome = true) ∧
    (let s := tCopy id tS
     let b := (tget s.blocks 1).getD tBlock
     let c := (tget b.copies 1).getD {}
     allIssued s b 1 = true ∧ slicesDisagree c = false ∧ b.res = .resident ∧ (ropeOf s 0).locks = [] ∧
     slicesDisagree { c with slices := c.slices ++ c.slices.map (fun x => { x with wave := 1, card := 1 }) } = true ∧
     copyRuns s b { c with st := 1 } = true ∧
     (match copyUnits (tCtxOn id s) b 1 1 (copyLen c) { c with st := 1 } with | .ok r => decide (r.2.tDone = s.now) | .error _ => false) = true ∧
     (match copyUnits { tCtxOn id s with launches := [(1, { tLaunch [] with replay := some 0 })] } b 1 1 (copyLen c) { c with st := 1 } with
      | .ok _ => false | .error _ => true) = true ∧
     (let f := { tCtxOn id s with ropes := [(0, { fused := true })]
                                  hw := [(3, ⟨1, 0, 0, [(0, 7)], none, none, 0, none, []⟩)] }
      match copyUnits f b 1 1 (copyLen c) { c with st := 1, slices := c.slices.map (fun x => { x with dst := 0 }) } with
       | .ok r => decide (r.2.cur < r.2.slices.length) | .error _ => false) = true ∧
     (let full := tCopy (fun c => { c with running := true }) { s with ropes := [(0, { locks := (upto 4).map (fun i => (i, { tLock with owner := (1, 1) })) })] }
      copiesRunning full 0 = 4 ∧ c.running = false)) ∧
    (let s := tOp .copy (.mbsend 0 0 0 4 0 1) tS
     tget s.waves 1 = some (tWave 1) ∧ blockOf s (tWave 1) = some tBlock ∧ (sendsDue s 0).head? = some 5) ∧
    (let s := fun (f : Ctx → Ctx) => tCtxOn f (tOp .special (.hostsig false) tS)
     (slotOf (tWave 1) false).inClause = true ∧ slotRuns (slotOf (tWave 1) false) = true ∧ originOf tBlock (tWave 1) (wordAddr (slotOf (tWave 1) false)) = ⟨0, 4, 0, 0⟩ ∧
     originOf tBlock (tWave 1) (wordAddr (slotOf (tWave 1) false)) ≠ {} ∧ isTwo (rawWord (slotOf (tWave 1) false) 0) = false ∧
     (let x := (tWaveA (fun x => { x with words := [.ok 0x02000000, .ok 0] }) 2).a
      isTwo (rawWord x x.idx) = true) ∧
     ringFull (ctxOf (s id) 0).sigq = true ∧ ringFull (ctxOf (s (fun c => { c with sigq := { base := 0x4000, log2n := 4 } })) 0).sigq = false ∧
     waveRuns (s id) 1 (tWave 1) tBlock = true ∧
     (putSignal (s (fun c => { c with sigq := { base := 0x4000, log2n := 4 } })) 0 (sigWords tBlock (tWave 1) 3 9)).isSome = true ∧
     (putSignal (s (fun c => { c with sigq := { base := 0x40000000, log2n := 4 } })) 0 (sigWords tBlock (tWave 1) 3 9)).isSome = false) ∧
    (let s := fun (got : Option Msg) (obs : List Msg) (res : Residence) =>
       ({ tOp .copy (.mbrecv 0 0 0 3 got) tS with eps := [(0, { waiters := [5], obs := obs })], blocks := [(1, { tBlock with res := res })] } : State)
     let m : Msg := ⟨1, 0, 0, 4, []⟩
     (epOf (s (some m) [] .resident) 0).waiters = [5] ∧ (epOf (s none [m] .resident) 0).obs = [m] ∧
     (epOf (s none [] .resident) 0).obs = [] ∧ blockOf (s none [] .swapped) (tWave 1) = some { tBlock with res := .swapped }) := by
  refine ⟨?_, ?_, ?_, ?_, ?_⟩ <;> decide +kernel

theorem witness_waves_and_cores :
    (let w := fun (cnt : Counters) => { tWave 1 with st := .draining, cnt := cnt }
     (w {}).st = .draining ∧ cntZero (w {}).cnt = true ∧ cntZero (w { load := 1 }).cnt = false ∧ (w {}).parent = none ∧
     (let s := tHandler [7] id (tState { tHandlerWave 0 1 with st := .draining } tHandlerBlock)
      (tget s.waves 2).bind (·.trap) = some ⟨[7], false, false, some 1, false, none⟩)) ∧
    (let w : Wave := { tWave 1 with trap := some ⟨[7], false, false, none, false, none⟩ }
     let s := tCtxOn id (tState w tBlock)
     (coreOf s 0).handler = none ∧ (coreOf s 0).dbg.frozen = false ∧ (queuedTraps s 0).map (·.1) = [1] ∧
     (handlerOf s 0 32).isSome = true ∧ queuedTraps tS 0 = [] ∧ handlerOf (tState w tBlock) 0 32 = none ∧ 1 ≠ s.nextId + 1) ∧
    (let s := fun (n : Nat) => ({ tS with cores := [(0, { active := List.replicate n 1, pending := [2] })], waves := [(1, { tWave 1 with st := .draining }), (2, tWave 1)] } : State)
     bestPending (s 7) 0 2 = true ∧ bestPending (s 8) 0 2 = true ∧ bestPending (s 8) 0 1 = false ∧
     replaceable (s 8) 1 { tWave 1 with st := .draining, cnt := { load := 1 } } tBlock = true) ∧
    (let s := { State.reset with now := 5, irqs := [⟨3, 4, 5⟩, ⟨3, 4, 6⟩] }
     s.irqs[0]? = some ⟨3, 4, 5⟩ ∧ s.irqs[1]? = some ⟨3, 4, 6⟩) := by
  refine ⟨?_, ?_, ?_, ?_⟩ <;> decide +kernel

/-! Witnesses. The Harness, contexts, queues, debugging. -/

theorem witness_harness :
    ((coreOf tS 0).shareDue = false ∧ (coreOf { tS with cores := [(0, { active := [1], shareDue := true })] } 0).shareDue = true) ∧
    (let w := tWaveA (fun x => { x with park := .monitor ⟨0x10000, 0, 4, 0, 0, 3, 2, 0, 0, 0⟩ }) 1
     let b : Block := { tBlock with mark := true, newBudget := 16, preMark := true }
     let s := tState w b
     b.handler = false ∧ b.res = .resident ∧ blockStopped s b false = true ∧ blockStopped s b true = true ∧
     stopHolds s 0 = false ∧ mayLeave s b = true ∧ engineBusy s b false = false ∧ engineBusy s b true = false ∧ receivesCopy s 1 0 = false ∧
     (tget s.groups 1).isSome = true) ∧
    (let g : Group := { lid := 1, num := 0, ctx := 0, rope := 0, blocks := [1] }
     let s := fun (now : Nat) => ({ tS with
                now := now, ctxs := [(0, { st := 1, tslice := 7 }), (1, { st := 1 })], groups := [(1, g)]
                cores := [(0, { active := [1], wantL := [9] })]
                launches := [(9, { tLaunch [] with ctx := 1, st := .offered })] } : State)
     groupHere (s 7) g = true ∧ g.retired = false ∧ (ctxOf (s 7) 0).tslice.toNat = 7 ∧ g.since + 7 ≤ (s 7).now ∧
     (s 6).now < g.since + 7 ∧ (waitingOther (s 7) 0 0).isSome = true ∧ (ctxOf tS 0).tslice.toNat = 0) ∧
    (let b := fun (n : Nat) => ({ tBlock with res := .swapped, var := ⟨0, 0, 64, { bufs := [⟨n, 256⟩], lives := [⟨.buf, 0, 0, 64⟩] }⟩ } : Block)
     let s := fun (n : Nat) => ({ tState (tWave 1) (b n) with
                ctxs := [(0, { st := 1, spillmib := 2048 })], launches := [(1, { tLaunch [] with st := .placed })] } : State)
     (∀ n ∈ [16, 2 ^ 30], mayReturn (s n) (b n) = true ∧ ropeTakes (s n) (b n) 0 = true) ∧
     (returnPlace (s 16) 1 (b 16) 0).isSome = true ∧ returnPlace (s (2 ^ 30)) 1 (b (2 ^ 30)) 0 = none) ∧
    (let v : Variant := ⟨0, 0, 64, { waves := 1 }⟩
     let l : Launch := { tLaunch [] with var := some v, st := .offered }
     let s : State := { State.reset with ctxs := [(0, { st := 1, spillmib := 2048 })], launches := [(9, l)], offers := [9] }
     tget s.launches 9 = some l ∧ 0 < Config.ropes ∧ [0].length = (nextGroup l v).2.length ∧ ropeOfCore 0 = 0 ∧
     awayFirst s [0] = false ∧ offeredFirst s 9 0 [0] = false ∧ (groupPlaces s 9 l v 0 [0]).isSome = true ∧
     groupPlaces s 9 l { v with info := { v.info with bufs := [⟨2 ^ 30, 256⟩] } } 0 [0] = none) := by
  refine ⟨?_, ?_, ?_, ?_, ?_⟩ <;> decide +kernel

theorem witness_contexts :
    (let s := fun (st : Nat) (dbg : Bool) => tDev { tS with ctxs := [(127, { st := st, dbg := dbg, preqs := [⟨4095, 0, 5, [(1, false)]⟩] })] }
     127 < Config.contexts ∧ (s 0 false).dev.answering = true ∧ (s 0 false).dev.bootOk = true ∧ ownerFn (s 0 false) 127 = 0 ∧
     (ctxOf (s 0 false) 127).st = 0 ∧ ((0 : W64) ||| 1).getLsbD 1 = false ∧ (ctxOf (s 1 true) 127).dbg = true ∧
     (0x41 : W64).getLsbD 6 = (ctxOf (s 1 true) 127).dbg ∧ (0x41 : W64).getLsbD 0 = true ∧ (0x41 : W64).getLsbD 1 = false ∧
     ((ctxOf (s 1 true) 127).preqs.find? (fun q => q.tag == 4095)).isSome = true ∧ ownerFn (s 1 true) 127 ≠ 1) ∧
    (let s : State := { State.reset with ctxs := [(0, { st := 2, drainT := 9 })] }
     (ctxOf s 0).st = 2 ∧ s.hw = [] ∧
     (flushCtx s 0).1.now < max (ctxT (flushCtx s 0).1 0) (max (ctxOf s 0).drainT (flushCtx s 0).2) ∧
     (let t := { s with now := 9 }
      max (ctxT (flushCtx t 0).1 0) (max (ctxOf t 0).drainT (flushCtx t 0).2) ≤ (flushCtx t 0).1.now)) := by
  refine ⟨?_, ?_⟩ <;> decide +kernel

/-- Queue 15 of context 0, its ring of 16 slots at 0x4000. -/
def tQueue (f : Queue → Queue) (s : State) : State :=
  tDev (tCtxOn (fun c => { c with queues := [(15, f { en := true, st := 1, gBase := 0x4000, gLog := 4, widx := 1 })] }) s)

theorem witness_queues :
    (let s := tQueue id tS
     let x := queueOf (ctxOf s 0) 15
     x.en = true ∧ (queueOf (ctxOf s 0) 14).en = false ∧ x.deadLog = false ∧ { x with deadLog := true }.deadLog = true ∧ ownerFn s 0 = 0 ∧
     (BitVec.ofNat 16 16 - BitVec.ofNat 16 x.rd).toNat ≤ 2 ^ x.gLog ∧ 2 ^ x.gLog < (BitVec.ofNat 16 17 - BitVec.ofNat 16 x.rd).toNat) ∧
    (let s := tQueue id tS
     slotDue s 0 15 = true ∧ (devWord s 0 0x4000).map (fun w => bits w 63 48) = some 0 ∧ (devRead s 0 0x4000 64).isSome = true ∧
     packetBad ((upto 8).map (fun i => ofBytes ((((devRead s 0 0x4000 64).getD []).drop (8 * i)).take 8))) = true ∧
     devWord (tQueue (fun x => { x with gBase := 0x40000000 }) tS) 0 0x40000000 = none ∧
     slotDue (tQueue (fun x => { x with rd := 3, reading := true, nextRd := 0, tries := 62 }) tS) 0 15 = true ∧
     (devWord (tQueue (fun x => { x with rd := 3 }) tS) 0 (0x4000 + 64 * 3)).map (fun w => bits w 63 48) = some 0) ∧
    (let l : Launch := tLaunch []
     let s := fun (l : Launch) => tCtxOn id ({ tS with launches := [(9, l)] } : State)
     (ctxOf (s l) 0).st = 1 ∧ packetReady (s l) l = true ∧ packetReady (s { l with start := 1 }) { l with start := 1 } = false ∧
     (match resolve (s { l with argsBad := true }) { l with argsBad := true } with | .error st => st | .ok _ => 0) = 6 ∧
     (match resolve (s l) l with | .ok _ => true | .error _ => false) = true ∧ l.nblocks ≤ 1 ∧ 0 < l.nblocks ∧
     (ctxOf (tCtxOn (fun c => { c with st := 2 }) tS) 0).st ≠ 1 ∧ oldAccess (s l) 0 9 = false ∧
     oldAccess ({ s l with hw := [(3, ⟨1, 0, 0, [], none, none, 0, none, []⟩)] } : State) 0 9 = true) := by
  refine ⟨?_, ?_, ?_⟩ <;> decide +kernel

/-- The window of core 0 debugs context 0, its wave halted, with a DSEL. -/
def tDbg (sel : W64) (f : Dbg → Dbg) (halted : Bool) : State :=
  tCtxOn (fun c => { c with dbg := true }) { tState { tWave 1 with halted := halted } tBlock with
    cores := [(0, { active := [1], dbg := f { sel := sel } })] }

theorem witness_debug :
    (let s := tDbg 0 id true
     (coreOf s 0).dbg.ctx < 128 ∧ dbgRight s ⟨0, false⟩ 0 = true ∧ dbgRight s ⟨1, false⟩ 0 = false ∧
     (match dbgWave (modDbg s 0 (fun d => d)) 0 with | .ok (i, _) => i | .error e => 100 + e) = 1 ∧
     (match dbgWave (modDbg (tDbg 0 id false) 0 (fun d => d)) 0 with | .ok (i, _) => i | .error e => 100 + e) = 102 ∧
     (match ddataVal (tDbg 0 id false) 0 with | .ok _ => 0 | .error e => e) = 2) ∧
    (∀ p ∈ [(0, (0x1000 : W64)), (1, 0x1000000), (3, 0x3000000)], let s := tDbg p.2 id true
      dselTgt (coreOf s 0).dbg = p.1 ∧ (match dbgTarget s 0 with | .ok (i, _) => i | .error e => 100 + e) = 1 ∧
      (match ddataVal s 0 with | .ok _ => true | .error _ => false) = true) ∧
    modeOk 4 = true ∧ modeOk 5 = false ∧
    (let d := fun (f : Dbg → Dbg) => (coreOf (tDbg 0 f true) 0).dbg
     (d (fun d => { d with stops := [0, 1] })).stops = [0, 1] ∧ (d (fun d => { d with fresh := some 0 })).stops = [] ∧
     (d (fun d => { d with fresh := some 0 })).fresh = some 0 ∧ (d id).fresh = none ∧
     ((tDbg 0 (fun d => { d with fresh := some 0 }) true).cores.filter (fun e => e.2.dbg.fresh.isSome)).map (·.1) = [0] ∧
     (d (fun d => { d with dump := [1] })).dump ≠ [] ∧ (d id).dump = [] ∧
     bufOk (tDbg 0 id true) 0x5000 1 = true ∧ bufOk (tDbg 0 id true) 0x5008 1 = false) := by
  refine ⟨?_, ?_, ?_, ?_, ?_⟩ <;> decide +kernel

/-! Witnesses. The device, Base Camp, whole-machine rules. -/

theorem witness_device :
    (let s := tDev State.reset
     s.dev.answering = true ∧ s.dev.bootOk = true ∧ ({ s with dev := { s.dev with answering := false } } : State).dev.answering = false ∧
     (0 ≠ 1) ∧ (∀ e ∈ s.eps, e.2.redeems = []) ∧ s.dev.domsize = 0 ∧ bits (0x10000000000 : W64).toNat 40 32 = 256 ∧
     (∀ i < 8, isDevMem s (2 ^ 39 - 8 + i) = true) ∧ isDevMem s (2 ^ 39) = false) ∧
    (let d := { State.reset.dev with domsize := 2, member := [(0, 3)] }
     let s := tDev { State.reset with dev := d }
     s.dev.domsize ≠ 0 ∧ peerHere s 1 = true ∧ 1 ≠ s.dev.devnum.toNat ∧ isDevMem s 8 = true ∧
     monCond 15 4 0 0 = true ∧ monCond 15 4 1 1 = false ∧ (sliceOf s (homeSlice s 8)).mons.length + (sliceOf s (homeSlice s 8)).farMons.length = 0 ∧
     (let t := sliceOf { s with slices := [(0, { farMons := List.replicate 4096 ⟨8, 4, 0, 0⟩ })] } (homeSlice s 8)
      t.mons.length + t.farMons.length = 4096)) := by
  refine ⟨?_, ?_⟩ <;> decide +kernel

/-- FIPS 180-4: the digest of "abc". -/
theorem test_sha384_abc : sha384 [0x61, 0x62, 0x63] = bytesBE 48
    0xCB00753F45A35E8BB5A03D699AC65007272C32AB0EDED1631A8B605A43FF5BED8086072BA1E7CC2358BAECA134C825A7 := by decide +kernel

/-- Hashes, worked out by hand: of no bytes, and of one byte 0. -/
def tNone : List Byte := bytesOf 48 0x5BB99848F1D21AD5FB656FE7BFDE4E27DAE1F663BFC70C4C4307BE1411B7FD216AE3B1B17E32D94C3896AC51A760B038
def tZero : List Byte := bytesOf 48 0x1717A108C2A91768966534412BEC33596536663DE1860D5F4EE206D2BDA9D3837030B4C212E0349106E368F3B421C0BE
/-- The hash h of an announcement by device 1 of the set [0] for the image [], which is also both numbers of a signature of it:
under the key R - G, R being the point whose x is h. -/
def tHash : List Byte := bytesOf 48 0x56A91C590C496E8A8F4DAF3844714192E950210157B7ABEFFF58FC3F6B44202B180EAE18B38F17945DD9960E81F41053
def tKey : List Byte :=
  bytesOf 96 0x1F9F0DDC32D33A201B7CE7A91EA34B4B3EB0B43A46139DF09EE996F1DB085BFC516835877FDA5166A382767F79DC22915034508D56DF7A69D328C76248370024AE803A893E94E2EFF10AB5E52048EA8E87E72715773684FE15247DC30487C04
def tAnnounce : List Byte := tNone ++ tZero ++ [1] ++ List.replicate 7 0 ++ tHash ++ tHash
/-- A device of a domain with device 1 in its roster and the image [] loaded with pod sharing. -/
def tPod : State :=
  { State.reset with
    dev := { State.reset.dev with domsize := 2, roster := some [⟨1, tKey⟩] }
    ctxs := [(0, { st := 1, pods := [⟨0, 64, []⟩] })] }

theorem witness_announcements :
    tPod.dev.domsize ≠ 0 ∧ (tAnnounce.getD 96 0).toNat = 1 ∧ 1 ≠ tPod.dev.devnum.toNat ∧
    (∃ r e, tPod.dev.roster = some r ∧ r.find? (fun e => e.dev == 1) = some e ∧ tAnnounce.length = 200 ∧
      ecdsaOk ((tAnnounce.drop 104).take 96) (tAnnounce.take 104) e.key = true ∧
      sha384 [0] = (tAnnounce.drop 48).take 48 ∧ ∃ p ∈ podTexts tPod, sha384 p.image = tAnnounce.take 48) ∧
    (podTexts tPod)[0]? = some ⟨0, 64, []⟩ ∧ (podTexts tPod)[1]? = none ∧ (∀ e ∈ tPod.dev.bindings, e.1 ≠ sha384 []) :=
  ⟨by decide +kernel, by decide +kernel, by decide +kernel,
   ⟨[⟨1, tKey⟩], ⟨1, tKey⟩, rfl, by decide +kernel, by decide +kernel, by decide +kernel, by decide +kernel,
    ⟨⟨0, 64, []⟩, by decide +kernel, by decide +kernel⟩⟩,
   by decide +kernel, by decide +kernel, by decide +kernel⟩

theorem witness_services :
    (let d := fun (n : Nat) => { State.reset.dev with tsrc := n, answering := true, bootOk := true, domsize := 2 }
     let e := { d 1 with port := 17, pdom := 3 }
     (∀ k ∈ [PtpKind.sync none, .sync (some 0), .followUp 0, .delayReq, .delayResp 0], let x : PtpMsg := ⟨17, 3, k⟩
       e.tsrc = 1 ∧ x.port = e.port ∧ x.port < 18 ∧ x.dom = e.pdom) ∧ (d 2).tsrc = 2 ∧ e.ptpT1 = none ∧
     (let h := { e with ptpT1 := some 2000, ptpT2 := some 0, ptpT3 := some 0 }
      (h.ptpT1, h.ptpT2, h.ptpT3) = (some 2000, some 0, some 0)) ∧
     ptpOffset 2000 0 0 0 = -1000 ∧ ptpOffset 0 2000 0 0 = 1000 ∧ ptpOffset 2002 0 0 0 = -1001 ∧ ptpOffset 0 2002 0 0 = 1001 ∧
     ¬((d 1).tsrc = 1 ∧ 18 = { d 1 with port := 18 }.port ∧ 18 < 18 ∧ 3 = (d 1).pdom) ∧
     (0xFFFFFFFFFFFFFFF8 : W64).getLsbD 2 = false ∧ (0xFFFFFFFFFFFFFFF8 : W64).getLsbD 1 = false ∧ (d 0).att = none) ∧
    (let d := { State.reset.dev with att := some (.report (List.replicate 48 0)), raddr := 0x4000 }
     d.att = some (.report (List.replicate 48 0)) ∧ physOk { State.reset with dev := d } 0x4000 352 = true ∧
     physOk { State.reset with dev := d } 0x00F000000000 352 = false) ∧
    (let d := { State.reset.dev with domsize := 2 }
     d.domsize ≠ 0 ∧ ((List.replicate 200 (1 : Byte)).getD 96 0).toNat ≠ d.devnum.toNat ∧ d.roster = none ∧ d.bindings = []) := by
  refine ⟨?_, ?_, ?_⟩ <;> decide +kernel

/-- A device whose page 4 holds a roster of itself alone, with the key of these bytes. -/
def tRoster (key : Nat → Byte) : State :=
  { State.reset with
    mem := (upto 96).map (fun i => (0x4008 + i, key i))
    dev := { State.reset.dev with member := [(0, 1)], rostaddr := 0x4000, rcount := 1 } }

theorem tget_map_add (key : Nat → Byte) (c i : Nat) : ∀ l : List Nat, i ∈ l → tget (l.map (fun i => (c + i, key i))) (c + i) = some (key i)
  | j :: l, h => by
    by_cases e : j = i
    · simp [tget, e]
    · simpa [tget, e] using tget_map_add key c i l (by simpa [Ne.symm e] using h)

theorem tRoster_peek (key : Nat → Byte) (i : Nat) (h : i < 96) :
    BitVec.ofNat 8 (peekNum (tRoster key) (0x4008 + i) 1) = key i := by
  have hc : canonPa (tRoster key) (0x4008 + i) = 0x4008 + i := by
    have : (16392 + i) / 1125899906842624 = 0 := by omega
    simp [canonPa, bits, Nat.shiftRight_eq_div_pow, this]
  have hm : tgetD (tRoster key).mem (0x4008 + i) 0 = key i := by
    simpa [tRoster, tgetD] using congrArg (·.getD 0) (tget_map_add key 0x4008 i (upto 96) (List.mem_range.2 h))
  have hl : homeRead (tRoster key) (0x4008 + i) 1 = ([rdByte (tRoster key) (0x4008 + i)], tRoster key) := rfl
  simp only [peekNum, hl, ofBytes, rdByte, hc, hm]
  simp

theorem identityKey_length : identityKey.length = 96 := by
  unfold identityKey publicKey
  cases curveMul 384 (Config.identityPriv % curveN) curveG <;> simp [bytesBE, bytesOf]

theorem tRoster_read (key : Nat → Byte) :
    rosterOf 1 (physBytes (tRoster key) 0x4000 128) = [⟨0, (upto 96).map key⟩] := by
  have h0 : ((physBytes (tRoster key) 0x4000 128).getD (128 * 0) 0).toNat = 0 := rfl
  have h1 : ((physBytes (tRoster key) 0x4000 128).drop (128 * 0 + 8)).take 96 = (upto 96).map key := by
    refine List.ext_getElem (by simp [physBytes, upto]) (fun i hi _ => ?_)
    have hi : i < 96 := by simp [physBytes, upto] at hi; omega
    simpa [physBytes, upto, ← Nat.add_assoc] using tRoster_peek key i hi
  show [(⟨_, _⟩ : RosterEnt)] = _
  rw [h0, h1]

theorem witness_rosters :
    (let s := tRoster (fun i => identityKey.getD i 0)
     rosterErr s.dev (rosterOf 1 (physBytes s s.dev.rostaddr.toNat (128 * 1))) = 0) ∧
    (let s := tRoster (fun _ => 0)
     rosterErr s.dev (rosterOf 0 (physBytes s s.dev.rostaddr.toNat (128 * 0))) = 2) := by
  refine ⟨?_, by decide +kernel⟩
  have hk : (upto 96).map (fun i => identityKey.getD i 0) = identityKey :=
    List.ext_getElem (by simp [upto, identityKey_length]) (fun i _ h => by simp [upto, List.getD_eq_getElem?_getD, h])
  show rosterErr _ (rosterOf 1 (physBytes _ 0x4000 128)) = 0
  rw [tRoster_read, hk]
  have hd : ([0] : List Nat).eraseDups = [0] := by decide
  simp [rosterErr, tRoster, hd, tgetD, tget, State.reset]

theorem witness_sensors :
    (let s := fun (now : Nat) (f : Rope → Rope) => ({ State.reset with now := now, ropes := [(0, f { settleEnd := some 7 })] } : State)
     (ropeOf (s 7 id) 0).settleEnd = some 7 ∧ (ropeOf (s 7 id) 0).settleEnd = some 7 ∧ 0 < Config.ropes ∧
     (ropeOf (s 0 id) 0).nextSample ≤ 0 ∧ (760 : BitVec 16).toInt = 95 * 8 ∧ (735 : BitVec 16).toInt < 92 * 8 ∧
     (736 : BitVec 16).toInt = 92 * 8 ∧ (ropeOf (s 0 id) 0).dwellFrom = none ∧
     (ropeOf (s 2000000 (fun r => { r with throttled := true, dwellFrom := some 0 })) 0).dwellFrom = some 0) ∧
    (let g := fun (n : Nat) (f : Slice → Slice) => sliceOf { State.reset with slices := [(7, f { ways := n })] } 7
     7 < Config.slices ∧ (g 16 id).nextInt = 0 ∧ max 4 (g 4 id).minways = (g 4 id).ways ∧ (g 3 id).ways < max 4 (g 3 (fun x => { x with minways := 2 })).minways ∧
     max 4 (g 16 id).minways < (g 16 id).ways ∧ (g 16 (fun x => { x with nogate := true })).nogate = true) ∧
    (let s := ({ tS with ctxs := [(0, { st := 1, speriod := 5 })], picks := [⟨0, 0, 0, 0, some 1, [], true, 0⟩] } : State)
     (ctxOf s 0).speriod = 5 ∧ (∀ x ∈ s.picks, x.pEnd ≤ s.now) ∧ s.picks[0]? = some ⟨0, 0, 0, 0, some 1, [], true, 0⟩ ∧
     sampleDone s ⟨0, 0, 0, 0, some 1, [], true, 0⟩ 1 = true ∧ isDevMem s 0 = true ∧ unitOf (canonPa s 0) ∉ s.poison ∧
     unitOf (canonPa s 0) ∈ ({ s with poison := [0] } : State).poison ∧ spillBlock s 0 = none ∧
     (spillBlock { s with blocks := [(1, { tBlock with area := (0, 64) })] } 63).map (·.1) = some 1) := by
  refine ⟨?_, ?_, ?_⟩ <;> decide +kernel

/-- Episode 3 of context 0, which function 1 owns. -/
def tCamp (f : Episode → Episode) : State :=
  { State.reset with
    dev := { State.reset.dev with answering := true, bootOk := true, fn := [(0, 1)] }
    eps := [(3, f { bound := true, estate := 1 })] }

theorem witness_camp :
    (let s := tCamp (fun x => { x with estate := 0 })
     3 < Config.episodes ∧ s.dev.answering = true ∧ s.dev.bootOk = true ∧ (epOf s 3).bound = true ∧ ownerFn s (epOf s 3).owner = 1 ∧
     (epOf s 3).estate = 0 ∧ (epOf (tCamp id) 3).estate = 1 ∧ (epOf (tCamp id) 3).redeems = [] ∧
     windowBad s 3 { limit := 1, v := true } = false ∧ windowBad s 3 { base := 2, limit := 1, v := true } = true) ∧
    (hartRuns (tCamp id) 3 = true ∧ (epOf (tCamp id) 3).actions = [] ∧
     (epOf (tCamp (fun x => { x with actions := [⟨1, 0, 0, 4, []⟩] })) 3).actions = [⟨1, 0, 0, 4, []⟩] ∧
     (epOf (tCamp id) 3).hart.lastT ≤ 0 ∧ (epOf (tCamp (fun x => { x with obs := List.replicate 15 ⟨1, 0, 0, 4, []⟩ })) 3).obs.length < 16 ∧
     16 ≤ (epOf (tCamp (fun x => { x with obs := List.replicate 16 ⟨1, 0, 0, 4, []⟩ })) 3).obs.length) ∧
    (let x := epOf (tCamp (fun x => { x with timer := some 0, timeoutDue := true })) 3
     x.estate = 1 ∧ x.timer = some 0 ∧ (0 ≤ State.reset.now) ∧ x.timeoutDue = true ∧ x.obs.length < 16) ∧
    (let s := fun (e : Ticket) => tTicket e (tCamp (fun x => { x with windows := [(0, { limit := 1, w := true, v := true })] }))
     let st := fun (e : Ticket) => claimState (s e) 0 tTk
     hartRuns (s {}) 3 = true ∧ (epOf (s {}) 3).busy = false ∧ st {} = 5 ∧ st { gen := 1, st := .pending, size := 128 } = 0 ∧
     st { gen := 1, st := .ready, size := 128 } = 1 ∧ st { gen := 1, st := .faulted, size := 128 } = 2 ∧
     (epOf (s {}) 3).tkdst.toNat % 64 = 0 ∧ { epOf (s {}) 3 with tkdst := 32 }.tkdst.toNat % 64 ≠ 0 ∧
     inWindow (epOf (s {}) 3) 0 128 (·.w) = true ∧ inWindow (epOf (tCamp id) 3) 0 128 (·.w) = false) ∧
    (let r : Redeem := ⟨tTk, 0, 1, some [1], [], none, false⟩
     (epOf (tCamp (fun x => { x with redeems := [r] })) 3).redeems = [r] ∧ r.data = some [1] ∧ r.tDone = none ∧
     { r with tDone := some 0 }.tDone = some 0) := by
  refine ⟨?_, ?_, ?_, ?_, ?_⟩ <;> decide +kernel

/-- What the hart of episode 3 fetches: the low 16 bits and the length, or the cause of its fault. -/
def rvGets (s : State) : Nat × Nat := match rvFetch s 3 with | .ok (w, n) => (w, n) | .error (c, _) => (c, 0)

theorem witness_hart_and_registers :
    (let at_ := fun (mem : Tbl Byte) => ({ tCamp (fun x => { x with windows := [(0, { limit := 1, x := true, rd := true, v := true })] }) with mem := mem } : State)
     hartRuns (at_ []) 3 = true ∧ (epOf (at_ []) 3).hart.wfi = false ∧ rvTake (epOf (at_ []) 3) = none ∧
     rvGets (at_ []) = (0, 2) ∧ rvExpand 0 = none ∧ rvGets (at_ [(0, 1)]) = (1, 2) ∧ (rvExpand 1).isSome = true ∧
     (hartOf (modHart (at_ []) 3 (fun h => { h with priv := 1 })) 3).priv = 1 ∧ bit (mCsr (hartOf (at_ []) 3) 0x302) 9 = false ∧
     rvGets (at_ [(0, 0x13)]) = (0x13, 4) ∧ rvGets (tCamp id) = (1, 0) ∧
     (let s := modHart (at_ [(0, 0x13)]) 3 (fun h => { h with wfi := false })
      (match rvExec s 3 ⟨0x13, 0x13, 0, 4⟩ with | .done _ npc => npc.toNat | _ => 0) = 4 ∧
      (match rvExec s 3 ⟨0x7FFFFFFF, 0x7FFFFFFF, 0, 4⟩ with | .trap _ c _ => c | _ => 0) = 2 ∧
      (let late := modHart s 3 (fun h => { h with lastT := 5, x := [(10, w64 (mbPage + 0x218))], csr := [(0x100, 0x600), (0xC20, 1), (0xC21, 0x18)] })
       (match rvExec late 3 ⟨0x0200202F, 0x0200202F, 0, 4⟩ with | .wait => 1 | _ => 0) = 1 ∧
       (match rvExec late 3 ⟨0x02057107, 0x02057107, 0, 4⟩ with | .hold _ => 1 | _ => 0) = 1)) ∧
     (let x := epOf (tCamp (fun x => { x with mbie := true, actions := [⟨1, 0, 0, 4, []⟩], hart := { x.hart with csr := [(0x100, 2), (0x104, 0x200)], priv := 0 } })) 3
      rvPend x ≠ 0 ∧ rvTake x = some 9)) ∧
    (barReach State.reset 0 0x00F000000000 = true ∧ barReach State.reset 5 0x00F000000000 = false ∧
     regAt 0 = none ∧ (regAt 0x00F000000000).isSome = true ∧ 0x00F000000000 % 8 = 0) := by
  refine ⟨?_, ?_⟩ <;> decide +kernel

theorem witness_check_order :
    (let at_ := fun (sp : WSpec) (w : Wave) (b : Block) => (offers sp (tIC sp w b) (tState w b), hdrCount (tSlot 1).hdrW)
     let ops := fun (sp : WSpec) (w : Wave) (b : Block) => let k := tIC sp w b
       (boundTrap (tState w b) k.b k.x (wordOps sp k), emptyCheck k.b 1 k.w k.x sp.mat (usedOps sp k (wordOps sp k)), poisonRead k.b k.w k.x (usedOps sp k (wordOps sp k)))
     let sadd := fun (g : BitVec 4) => ((allWords ⟨0, 0, 0, g⟩ ⟨0, 0, 0⟩ m0 n0 x0).headD ⟨.clauseIssue, { u := ucw c0, ok := fun _ => true }⟩).sp
     let jmp := ((jmpForms c0 ⟨0, 0, 0⟩ x0).headD ⟨.clauseIssue, { u := ucw c0, ok := fun _ => true }⟩).sp
     at_ (sadd 0) (tWave 1) tBlock = (true, 1) ∧ (sadd 0).ok 32 = true ∧ (sadd 8).ok 32 = false ∧
     at_ jmp (tWave 2) tBlock = (true, 1) ∧ jmp.last = true ∧ 0 + jmp.u.words < hdrCount (tSlot 2).hdrW ∧
     (guardWave (tWave 1) 0xFFFFFFFF 1 = false ∧ at_ (sadd 1) (tWave 1) tBlock = (true, 1)) ∧
     (let none_ : Block := { tBlock with var := ⟨0, 0, 64, {}⟩ }
      at_ (sadd 0) (tWave 1) none_ = (true, 1) ∧ (ops (sadd 0) (tWave 1) none_).1.isSome = true) ∧
     (let w := { tWave 1 with empty := [⟨.s, 0, 5⟩] }
      at_ (sadd 0) w tBlock = (true, 1) ∧ (ops (sadd 0) w tBlock).1 = none ∧ (ops (sadd 0) w tBlock).2.1 ≠ .full) ∧
     (let w := { tWave 1 with pois := [⟨.s, 0, 1, {}, 7⟩] }
      at_ (sadd 0) w tBlock = (true, 1) ∧ (ops (sadd 0) w tBlock).1 = none ∧ (ops (sadd 0) w tBlock).2.1 = .full ∧
      (ops (sadd 0) w tBlock).2.2.isSome = true) ∧
     (let t := ((trecForms c0 m0).headD ⟨.clauseIssue, { u := ucw c0, ok := fun _ => true }⟩).sp
      at_ t (tWave 1) tBlock = (true, 1) ∧ t.hOnly = true ∧ t.ok 32 = true) ∧
     (let sp : WSpec := { u := { ucw (cwOf 0xFE000000) with two := isTwo 0xFE000000, g := 0 }, ok := fun _ => true }
      at_ sp (tWave 2) tBlock = (true, 1))) := by
  decide +kernel

/-- The board's wave at a header at address 8. -/
def tAtHdr : Wave :=
  { blk := 1, idx := 0, width := 32, ctx := 0, a := { used := true, pc := 8, mask := 0xFFFFFFFF, walked := [⟨0, some tLeaf⟩] } }
/-- The checks of the header that the wave stands at, with its first word in the cache. -/
def hdrAt (h w : W32) : State :=
  { tState (tAtHdr) tBlock with icache := [(0, [(0x10008, h), (0x1000C, w), (0x10010, 0)])] }

theorem witness_headers :
    (let s := hdrAt 0xC0000001 0
     let x := slotOf (tAtHdr) false
     s.cur = some ⟨1, false⟩ ∧ waveRuns s 1 (tAtHdr) tBlock = true ∧ slotRuns x = true ∧ x.inClause = false ∧ canonical x.pc = true ∧
     inGuard tBlock.var x.pc = false ∧ inGuard ⟨0, 0, 64, { placedMeta with guards := [0] }⟩ x.pc = true ∧
     (let got := fun (h : W32) => match fetchWord (hdrAt h 0) 0 0 x 8 with | .got _ w => w | _ => 0
      (match fetchWord (tState tAtHdr tBlock) 0 0 { x with walked := [⟨0, none⟩] } 8 with | .bad c _ => c | _ => 0) = 6 ∧
      got 0x80000001 = 0x80000001 ∧ got 0xC0000071 = 0xC0000071 ∧ got 0xC0000000 = 0xC0000000 ∧ got 0xC0000001 = 0xC0000001) ∧
     (let r := fetchMany (hdrAt 0xC0000001 0x02000000) 0 0 x 1 12
      r.2.2 = true ∧ cutOff r.2.1 = true) ∧
     (let r := fetchMany s 0 0 x 1 12
      r.2.2 = true ∧ cutOff r.2.1 = false ∧ stopsHere tBlock 0xC0000001 = false ∧ maskClear (tAtHdr) 0xC0000001 = true ∧
      maskClear { tAtHdr with cnt := { load := 1 } } (0xC0000001 ||| 1#32 <<< 22) = false ∧
      stopsHere { tBlock with mark := true } (0xC0000001 ||| 1#32 <<< 29) = true) ∧
     (let w := { tAtHdr with a := { tAtHdr.a with pc := 10 } }
      waveRuns (tState w tBlock) 1 w tBlock = true ∧ canonical 10 = true ∧ inGuard tBlock.var 10 = false ∧ (slotOf w false).pc % 4 ≠ 0) ∧
     (∀ n ∈ [1, 3], let w := { tAtHdr with stepping := n }
      waveRuns (tState w tBlock) 1 w tBlock = true ∧ w.stepping ≠ 0 ∧ stepPasses w.stepping false = decide (n = 3))) := by
  decide +kernel

theorem witness_endings :
    (tget tS.waves 1 = some (tWave 1) ∧ (handlerOf (issued (tCtxOn id tS) 1 0) 0 32).isSome = true ∧
     blockOf (tCtxOn id tS) (tWave 1) = some tBlock ∧ (ctxOf (tCtxOn id tS) 0).replay = false) := by decide +kernel

theorem witness_conditions :
    (let f := ((brForms ⟨10, 0, 0, 0⟩ ⟨10, 0, 0⟩ x0).headD ⟨.clauseIssue, { u := ucw c0, ok := fun _ => true }⟩)
     offers f.sp (tIC f.sp (tWave 1) tBlock) (tState (tWave 1) tBlock) = true ∧ f.sp.u.d = 10 ∧ hdrCount (tSlot 1).hdrW ≤ 0 + f.sp.u.words) ∧
    (((scalarMoveWords c0 ⟨0, 0, 0⟩ ⟨0, 0, 0, 0, 0, 0, 10⟩ x0).map (·.1)).any (fun f => decide (f.sp.u.card = 10) &&
      offers f.sp (tIC f.sp (tWave 2) tBlock) (tState (tWave 2) tBlock))) = true := by
  refine ⟨?_, ?_⟩ <;> decide +kernel

theorem witness_steps :
    (let s := { State.withFetchWord { State.reset with agenda := [] } 32 0 with cur := none }
     s.agenda = [.issue 1 false] ∧ (tget s.waves 1).isSome = true) ∧
    (let s := { settleDue { State.withFetchWord State.reset 32 0 with agenda := [] } with cur := some ⟨1, false⟩ }
     (match tget s.waves 1 with
      | some w => (match blockOf s w with
        | some b => !outranked s 1 b && (brokenPark s 1 false).isNone && !seamHeld b (slotOf w false) && (slotOf w false).inClause &&
            ((slotOf w false).words[0]? == some (.ok 0))
        | none => false)
      | none => false) = true) ∧
    (let ready := fun (n : Nat) => tWaveA (fun x => { x with words := List.replicate n (.ok 0) }) n
     let s := { tState (ready 1) tBlock with waves := [(1, { ready 1 with readyAt := 0 }), (2, { ready 1 with idx := 1, blk := 1 })], cores := [(0, { active := [1, 2] })] }
     outranked s 2 tBlock = true ∧ outranked s 1 tBlock = false) ∧
    (let w := tWaveA (fun x => { x with park := .barrier false 0 0 }) 1
     let b := tBar ⟨false, 0, true, 1, 0, 0, [], [], [], true⟩
     waveRuns (tState w b) 1 w b = true ∧ outranked (tState w b) 1 b = false ∧ (brokenPark (tState w b) 1 false).isSome = true) ∧
    (let w := tWaveA (fun x => { x with hdrW := 0xE0000001 }) 1
     let b := { tBlock with mark := true }
     outranked (tState w b) 1 b = false ∧ (brokenPark (tState w b) 1 false).isNone = true ∧ seamHeld b (slotOf w false) = true) ∧
    (let w := tWaveA (fun x => { x with ldt := some 5 }) 1
     let s := tOp .ticket (.ldt 3 0 0x10000 128 2 none 0) (tState w tBlock)
     outranked s 1 tBlock = false ∧ (brokenPark s 1 false).isNone = true ∧ ldtHeld s (slotOf w false) = true) := by
  refine ⟨?_, ?_, ?_, ?_, ?_, ?_⟩ <;> decide +kernel

theorem witness_encodings :
    (WellFormed (.nop c0) ∧ encode (.nop c0) = some ⟨0, 0, none⟩) ∧
    (WellFormed (.vfma c0 m0) ∧ encode (.vfma c0 m0) = some ⟨1, 0x7E000000, some 0⟩) ∧
    ((0 : BitVec 3) ≠ 7 ∧ (isTwo 0xFC000000 = false → (0 : W32) = 0)) :=
  ⟨⟨rfl, rfl⟩, ⟨rfl, rfl⟩, by decide, fun _ => rfl⟩

theorem witness_canonical_memory :
    Memory.wf (tCtxOn id tS).mem = true ∧ (match step (tCtxOn id (State.reset.withFetchWord 32 0)) with | .next _ => true | _ => false) = true := by
  refine ⟨?_, ?_⟩ <;> decide +kernel

end Sys2Proof.Tests
end

section
/-! SUPPORT. The state after reset. -/

namespace Sys2Proof.Machine

/-! Nothing is listed after reset, so every record stands at its reset values (R350, R384, R388, R391). -/

theorem ctxOf_reset (c : Nat) : ctxOf State.reset c = {} := rfl
theorem ropeOf_reset (r : Nat) : ropeOf State.reset r = {} := rfl
theorem sliceOf_reset (g : Nat) : sliceOf State.reset g = {} := rfl
theorem epOf_reset (e : Nat) : epOf State.reset e = {} := rfl

/-- Settles O59: each record after reset is the one with every field at its default. -/
theorem resetLeavesTheResetValues : Obligations.ResetLeavesTheResetValues := by
  unfold Obligations.ResetLeavesTheResetValues
  refine ⟨memory_wf_reset, fun _ => rfl, rfl, rfl, fun c => ?_, fun r => ?_, fun g => ?_, fun e => ?_⟩
  · rw [ctxOf_reset]; exact ⟨rfl, rfl, rfl, rfl, rfl, rfl, rfl, rfl, rfl, rfl, rfl, rfl, rfl, rfl⟩
  · rw [ropeOf_reset]; exact ⟨rfl, rfl, rfl⟩
  · rw [sliceOf_reset]; exact ⟨rfl, rfl, rfl⟩
  · rw [epOf_reset]; exact ⟨rfl, rfl, rfl, rfl⟩

end Sys2Proof.Machine
end

section
/-! SUPPORT. How memory stays canonical (R2, R297). A byte of memory changes only by the writes of `Laws/Memory.lean`, which keep the
canonical form. What follows says it once of each function of the model, in the order of the model: `f_mem` where f leaves memory alone,
`f_wf` where it may write. Here: the state that an effect carries, and what folds over states keep. -/

namespace Sys2Proof.Machine

/-- The state that an effect of a word carries. -/
def Eff.state : Eff → State
  | .done s | .yields s | .jump s _ | .set s | .trap s _ | .wait s => s
@[simp] theorem Eff.state_done (s : State) : (Eff.done s).state = s := rfl
@[simp] theorem Eff.state_yields (s : State) : (Eff.yields s).state = s := rfl
@[simp] theorem Eff.state_jump (s : State) (pc : Nat) : (Eff.jump s pc).state = s := rfl
@[simp] theorem Eff.state_set (s : State) : (Eff.set s).state = s := rfl
@[simp] theorem Eff.state_trap (s : State) (t : TrapInfo) : (Eff.trap s t).state = s := rfl
@[simp] theorem Eff.state_wait (s : State) : (Eff.wait s).state = s := rfl

/-! What folds keep, for the shapes of accumulator that the model folds over. -/

theorem foldl_wf {α : Type} (f : State → α → State) (hf : ∀ t a, Memory.wf t.mem = true → Memory.wf (f t a).mem = true)
    (l : List α) {s : State} (hm : Memory.wf s.mem = true) : Memory.wf (l.foldl f s).mem = true :=
  foldl_keeps (fun t => Memory.wf t.mem = true) f hf l s hm

theorem foldl_fst_wf {α β : Type} (f : State × β → α → State × β)
    (hf : ∀ p a, Memory.wf p.1.mem = true → Memory.wf (f p a).1.mem = true) (l : List α) :
    ∀ {p : State × β}, Memory.wf p.1.mem = true → Memory.wf (l.foldl f p).1.mem = true := by
  induction l with
  | nil => exact fun hm => hm
  | cons a l ih => exact fun hm => ih (hf _ a hm)

/-- A fold that may fail keeps, where it gives a value, what each of its steps keeps. -/
theorem foldl_bind_keeps {α β : Type} (P : β → Prop) (f : β → α → Option β) (hf : ∀ b a c, P b → f b a = some c → P c)
    (l : List α) :
    ∀ {o : Option β} {r : β}, (∀ b, o = some b → P b) → l.foldl (fun o a => o.bind (fun b => f b a)) o = some r → P r := by
  induction l with
  | nil => exact fun ho e => ho _ e
  | cons a l ih =>
    refine fun ho e => ih (fun c hc => ?_) e
    obtain ⟨b, hb, hc⟩ := Option.bind_eq_some_iff.1 hc
    exact hf b a c (ho b hb) hc

end Sys2Proof.Machine
end

section
/-! SUPPORT. The canonical form of memory under `Machine/Access.lean`: what its functions leave of memory. -/

namespace Sys2Proof.Machine

@[simp] theorem drift_mem (s : State) (unit lag : Nat) : (drift s unit lag).mem = s.mem := rfl

@[simp] theorem sawTime_mem (s : State) (wid v : Nat) : (sawTime s wid v).mem = s.mem := rfl

@[simp] theorem acquireTime_mem (s : State) (wid : Nat) : (acquireTime s wid).mem = s.mem := rfl

@[simp] theorem reachNow_mem (s : State) (wid lvl : Nat) : (reachNow s wid lvl).mem = s.mem := rfl

@[simp] theorem reachOp_mem (s : State) (wid : Nat) (o : Origin) (lvl : Nat) : (reachOp s wid o lvl).mem = s.mem := rfl

@[simp] theorem addOp_mem (s : State) (wid : Nat) (cnt : CntK) (orig : Origin) (body : Body) :
    (addOp s wid cnt orig body).2.mem = s.mem := rfl

@[simp] theorem endOp_mem (s : State) (id : Nat) : (endOp s id).mem = s.mem := by
  fun_cases endOp <;> rfl

end Sys2Proof.Machine
end

section
/-! SUPPORT. The canonical form of memory under `Machine/Mem.lean`: what its functions leave of memory. -/

namespace Sys2Proof.Machine

@[simp] theorem acquireFetch_mem (s : State) (wid : Nat) : (acquireFetch s wid).mem = s.mem := rfl

@[simp] theorem cleanUnits_mem (s : State) (us : List Nat) : (cleanUnits s us).mem = s.mem := rfl

end Sys2Proof.Machine
end

section
/-! SUPPORT. The canonical form of memory under `Machine/Xlat.lean`: what its functions leave of memory. -/

namespace Sys2Proof.Machine

@[simp] theorem tlbFill_mem (s : State) (core ctx va : Nat) (l : Leaf) : (tlbFill s core ctx va l).mem = s.mem := rfl

@[simp] theorem startWalks_mem (s : State) (wid : Nat) (slotB : Bool) (core ctx : Nat) (x : Slot) (vas : List Nat) :
    (startWalks s wid slotB core ctx x vas).mem = s.mem := by
  unfold startWalks
  refine foldl_mem _ (fun t va => ?_) _ _
  dsimp only
  split <;> rfl

theorem devWrite_wf {s : State} {ctx va : Nat} {ws : List W64} {r : State × Nat} (hm : Memory.wf s.mem = true)
    (e : devWrite s ctx va ws = some r) : Memory.wf r.1.mem = true := by
  unfold devWrite at e
  split at e <;> cases e
  exact engineWrite_wf _ _ _ hm

end Sys2Proof.Machine
end

section
/-! SUPPORT. The canonical form of memory under `Machine/Log.lean`: what its functions leave of memory. -/

namespace Sys2Proof.Machine

@[simp] theorem faultLog_wf (s : State) (ctx : Nat) (rec : List W64) (blk wave reason : Nat) (hm : Memory.wf s.mem = true) :
    Memory.wf (faultLog s ctx rec blk wave reason).mem = true := by
  fun_cases faultLog
  case case3 => exact devWrite_wf hm ‹_›
  all_goals exact hm

@[simp] theorem logFull_mem (s : State) (ctx : Nat) : (logFull s ctx).mem = s.mem := rfl

theorem logWrite_wf {s : State} {ctx u : Nat} {ws : List W64} {r : State × Nat} (hm : Memory.wf s.mem = true)
    (e : logWrite s ctx u ws = some r) : Memory.wf r.1.mem = true := by
  unfold logWrite at e
  refine foldl_bind_keeps (fun p => Memory.wf p.1.mem = true) (fun p i => _) (fun p i q hp hq => ?_) _ ?_ e
  · obtain ⟨q', hq', rfl⟩ := Option.map_eq_some_iff.1 hq
    exact devWrite_wf (r := q') hp hq'
  · rintro _ ⟨⟩; exact hm

@[simp] theorem logRec_wf (s : State) (wid kind addr : Nat) (o : Origin) (data : List Byte) (hm : Memory.wf s.mem = true) :
    Memory.wf (logRec s wid kind addr o data).mem = true := by
  fun_cases logRec
  case case5 => exact logWrite_wf hm ‹_›
  all_goals exact hm

@[simp] theorem tookRec_mem (s : State) (wid : Nat) (w : Wave) (l : LogRec) : (tookRec s wid w l).mem = s.mem := rfl

theorem receive_wf {s : State} {wid kind addr : Nat} {o : Origin} {data : List Byte} {r : State × List Byte}
    (hm : Memory.wf s.mem = true) (e : receive s wid kind addr o data = some r) : Memory.wf r.1.mem = true := by
  revert e
  fun_cases receive <;> rintro ⟨⟩ <;> simp [hm]

@[simp] theorem samplePush_wf (s : State) (ctx : Nat) (ws : List W64) (hm : Memory.wf s.mem = true) :
    Memory.wf (samplePush s ctx ws).mem = true := by
  fun_cases samplePush
  case case3 => exact devWrite_wf hm ‹_›
  all_goals exact hm

@[simp] theorem markTrapped_mem (s : State) (wid : Nat) (slotB : Bool) (image off : Nat) :
    (markTrapped s wid slotB image off).mem = s.mem := rfl

@[simp] theorem sampleHook_mem (s : State) (wid core : Nat) (w : Wave) (b : Block) (slotB trapped clear : Bool) (off addr : Nat) :
    (sampleHook s wid core w b slotB trapped clear off addr).mem = s.mem := by
  unfold sampleHook
  dsimp only
  (repeat' split) <;> simp

end Sys2Proof.Machine
end

section
/-! SUPPORT. The canonical form of memory under `Machine/Bars.lean`: what its functions leave of memory. -/

namespace Sys2Proof.Machine

@[simp] theorem setBar_mem (s : State) (blk : Nat) (x : Barrier) : (setBar s blk x).mem = s.mem := by
  fun_cases setBar <;> rfl

@[simp] theorem barWake_wf (s : State) (wid : Nat) (x : Barrier) (phase : Nat) (hm : Memory.wf s.mem = true) :
    Memory.wf (barWake s wid x phase).mem = true := by
  unfold barWake
  dsimp only
  (repeat' split) <;> simp [hm]

@[simp] theorem barCheck_wf (s : State) (blk : Nat) (x : Barrier) (hm : Memory.wf s.mem = true) :
    Memory.wf (barCheck s blk x).mem = true := by
  fun_cases barCheck
  · simpa using hm
  · exact hm
  · exact foldl_wf _ (fun t i => barWake_wf t i _ _) _ (by simpa using hm)

@[simp] theorem barArrive_wf (s : State) (blk wid : Nat) (x : Barrier) (hm : Memory.wf s.mem = true) :
    Memory.wf (barArrive s blk wid x).mem = true := by simp [barArrive, hm]

@[simp] theorem barLeave_wf (s : State) (blk wid : Nat) (x : Barrier) (hm : Memory.wf s.mem = true) :
    Memory.wf (barLeave s blk wid x).mem = true := by simp [barLeave, hm]

@[simp] theorem leaveBars_wf (s : State) (blk wid : Nat) (hm : Memory.wf s.mem = true) :
    Memory.wf (leaveBars s blk wid).mem = true := by
  unfold leaveBars
  split
  · exact hm
  · refine foldl_wf _ (fun t x0 ht => ?_) _ hm
    split
    · exact ht
    · split
      · exact barLeave_wf _ _ _ _ ht
      · exact ht

@[simp] theorem breakBars_mem (s : State) (blk : Nat) : (breakBars s blk).mem = s.mem := by
  unfold breakBars
  split <;> rfl

end Sys2Proof.Machine
end

section
/-! SUPPORT. The canonical form of memory under `Machine/Points.lean`: what its functions leave of memory. -/

namespace Sys2Proof.Machine

@[simp] theorem repoint_mem (s : State) (rope : Nat) : (repoint s rope).mem = s.mem := by
  fun_cases repoint <;> rfl

@[simp] theorem repointAll_mem (s : State) : (repointAll s).mem = s.mem := by
  unfold repointAll
  refine foldl_mem _ (fun _ _ => ?_) _ _
  simp

end Sys2Proof.Machine
end

section
/-! SUPPORT. The canonical form of memory under `Machine/Kill.lean`: what its functions leave of memory. -/

namespace Sys2Proof.Machine

@[simp] theorem latchBreak_mem (s : State) (rope key sub : Nat) : (latchBreak s rope key sub).mem = s.mem := by
  unfold latchBreak
  split
  · rfl
  · refine (foldl_mem _ (fun t m => ?_) _ _).trans (foldl_mem _ (fun t p => ?_) _ _)
    · split <;> rfl
    · split <;> simp

@[simp] theorem forgetWant_mem (s : State) (blk : Nat) : (forgetWant s blk).mem = s.mem := rfl

@[simp] theorem retireBlock_mem (s : State) (blk : Nat) : (retireBlock s blk).mem = s.mem := by
  unfold retireBlock
  dsimp only
  (repeat' split) <;> simp

@[simp] theorem combineCore_wf (s : State) (core : Nat) (hm : Memory.wf s.mem = true) :
    Memory.wf (combineCore s core).mem = true := by
  unfold combineCore
  refine foldl_wf _ (fun t c ht => foldl_wf _ (fun t e ht => ?_) _ ht) _ hm
  split
  · exact recallLine_wf _ _ ht
  · exact ht

/-- Of what a kill does only the combining of the core's update-only lines writes bytes (R262, R303). -/
@[simp] theorem killRaw_wf (s : State) (wid : Nat) (hm : Memory.wf s.mem = true) :
    Memory.wf (killRaw s wid).mem = true := by
  unfold killRaw
  split
  · exact hm
  · split
    · exact hm
    · extract_lets core s1 gone s2 s3 s4 s5 s6
      have h1 : s1.mem = s.mem := by
        simp only [s1]
        split
        · rfl
        · split
          · rfl
          · exact foldl_mem _ (fun t k => latchBreak_mem t _ k 4) _ s
      have h5 : s5.mem = s.mem := (foldl_mem _ endOp_mem gone s1).trans h1
      have h6 : Memory.wf s6.mem = true := combineCore_wf _ _ (by rw [h5]; exact hm)
      split
      · exact h6
      · split <;> simpa using h6

@[simp] theorem killWave_wf (s : State) (wid : Nat) (hm : Memory.wf s.mem = true) :
    Memory.wf (killWave s wid).mem = true := by
  unfold killWave
  dsimp only
  (repeat' split) <;> simp [hm]

@[simp] theorem killBlock_wf (s : State) (blk : Nat) (hm : Memory.wf s.mem = true) :
    Memory.wf (killBlock s blk).mem = true := by
  unfold killBlock
  split
  · exact hm
  · exact foldl_wf _ killWave_wf _ hm

@[simp] theorem replayFail_wf (s : State) (wid : Nat) (hm : Memory.wf s.mem = true) :
    Memory.wf (replayFail s wid).mem = true := by
  unfold replayFail
  split <;> simp [hm]

@[simp] theorem completePacket_wf (s : State) (lid status : Nat) (hm : Memory.wf s.mem = true) :
    Memory.wf (completePacket s lid status).mem = true := by
  unfold completePacket
  split
  · exact hm
  · rename_i l _
    extract_lets r s1 t s2 s3 s4 s5
    have hr : ∀ q, r = some q → Memory.wf q.1.mem = true := by
      intro q e
      simp only [r] at e
      split at e
      · cases e
      · exact devWrite_wf hm e
    clear_value r
    have h1 : Memory.wf s1.mem = true := by
      simp only [s1]
      split
      · exact hr _ rfl
      · exact hm
    have h2 : s2.mem = s1.mem := by simp only [s2]; split <;> rfl
    have h5 : Memory.wf s5.mem = true := by
      rw [repointAll_mem, show s4.mem = s1.mem from h2]; exact h1
    split <;> exact h5

@[simp] theorem flushCtx_wf (s : State) (ctx : Nat) (hm : Memory.wf s.mem = true) :
    Memory.wf (flushCtx s ctx).1.mem = true := by
  unfold flushCtx
  refine foldl_fst_wf _ (fun p e hp => foldl_fst_wf _ (fun p l hp => ?_) _ hp) _ hm
  split
  · exact hp
  · split
    · exact performBytes_wf _ _ hp
    · exact recallLineT_wf _ _ hp
    · exact hp

@[simp] theorem sendCtx_wf (s : State) (ctx : Nat) (hm : Memory.wf s.mem = true) :
    Memory.wf (sendCtx s ctx).1.mem = true := by
  unfold sendCtx
  refine foldl_fst_wf _ (fun p e hp => foldl_fst_wf _ (fun p l hp => ?_) _ hp) _ hm
  split
  · exact hp
  · split
    · exact evictLine_wf _ _ _ hp
    · exact recallLineT_wf _ _ hp
    · exact hp

@[simp] theorem flushLaunch_wf (s : State) (lid : Nat) (l : Launch) (hm : Memory.wf s.mem = true) :
    Memory.wf (flushLaunch s lid l).mem = true := by
  unfold flushLaunch
  split <;> simp [hm]

@[simp] theorem finishLaunch_wf (s : State) (lid : Nat) (hm : Memory.wf s.mem = true) :
    Memory.wf (finishLaunch s lid).mem = true := by
  unfold finishLaunch
  dsimp only
  (repeat' split) <;> simp [hm]

end Sys2Proof.Machine
end

section
/-! SUPPORT. The canonical form of memory under `Machine/Ops.lean`: what its functions leave of memory. -/

namespace Sys2Proof.Machine

@[simp] theorem deliverTrap_wf (s : State) (wid : Nat) (slotB atHdr : Bool) (rec : List W64) (hm : Memory.wf s.mem = true) :
    Memory.wf (deliverTrap s wid slotB atHdr rec).mem = true := by
  fun_cases deliverTrap
  · exact hm
  · exact killWave_wf _ _ (faultLog_wf _ _ _ _ _ _ (faultLog_wf _ _ _ _ _ _ hm))
  · exact killWave_wf _ _ (faultLog_wf _ _ _ _ _ _ hm)
  · exact hm

@[simp] theorem takeTrap_wf (s : State) (wid : Nat) (slotB : Bool) (p : Site) (t : TrapInfo) (hm : Memory.wf s.mem = true) :
    Memory.wf (takeTrap s wid slotB p t).mem = true := by
  fun_cases takeTrap <;> simp [hm]

@[simp] theorem pageRequest_wf (s : State) (wid : Nat) (slotB : Bool) (p : Site) (t : TrapInfo) (hm : Memory.wf s.mem = true) :
    Memory.wf (pageRequest s wid slotB p t).mem = true := by
  have ht := takeTrap_wf s wid slotB p t hm
  fun_cases pageRequest
  · exact hm
  · exact hm
  · exact hm
  · exact ht
  · exact ht
  · exact ht
  · rename_i e; exact devWrite_wf hm e

@[simp] theorem raise_wf (s : State) (wid : Nat) (slotB : Bool) (p : Site) (t : TrapInfo) (hm : Memory.wf s.mem = true) :
    Memory.wf (raise s wid slotB p t).mem = true := by
  fun_cases raise <;> simp [hm]

@[simp] theorem resumeWave_mem (s : State) (hid pid : Nat) (r : Resume) : (resumeWave s hid pid r).mem = s.mem := by
  unfold resumeWave
  dsimp only
  split <;> simp

@[simp] theorem spend_mem (s : State) (rope kind : Nat) : (spend s rope kind).mem = s.mem := rfl

@[simp] theorem spendN_mem (s : State) (rope kind n : Nat) : (spendN s rope kind n).mem = s.mem := rfl

@[simp] theorem issued_mem (s : State) (wid core : Nat) : (issued s wid core).mem = s.mem := by
  unfold issued
  split <;> rfl

@[simp] theorem yieldIf_mem (s : State) (core wid : Nat) (y : Bool) : (yieldIf s core wid y).mem = s.mem := by
  unfold yieldIf
  split <;> rfl

@[simp] theorem advance_mem (s : State) (wid : Nat) (slotB : Bool) (n : Nat) : (advance s wid slotB n).mem = s.mem := rfl

@[simp] theorem goTo_mem (s : State) (wid : Nat) (slotB : Bool) (pc : Nat) : (goTo s wid slotB pc).mem = s.mem := rfl

@[simp] theorem stepHalt_mem (s : State) (wid core : Nat) (slotB : Bool) : (stepHalt s wid core slotB).mem = s.mem := by
  fun_cases stepHalt <;> rfl

@[simp] theorem countSpillBytes_mem (s : State) (ctx n : Nat) : (countSpillBytes s ctx n).mem = s.mem := by
  unfold countSpillBytes
  split <;> rfl

/-- Beside the effect of its body the end of a word writes no byte but a trap's record. -/
theorem settle_wf (sp : WSpec) (k : IC) (ops : List Opnd) (e : Eff) (hm : Memory.wf e.state.mem = true) :
    Memory.wf (settle sp k ops e).mem = true := by
  unfold settle
  cases e with
  | trap s t =>
    have hr := raise_wf (issued s k.wid k.core) k.wid k.slotB (wordSite k.w k.x sp ops k.live t) t (by simpa using hm)
    dsimp only
    split
    · exact hr
    · simpa using hr
  | _ => simpa using hm

/-- The checks of R69 change nothing: the effect carries the state given, or is the body's. -/
theorem checked_wf (sp : WSpec) (k : IC) (ops : List Opnd) (s : State) (body : IC → State → Eff) (hm : Memory.wf s.mem = true)
    (hb : Memory.wf (body k s).state.mem = true) : Memory.wf (checked sp k ops s body).state.mem = true := by
  fun_cases checked
  case case9 => exact hb
  all_goals exact hm

@[simp] theorem markDeferred_mem (s : State) (wid : Nat) (d : Deferred) : (markDeferred s wid d).mem = s.mem := rfl

@[simp] theorem takeDeferred_wf (s : State) (wid : Nat) (slotB : Bool) (w : Wave) (b : Block) (here : Site) (d : Deferred)
    (hm : Memory.wf s.mem = true) : Memory.wf (takeDeferred s wid slotB w b here d).mem = true := by
  unfold takeDeferred
  split <;> simp [hm]

/-- Issuing a word keeps the canonical form when the word's body does. -/
theorem issueWord_wf {sp : WSpec} {body : IC → State → Eff} {s t : State}
    (hb : ∀ k s, Memory.wf s.mem = true → Memory.wf (body k s).state.mem = true) (hm : Memory.wf s.mem = true)
    (e : issueWord sp body s = .next t) : Memory.wf t.mem = true := by
  revert e
  fun_cases issueWord <;> rintro ⟨⟩
  case case5 => exact takeDeferred_wf _ _ _ _ _ _ _ hm
  case case6 => exact settle_wf _ _ _ _ (checked_wf _ _ _ _ _ hm (hb _ _ hm))
  all_goals exact hm

end Sys2Proof.Machine
end

section
/-! SUPPORT. The canonical form of memory under `Machine/Fetch.lean`: what its functions leave of memory. -/

namespace Sys2Proof.Machine

@[simp] theorem icachePut_mem (s : State) (core pa : Nat) (w : W32) : (icachePut s core pa w).mem = s.mem := by
  fun_cases icachePut <;> rfl

@[simp] theorem fetchTaken_mem (s : State) (core pa : Nat) : (fetchTaken s core pa).mem = s.mem := rfl

@[simp] theorem fetchAhead_wf (s : State) (core pa : Nat) (hm : Memory.wf s.mem = true) :
    Memory.wf (fetchAhead s core pa).mem = true := by
  unfold fetchAhead
  split <;> simp [hm]

theorem FetchOnly.mem {s t : State} (h : FetchOnly s t) : t.mem = s.mem := by
  unfold FetchOnly at h; rw [h]
@[simp] theorem fetchMany_mem (s : State) (core ctx : Nat) (x : Slot) (n va : Nat) : (fetchMany s core ctx x n va).1.mem = s.mem :=
  (fetchMany_only core ctx x n s va).mem

end Sys2Proof.Machine
end

section
/-! SUPPORT. The canonical form of memory under `Machine/Operands.lean`: what its functions leave of memory. -/

namespace Sys2Proof.Machine

@[simp] theorem setD_mem (k : IC) (s : State) (v : W64) : (setD k s v).mem = s.mem := rfl

@[simp] theorem setV_mem (k : IC) (s : State) (wide : Bool) (f : Nat → Nat) : (setV k s wide f).mem = s.mem := rfl

@[simp] theorem setX_mem (k : IC) (s : State) (f : Slot → Slot) : (setX k s f).mem = s.mem := rfl

@[simp] theorem setCtl_mem (k : IC) (s : State) (f : Ctl → Ctl) : (setCtl k s f).mem = s.mem := rfl

end Sys2Proof.Machine
end

section
/-! SUPPORT. The canonical form of memory under `Machine/Scalar.lean`: what its functions leave of memory. -/

namespace Sys2Proof.Machine

@[simp] theorem scReg_mem (f : AluOp) (k : IC) (s : State) : (scReg f k s).state.mem = s.mem := rfl

@[simp] theorem scImm_mem (f : AluOp) (k : IC) (s : State) : (scImm f k s).state.mem = s.mem := rfl

@[simp] theorem scCmp_mem (t y : Nat) (k : IC) (s : State) : (scCmp t y k s).state.mem = s.mem := rfl

@[simp] theorem scCmpReg_mem (k : IC) (s : State) : (scCmpReg k s).state.mem = s.mem := rfl

@[simp] theorem scCmpImm_mem (k : IC) (s : State) : (scCmpImm k s).state.mem = s.mem := rfl

@[simp] theorem scSel_mem (k : IC) (s : State) : (scSel k s).state.mem = s.mem := rfl

@[simp] theorem scMov_mem (k : IC) (s : State) : (scMov k s).state.mem = s.mem := rfl

@[simp] theorem scMovI_mem (k : IC) (s : State) : (scMovI k s).state.mem = s.mem := rfl

@[simp] theorem scLui_mem (k : IC) (s : State) : (scLui k s).state.mem = s.mem := rfl

@[simp] theorem scBfe_mem (k : IC) (s : State) : (scBfe k s).state.mem = s.mem := rfl

@[simp] theorem scBfi_mem (k : IC) (s : State) : (scBfi k s).state.mem = s.mem := rfl

@[simp] theorem scArg_mem (k : IC) (s : State) : (scArg k s).state.mem = s.mem := by
  fun_cases scArg <;> rfl

end Sys2Proof.Machine
end

section
/-! SUPPORT. The canonical form of memory under `Machine/Predicate.lean`: what its functions leave of memory. -/

namespace Sys2Proof.Machine

@[simp] theorem setP_mem (k : IC) (s : State) (v : Lanes) : (setP k s v).mem = s.mem := rfl

@[simp] theorem prOp2_mem (f : Lanes → Lanes → Lanes) (k : IC) (s : State) : (prOp2 f k s).state.mem = s.mem := rfl

@[simp] theorem prToS_mem (k : IC) (s : State) : (prToS k s).state.mem = s.mem := rfl

@[simp] theorem prFromS_mem (k : IC) (s : State) : (prFromS k s).state.mem = s.mem := rfl

end Sys2Proof.Machine
end

section
/-! SUPPORT. The canonical form of memory under `Machine/Control.lean`: what its functions leave of memory. -/

namespace Sys2Proof.Machine

/-- The state that a header's checks leave: that of before where they wait for a walk. -/
def HdrRes.state (s : State) : HdrRes → State
  | .go t _ _ | .trap t _ _ => t
  | .walk _ => s

theorem checkHeader_mem (s : State) (b : Block) (core ctx : Nat) (x : Slot) :
    ((checkHeader s b core ctx x).state s).mem = s.mem := by
  have hf := fun t w e => (fetchWord_only (s := s) (t := t) (core := core) (ctx := ctx) (va := x.pc) (x := x) (w := w) e).mem
  unfold checkHeader
  split
  · rfl
  · split
    · split <;> rename_i e
      · rfl
      · rfl
      · split at e
        · exact hf _ _ e
        · cases e
    · split
      · rfl
      · split
        · rfl
        · rfl
        · rename_i t h e
          dsimp only
          (repeat' split) <;> simp [HdrRes.state, hf t h e]

@[simp] theorem badWord_wf (s : State) (wid : Nat) (slotB : Bool) (w : Wave) (at_ cause sub : Nat) (hm : Memory.wf s.mem = true) :
    Memory.wf (badWord s wid slotB w at_ cause sub).mem = true := raise_wf _ _ _ _ _ hm

@[simp] theorem jumpTo_mem (s : State) (t : Int) : (jumpTo s t).state.mem = s.mem := by
  unfold jumpTo
  split <;> rfl

@[simp] theorem ctBr_mem (k : IC) (s : State) : (ctBr k s).state.mem = s.mem := by
  unfold ctBr
  split <;> simp

@[simp] theorem ctJmp_mem (k : IC) (s : State) : (ctJmp k s).state.mem = s.mem := by simp [ctJmp]

@[simp] theorem ctCall_mem (k : IC) (s : State) : (ctCall k s).state.mem = s.mem := by
  have hj := jumpTo_mem s (relTarget k)
  fun_cases ctCall
  · rename_i e; rw [e] at hj; exact hj
  · exact hj

@[simp] theorem ctRet_mem (k : IC) (s : State) : (ctRet k s).state.mem = s.mem := by
  fun_cases ctRet <;> simp

/-- The state with which a scan ends. -/
def Scan.state : Scan → State
  | .found s _ _ | .walk s _ | .bad s _ _ _ => s

theorem scanFrom_mem (v : Variant) (core ctx : Nat) (x : Slot) (isIf : Bool) (n : Nat) :
    ∀ (s : State) (hdr depth : Nat) (els : Option Loc), (scanFrom v core ctx x isIf n s hdr depth els).state.mem = s.mem := by
  induction n with
  | zero => exact fun _ _ _ _ => rfl
  | succ n ih =>
    intro s hdr depth els
    have hf := fun t w => fetchWord_only (s := s) (t := t) (core := core) (ctx := ctx) (va := hdr) (x := x) (w := w)
    unfold scanFrom
    split
    · rfl
    · split
      · rfl
      · rfl
      · rename_i t w e
        have ht := (hf t w e).mem
        split
        · exact ht
        · dsimp only
          split
          · exact ht
          · split
            · simpa [Scan.state] using ht
            · split
              · simpa [Scan.state] using ht
              · rw [ih]; simpa using ht

theorem scan_mem (s : State) (b : Block) (core ctx : Nat) (x : Slot) (isIf : Bool) : (scan s b core ctx x isIf).state.mem = s.mem :=
  scanFrom_mem ..

/-- A structured word whose scan is done keeps the canonical form when what follows does. -/
theorem scanThen_wf {k : IC} {s : State} {isIf : Bool} {f : State → Option Loc → Loc → Eff} (hm : Memory.wf s.mem = true)
    (hf : ∀ t e l, Memory.wf t.mem = true → Memory.wf (f t e l).state.mem = true) :
    Memory.wf (scanThen k s isIf f).state.mem = true := by
  rw [← scan_mem s k.b k.core k.w.ctx k.x isIf] at hm
  unfold scanThen
  split <;> rename_i e <;> rw [e] at hm
  · rw [Eff.state_wait, startWalks_mem]; exact hm
  · exact hm
  · exact hf _ _ _ hm

@[simp] theorem ctIf_wf (k : IC) (s : State) (hm : Memory.wf s.mem = true) : Memory.wf (ctIf k s).state.mem = true := by
  unfold ctIf
  split
  · exact hm
  · refine scanThen_wf hm fun t e l ht => ?_
    dsimp only
    (repeat' split) <;> exact ht

@[simp] theorem structTrap_mem (s : State) : (structTrap s).state.mem = s.mem := rfl

@[simp] theorem ctElse_mem (k : IC) (s : State) : (ctElse k s).state.mem = s.mem := by
  fun_cases ctElse <;> rfl

@[simp] theorem ctEndif_mem (k : IC) (s : State) : (ctEndif k s).state.mem = s.mem := by
  fun_cases ctEndif <;> rfl

@[simp] theorem ctLoopN_wf (n : Option Nat) (k : IC) (s : State) (hm : Memory.wf s.mem = true) :
    Memory.wf (ctLoopN n k s).state.mem = true := by
  fun_cases ctLoopN
  · exact scanThen_wf hm fun _ _ _ ht => ht
  · exact hm
  · exact scanThen_wf hm fun _ _ _ ht => ht

@[simp] theorem ctLoop_wf (k : IC) (s : State) (hm : Memory.wf s.mem = true) :
    Memory.wf (ctLoop k s).state.mem = true := by simp [ctLoop, hm]

@[simp] theorem ctLoopImm_wf (k : IC) (s : State) (hm : Memory.wf s.mem = true) :
    Memory.wf (ctLoopImm k s).state.mem = true := by simp [ctLoopImm, hm]

@[simp] theorem ctLeave_mem (brk : Bool) (k : IC) (s : State) : (ctLeave brk k s).state.mem = s.mem := by
  fun_cases ctLeave <;> rfl

theorem execClauseIssue_wf {s r : State} (hm : Memory.wf s.mem = true) (h : execClauseIssue s = .next r) :
    Memory.wf r.mem = true := by
  revert h
  unfold execClauseIssue
  split
  · rintro ⟨⟩; exact hm
  · split
    · rintro ⟨⟩; exact hm
    · split
      · rintro ⟨⟩; exact hm
      · rename_i _ c _ _ w _ _ b _
        dsimp only
        have hc := checkHeader_mem s b b.core w.ctx (slotOf w c.slotB)
        split
        · rintro ⟨⟩; exact hm
        · split
          · split
            · rintro ⟨⟩; exact hm
            · split
              · rintro ⟨⟩; simp [hm]
              · rintro ⟨⟩; simp [hm]
              · rename_i s1 w1 hf
                have h1 := (fetchWord_only hf).mem
                split <;> (rintro ⟨⟩; simp [h1, hm])
          · split <;> rename_i hr <;> rw [hr] at hc
            · rintro ⟨⟩; simp [hm]
            · rintro ⟨⟩
              exact raise_wf _ _ _ _ _ ((congrArg Memory.wf hc).trans hm)
            · replace hc : Memory.wf _ = true := (congrArg Memory.wf hc).trans hm
              split
              · rintro ⟨⟩; exact hc
              · split <;> (rintro ⟨⟩; simpa [HdrRes.state] using hc)

@[simp] theorem ctEndloop_mem (k : IC) (s : State) : (ctEndloop k s).state.mem = s.mem := by
  fun_cases ctEndloop <;> rfl

@[simp] theorem ctNop_mem (k : IC) (s : State) : (ctNop k s).state.mem = s.mem := rfl

@[simp] theorem ctYield_mem (k : IC) (s : State) : (ctYield k s).state.mem = s.mem := rfl

@[simp] theorem ctWaitcnt_mem (k : IC) (s : State) : (ctWaitcnt k s).state.mem = s.mem := by
  unfold ctWaitcnt
  split <;> rfl

@[simp] theorem ctWin_mem (k : IC) (s : State) : (ctWin k s).state.mem = s.mem := rfl

@[simp] theorem ctMode_mem (k : IC) (s : State) : (ctMode k s).state.mem = s.mem := by
  fun_cases ctMode <;> rfl

@[simp] theorem ctModeFields_mem (k : IC) (s : State) : (ctModeFields k s).state.mem = s.mem := rfl

@[simp] theorem ctEnd_mem (k : IC) (s : State) : (ctEnd k s).state.mem = s.mem := rfl

end Sys2Proof.Machine
end

section
/-! SUPPORT. The canonical form of memory under `Machine/Order.lean`: what its functions leave of memory. -/

namespace Sys2Proof.Machine

@[simp] theorem releaseSend_wf (scope : Nat) (k : IC) (s : State) (hm : Memory.wf s.mem = true) :
    Memory.wf (releaseSend scope k s).mem = true := by
  unfold releaseSend
  split <;> simp [hm, releaseL1_wf]

@[simp] theorem releaseEnd_mem (scope : Nat) (k : IC) (s : State) : (releaseEnd scope k s).mem = s.mem := by
  unfold releaseEnd
  split <;> rfl

/-- A word with a release side keeps the canonical form when what follows does (R162). -/
theorem release_wf {scope : Nat} {k : IC} {s : State} {rest : State → Eff} (hm : Memory.wf s.mem = true)
    (hr : ∀ t, Memory.wf t.mem = true → Memory.wf (rest t).state.mem = true) :
    Memory.wf (release scope k s rest).state.mem = true := by
  have hs := releaseSend_wf scope k s hm
  fun_cases release
  · exact hr _ (by simpa using hs)
  · exact hs

@[simp] theorem acquire_mem (scope : Nat) (k : IC) (s : State) : (acquire scope k s).mem = s.mem := by simp [acquire]

@[simp] theorem produce_mem (k : IC) (s : State) (c : CntK) (cls : SymCls) (nums : List Nat) (body : Body) :
    (produce k s c cls nums body).2.mem = s.mem := rfl

@[simp] theorem launchOp_mem (k : IC) (s : State) (c : CntK) (body : Body) : (launchOp k s c body).2.mem = s.mem := rfl

/-- A word that receives a value keeps the canonical form when what follows does (R394, R396). -/
theorem receiveK_wf {k : IC} {s : State} {kind addr : Nat} {data : List Byte} {rest : State → List Byte → Eff}
    (hm : Memory.wf s.mem = true) (hr : ∀ t d, Memory.wf t.mem = true → Memory.wf (rest t d).state.mem = true) :
    Memory.wf (receiveK k s kind addr data rest).state.mem = true := by
  fun_cases receiveK
  · exact hm
  · exact hr _ _ (receive_wf hm ‹_›)
  · exact replayFail_wf _ _ hm

theorem receiveW_wf {k : IC} {s : State} {kind : Nat} {v : W64} {rest : State → W64 → Eff} (hm : Memory.wf s.mem = true)
    (hr : ∀ t d, Memory.wf t.mem = true → Memory.wf (rest t d).state.mem = true) :
    Memory.wf (receiveW k s kind v rest).state.mem = true :=
  receiveK_wf hm fun _ _ => hr _ _

end Sys2Proof.Machine
end

section
/-! SUPPORT. The canonical form of memory under `Machine/Barrier.lean`: what its functions leave of memory. -/

namespace Sys2Proof.Machine

/-- A barrier word keeps the canonical form when what follows its checks does. -/
theorem barWord_wf {k : IC} {s : State} {f : Barrier → Eff} (hm : Memory.wf s.mem = true)
    (hf : ∀ x, Memory.wf (f x).state.mem = true) : Memory.wf (barWord k s f).state.mem = true := by
  fun_cases barWord
  case case5 => exact hf _
  all_goals exact hm

theorem barRelease_wf {x : Barrier} {k : IC} {s : State} {rest : State → Eff} (hm : Memory.wf s.mem = true)
    (hr : ∀ t, Memory.wf t.mem = true → Memory.wf (rest t).state.mem = true) : Memory.wf (barRelease x k s rest).state.mem = true :=
  release_wf hm hr

@[simp] theorem brArr_wf (k : IC) (s : State) (hm : Memory.wf s.mem = true) : Memory.wf (brArr k s).state.mem = true := by
  refine barWord_wf hm fun x => ?_
  split
  · exact hm
  · exact barRelease_wf hm fun t => barArrive_wf t _ _ x

@[simp] theorem barAcquire_mem (x : Barrier) (k : IC) (s : State) : (barAcquire x k s).mem = s.mem := by simp [barAcquire]

@[simp] theorem barAwait_wf (x : Barrier) (k : IC) (s : State) (hm : Memory.wf s.mem = true) :
    Memory.wf (barAwait x k s).state.mem = true := by
  unfold barAwait
  split
  · exact hm
  · dsimp only
    split
    · exact receiveK_wf hm fun t _ ht => by simpa using ht
    · split
      · split <;> simp [hm]
      · exact hm

@[simp] theorem brWait_wf (k : IC) (s : State) (hm : Memory.wf s.mem = true) : Memory.wf (brWait k s).state.mem = true :=
  barWord_wf hm fun x => barAwait_wf x k s hm

@[simp] theorem brSync_wf (k : IC) (s : State) (hm : Memory.wf s.mem = true) : Memory.wf (brSync k s).state.mem = true := by
  refine barWord_wf hm fun x => ?_
  split
  · exact hm
  · refine barRelease_wf hm fun t ht => ?_
    have h1 := barArrive_wf t k.w.blk k.wid x ht
    dsimp only
    split
    · exact h1
    · exact barAwait_wf _ k _ h1

@[simp] theorem brDrop_wf (k : IC) (s : State) (hm : Memory.wf s.mem = true) : Memory.wf (brDrop k s).state.mem = true :=
  barWord_wf hm fun x => barLeave_wf s _ _ x hm

theorem brokenPark_wf {s : State} {wid : Nat} {slotB : Bool} {r : State} (hm : Memory.wf s.mem = true)
    (e : brokenPark s wid slotB = some r) : Memory.wf r.mem = true := by
  revert e
  fun_cases brokenPark <;> rintro ⟨⟩
  simp [hm]

end Sys2Proof.Machine
end

section
/-! SUPPORT. The canonical form of memory under `Machine/MemOps.lean`: what its functions leave of memory. -/

namespace Sys2Proof.Machine

/-- The state that an access's checks leave: that of before but where they start walks. -/
def Chk.state (s : State) : Chk → State
  | .wait t => t
  | .go _ | .trap _ => s

theorem checkXlat_mem (k : IC) (s : State) (lanes : Bool) (q : Need) (accs : List (Nat × Nat)) :
    ((checkXlat k s lanes q accs).state s).mem = s.mem := by
  unfold checkXlat
  dsimp only
  (repeat' split) <;> simp [Chk.state]

theorem memCheck_mem (k : IC) (s : State) (lanes : Bool) (q : Need) (accs : List (Nat × Nat)) :
    ((memCheck k s lanes q accs).state s).mem = s.mem := by
  fun_cases memCheck
  · rfl
  · rfl
  · exact checkXlat_mem ..

/-- An access that waits for its checks has started walks and changed no byte. -/
theorem memCheck_wait {k : IC} {s t : State} {lanes : Bool} {q : Need} {accs : List (Nat × Nat)}
    (e : memCheck k s lanes q accs = .wait t) : t.mem = s.mem := by
  simpa [e, Chk.state] using memCheck_mem k s lanes q accs

@[simp] theorem noLanes_mem (k : IC) (c : CntK) (s : State) : (noLanes k c s).state.mem = s.mem := by
  unfold noLanes
  split <;> rfl

@[simp] theorem holdSlot_mem (k : IC) (s : State) (id : Nat) : (holdSlot k s id).mem = s.mem := rfl

@[simp] theorem replayStore_mem (s : State) (blk pa : Nat) (bs : List Byte) : (replayStore s blk pa bs).mem = s.mem := by
  unfold replayStore
  split
  · rfl
  · split
    · rfl
    · refine (foldl_mem _ (fun _ _ => ?_) _ _).trans ?_ <;> rfl

@[simp] theorem countRead_mem (s : State) (wid key : Nat) : (countRead s wid key).mem = s.mem := rfl

theorem replayRead_mem {s : State} {wid : Nat} {w : Wave} {o : Origin} {va pa n : Nat} {r : List Byte × State}
    (e : replayRead s wid w o va pa n = some r) : r.2.mem = s.mem := by
  have held : ∀ d : List Byte × State,
      (replayHeld s w pa n).map (fun d => (d, { s with fresh := s.fresh + 1 })) = some d → d.2.mem = s.mem := by
    intro d hd
    obtain ⟨_, _, rfl⟩ := Option.map_eq_some_iff.1 hd
    rfl
  unfold replayRead at e
  dsimp only at e
  split at e
  · split at e
    · cases e; rfl
    · exact held r e
  · exact held r e

@[simp] theorem logLine_wf (s : State) (wid : Nat) (w : Wave) (o : Origin) (va : Nat) (line : List Byte)
    (hm : Memory.wf s.mem = true) : Memory.wf (logLine s wid w o va line).mem = true := by
  unfold logLine
  dsimp only
  split <;> simp [hm]

theorem readFor_wf {s : State} {wid core : Nat} {o : Origin} {va pa n : Nat} {atHome : Bool} {r : List Byte × State × Bool}
    (hm : Memory.wf s.mem = true) (e : readFor s wid core o va pa n atHome = some r) : Memory.wf r.2.1.mem = true := by
  unfold readFor at e
  extract_lets s1 at e
  have h1 : Memory.wf s1.mem = true := by
    simp only [s1]
    split
    · split <;> exact hm
    · exact hm
  split at e
  · cases e
  · rename_i w _
    split at e
    · obtain ⟨q, hq, rfl⟩ := Option.map_eq_some_iff.1 e
      simpa [replayRead_mem hq] using h1
    · have hc := cacheRead_wf s1 (cacheOf s1 core pa) w.ctx pa n atHome h1
      dsimp only at e
      split at e <;> cases e
      · exact hc
      · rw [modWave_mem]
        exact logLine_wf _ _ _ _ _ _ (cacheRead_wf _ _ _ _ _ _ hc)

end Sys2Proof.Machine
end

section
/-! SUPPORT. The canonical form of memory under `Machine/Memory.lean`: what its functions leave of memory. -/

namespace Sys2Proof.Machine

@[simp] theorem mmLd_mem (k : IC) (s : State) : (mmLd k s).state.mem = s.mem := by
  unfold mmLd
  split
  · simp
  · split
    · rfl
    · split
      · rfl
      · rename_i e; exact memCheck_wait e
      · split
        · rfl
        · dsimp only
          split <;> simp

theorem storeLane_wf (k : IC) (scope op : Nat) (bs : Nat → List Byte) (p : State × List Nat) (a : LaneAcc)
    (hm : Memory.wf p.1.mem = true) : Memory.wf (storeLane k scope op bs p a).1.mem = true := by
  have hs : Memory.wf (reachNow (replayStore p.1 k.w.blk a.pa (bs a.lane)) k.wid (storeLevel p.1 k.core a.pa scope)).mem = true := by
    simpa using hm
  fun_cases storeLane
  · exact hs
  · exact narrowStore_wf _ _ _ _ _ _ _ hs
  · exact wideStore_wf _ _ _ _ _ _ _ _ hs

@[simp] theorem withCover_mem (s : State) (ids us : List Nat) : (withCover s ids us).mem = s.mem := by
  unfold withCover
  split <;> rfl

@[simp] theorem storeAll_wf (k : IC) (s : State) (scope : Nat) (accs : List LaneAcc) (bs : Nat → List Byte)
    (hm : Memory.wf s.mem = true) : Memory.wf (storeAll k s scope accs bs).mem = true := by
  have hr : Memory.wf (accs.foldl (storeLane k scope s.nextId bs) ({ s with nextId := s.nextId + 1 }, [])).1.mem = true :=
    foldl_fst_wf _ (storeLane_wf k scope s.nextId bs) accs hm
  fun_cases storeAll
  · exact hr
  · simpa using hr

@[simp] theorem mmSt_wf (k : IC) (s : State) (hm : Memory.wf s.mem = true) : Memory.wf (mmSt k s).state.mem = true := by
  unfold mmSt
  dsimp only
  split
  · simpa using hm
  · split
    · exact hm
    · split
      · exact hm
      · rename_i e; simpa [memCheck_wait e] using hm
      · split
        · exact hm
        · split
          · exact release_wf hm fun t => storeAll_wf k t _ _ _
          · exact storeAll_wf k s _ _ _ hm

@[simp] theorem mmLds_mem (k : IC) (s : State) : (mmLds k s).state.mem = s.mem := by
  fun_cases mmLds <;> simp

@[simp] theorem mmSts_mem (k : IC) (s : State) : (mmSts k s).state.mem = s.mem := by
  fun_cases mmSts <;> simp

@[simp] theorem mmFence_wf (k : IC) (s : State) (hm : Memory.wf s.mem = true) : Memory.wf (mmFence k s).state.mem = true := by
  unfold mmFence
  dsimp only
  split
  · split <;> simp [hm]
  · refine release_wf hm fun t ht => ?_
    dsimp only [Eff.state_done]
    split
    · exact ht
    · simpa using ht

@[simp] theorem mmFenceI_mem (k : IC) (s : State) : (mmFenceI k s).state.mem = s.mem := by
  unfold mmFenceI
  split <;> rfl

@[simp] theorem mmPref_mem (k : IC) (s : State) : (mmPref k s).state.mem = s.mem := rfl

theorem cwbLine_wf (k : IC) (op : Nat) (p : State × List Nat × Nat) (pa : Nat) (hm : Memory.wf p.1.mem = true) :
    Memory.wf (cwbLine k op p pa).1.mem = true := by
  unfold cwbLine
  dsimp only
  split
  · exact recallLineT_wf _ _ hm
  · exact hm
  · split <;> exact hm
  · exact hm

@[simp] theorem mmCwb_wf (k : IC) (s : State) (hm : Memory.wf s.mem = true) : Memory.wf (mmCwb k s).state.mem = true := by
  unfold mmCwb
  split
  · simpa using hm
  · split
    · exact hm
    · split
      · exact hm
      · rename_i e; simpa [memCheck_wait e] using hm
      · split
        · exact hm
        · simp only [Eff.state_done, modWave_mem]
          exact foldl_fst_wf _ (cwbLine_wf k s.nextId) _ hm

end Sys2Proof.Machine
end

section
/-! SUPPORT. The canonical form of memory under `Machine/Ticket.lean`: what its functions leave of memory. -/

namespace Sys2Proof.Machine

@[simp] theorem putTicket_mem (s : State) (g i : Nat) (e : Ticket) : (putTicket s g i e).mem = s.mem := rfl

@[simp] theorem reclaimTicket_mem (s : State) (g i : Nat) : (reclaimTicket s g i).mem = s.mem := by
  fun_cases reclaimTicket <;> rfl

@[simp] theorem ldtGo_mem (k : IC) (s : State) (va pa size g : Nat) (flt : Option Nat) :
    (ldtGo k s va pa size g flt).state.mem = s.mem := by
  unfold ldtGo
  dsimp only
  (repeat' split) <;> simp

@[simp] theorem drainLines_wf (k : IC) (s : State) (pa size : Nat) (hm : Memory.wf s.mem = true) :
    Memory.wf (drainLines k s pa size).mem = true := by
  unfold drainLines
  refine foldl_wf _ (fun t i ht => ?_) _ hm
  dsimp only
  split
  · exact recallLine_wf _ _ ht
  · simpa using ht

@[simp] theorem tkLdt_wf (k : IC) (s : State) (hm : Memory.wf s.mem = true) :
    Memory.wf (tkLdt k s).state.mem = true := by
  unfold tkLdt
  dsimp only
  (repeat' split) <;> simp [hm]

@[simp] theorem redeem_wf (k : IC) (s : State) (dst : RdmDest) (hm : Memory.wf s.mem = true) :
    Memory.wf (redeem k s dst).state.mem = true := by
  fun_cases redeem
  case case5 => exact receiveK_wf hm fun t d ht => ht
  all_goals exact hm

@[simp] theorem tkRdmV_wf (k : IC) (s : State) (hm : Memory.wf s.mem = true) :
    Memory.wf (tkRdmV k s).state.mem = true := by
  unfold tkRdmV
  split <;> simp [hm]

@[simp] theorem tkRdmS_wf (k : IC) (s : State) (hm : Memory.wf s.mem = true) :
    Memory.wf (tkRdmS k s).state.mem = true := by
  fun_cases tkRdmS <;> simp [hm]

@[simp] theorem tkRel_mem (k : IC) (s : State) : (tkRel k s).state.mem = s.mem := by
  fun_cases tkRel <;> rfl

@[simp] theorem tkQuery_mem (k : IC) (s : State) : (tkQuery k s).state.mem = s.mem := by
  unfold tkQuery
  split <;> rfl

end Sys2Proof.Machine
end

section
/-! SUPPORT. The canonical form of memory under `Machine/Atomic.lean`: what its functions leave of memory. -/

namespace Sys2Proof.Machine

@[simp] theorem atDrain_wf (k : IC) (s : State) (pas : List Nat) (hm : Memory.wf s.mem = true) :
    Memory.wf (atDrain k s pas).mem = true := by
  unfold atDrain
  refine foldl_wf _ (fun t a hm => ?_) _ hm
  simp [hm, evictLine_wf]

@[simp] theorem atAtom_wf (k : IC) (s : State) (hm : Memory.wf s.mem = true) : Memory.wf (atAtom k s).state.mem = true := by
  unfold atAtom
  split
  · simpa using hm
  · split
    · exact hm
    · split
      · exact hm
      · rename_i e; simpa [memCheck_wait e] using hm
      · rename_i accs _
        split
        · exact hm
        · extract_lets d perform
          have hp : ∀ t, Memory.wf t.mem = true → Memory.wf (perform t).state.mem = true := by
            intro t ht
            have hd := atDrain_wf k t (accs.map (·.pa)) ht
            simp only [perform, Eff.state_done]
            split <;> exact hd
          split
          · exact release_wf hm hp
          · exact hp s hm

@[simp] theorem redNarrow_wf (k : IC) (s : State) (a : AtomLane) (hm : Memory.wf s.mem = true) :
    Memory.wf (redNarrow k s a).mem = true := by
  unfold redNarrow
  dsimp only
  split <;> simp [hm, narrowStore_wf, cacheRead_wf]

@[simp] theorem redGather_wf (k : IC) (s : State) (a : AtomLane) (hm : Memory.wf s.mem = true) :
    Memory.wf (redGather k s a).mem = true := by
  fun_cases redGather <;> simp [hm, recallLine_wf, makeRoom_wf]

theorem redLane_wf (k : IC) (op : Nat) (p : State × List Nat) (a : AtomLane) (hm : Memory.wf p.1.mem = true) :
    Memory.wf (redLane k op p a).1.mem = true := by
  fun_cases redLane
  · exact redNarrow_wf _ _ _ hm
  · exact redGather_wf _ _ _ hm
  · exact atDrain_wf _ _ _ hm

@[simp] theorem atRed_wf (k : IC) (s : State) (hm : Memory.wf s.mem = true) : Memory.wf (atRed k s).state.mem = true := by
  unfold atRed
  split
  · simpa using hm
  · split
    · exact hm
    · split
      · exact hm
      · rename_i e; simpa [memCheck_wait e] using hm
      · split
        · exact hm
        · extract_lets perform
          have hp : ∀ t, Memory.wf t.mem = true → Memory.wf (perform t).state.mem = true := by
            intro t ht
            dsimp -zeta only [perform]
            extract_lets t1 r
            have h1 : t1.mem = t.mem := by
              simp only [t1]
              split
              · rfl
              · exact foldl_mem _ (fun _ _ => writeBack_mem ..) _ _
            have hr : Memory.wf r.1.mem = true :=
              foldl_fst_wf _ (redLane_wf k t1.nextId) _ (show Memory.wf t1.mem = true by rw [h1]; exact ht)
            split
            · exact (congrArg Memory.wf h1).trans ht
            · dsimp only [Eff.state_done]
              split <;> exact hr
          split
          · exact release_wf hm hp
          · exact hp s hm

@[simp] theorem parkMon_mem (k : IC) (s : State) (m : MonReq) : (parkMon k s m).mem = s.mem := rfl

@[simp] theorem waitMon_mem (k : IC) (s : State) (va pa : Nat) : (waitMon k s va pa).mem = s.mem := by
  fun_cases waitMon <;> rfl

@[simp] theorem waitMet_wf (k : IC) (s : State) (va : Nat) (v : W64) (hm : Memory.wf s.mem = true) :
    Memory.wf (waitMet k s va v).state.mem = true := by
  refine receiveK_wf hm fun t d ht => ?_
  dsimp only [Eff.state_done]
  split <;> simpa using ht

@[simp] theorem atWaitc_wf (k : IC) (s : State) (hm : Memory.wf s.mem = true) : Memory.wf (atWaitc k s).state.mem = true := by
  unfold atWaitc
  extract_lets va n
  split
  · exact hm
  · split
    · exact hm
    · rename_i e; simpa [memCheck_wait e] using hm
    · extract_lets pa t t1 r m
      have h1 : Memory.wf t1.mem = true := by simpa [t1, t] using hm
      have hr : Memory.wf r.2.mem = true := homeRead_wf _ _ _ (by simpa using h1)
      split
      · exact waitMet_wf _ _ _ _ hm
      · (repeat' split) <;> simp [h1, hr]

end Sys2Proof.Machine
end

section
/-! SUPPORT. The canonical form of memory under `Machine/Episode.lean`: what its functions leave of memory. -/

namespace Sys2Proof.Machine

@[simp] theorem dropSends_mem (s : State) (e : Nat) : (dropSends s e).mem = s.mem := by
  unfold dropSends
  refine foldl_mem _ (fun _ _ => ?_) _ _
  simp

@[simp] theorem startEp_mem (s : State) (e : Nat) : (startEp s e).mem = s.mem := by simp [startEp]

@[simp] theorem finishReset_mem (s : State) (e : Nat) (m : Msg) : (finishReset s e m).mem = s.mem := by simp [finishReset]

@[simp] theorem resetEp_mem (s : State) (e status : Nat) (ver : BitVec 16) : (resetEp s e status ver).mem = s.mem := by
  unfold resetEp
  split <;> simp

@[simp] theorem setPolicy_mem (s : State) (c : Nat) (v : BitVec 16) : (setPolicy s c v).mem = s.mem := by
  unfold setPolicy
  refine (foldl_mem _ (fun t e => ?_) _ _).trans ?_
  · dsimp only
    split <;> simp
  · rfl

@[simp] theorem stopEps_mem (s : State) (c : Nat) (unbind : Bool) : (stopEps s c unbind).mem = s.mem := by
  unfold stopEps
  refine foldl_mem _ (fun _ _ => ?_) _ _
  simp

end Sys2Proof.Machine
end

section
/-! SUPPORT. The canonical form of memory under `Machine/Vector.lean`: what its functions leave of memory. -/

namespace Sys2Proof.Machine

@[simp] theorem veInt_mem (f : AluOp) (k : IC) (s : State) : (veInt f k s).state.mem = s.mem := rfl

@[simp] theorem veInt1_mem (f : AluOp) (k : IC) (s : State) : (veInt1 f k s).state.mem = s.mem := rfl

@[simp] theorem veAddI_mem (k : IC) (s : State) : (veAddI k s).state.mem = s.mem := rfl

@[simp] theorem veMovI_mem (k : IC) (s : State) : (veMovI k s).state.mem = s.mem := rfl

@[simp] theorem veMad_mem (k : IC) (s : State) : (veMad k s).state.mem = s.mem := rfl

@[simp] theorem veDot4_mem (k : IC) (s : State) : (veDot4 k s).state.mem = s.mem := rfl

@[simp] theorem veBfe_mem (k : IC) (s : State) : (veBfe k s).state.mem = s.mem := rfl

@[simp] theorem veBfi_mem (k : IC) (s : State) : (veBfi k s).state.mem = s.mem := rfl

@[simp] theorem veSel_mem (k : IC) (s : State) : (veSel k s).state.mem = s.mem := rfl

@[simp] theorem veMov_mem (k : IC) (s : State) : (veMov k s).state.mem = s.mem := rfl

@[simp] theorem veBcast_mem (k : IC) (s : State) : (veBcast k s).state.mem = s.mem := rfl

@[simp] theorem veLane_mem (k : IC) (s : State) : (veLane k s).state.mem = s.mem := rfl

@[simp] theorem setPLive_mem (k : IC) (s : State) (d : Nat) (f : Nat → Bool) : (setPLive k s d f).mem = s.mem := rfl

@[simp] theorem veCmp_mem (k : IC) (s : State) : (veCmp k s).state.mem = s.mem := rfl

end Sys2Proof.Machine
end

section
/-! SUPPORT. The canonical form of memory under `Machine/VecFloat.lean`: what its functions leave of memory. -/

namespace Sys2Proof.Machine

@[simp] theorem fpWord_mem (k : IC) (s : State) (wide : Bool) (f : Nat → Nat × Exc) : (fpWord k s wide f).state.mem = s.mem := by
  unfold fpWord
  split <;> rfl

@[simp] theorem vfBin_mem (g : Fmt → Nat → Bool → Nat → Nat → Nat × Exc) (k : IC) (s : State) :
    (vfBin g k s).state.mem = s.mem := by simp [vfBin]

@[simp] theorem vfFma_mem (k : IC) (s : State) : (vfFma k s).state.mem = s.mem := by simp [vfFma]

@[simp] theorem vfMinMax_mem (mx : Bool) (k : IC) (s : State) : (vfMinMax mx k s).state.mem = s.mem := by simp [vfMinMax]

@[simp] theorem vfSign_mem (neg : Bool) (k : IC) (s : State) : (vfSign neg k s).state.mem = s.mem := rfl

@[simp] theorem vfRnd_mem (k : IC) (s : State) : (vfRnd k s).state.mem = s.mem := by simp [vfRnd]

@[simp] theorem vfDot2_mem (k : IC) (s : State) : (vfDot2 k s).state.mem = s.mem := by simp [vfDot2]

@[simp] theorem vfCmp_mem (k : IC) (s : State) : (vfCmp k s).state.mem = s.mem := by
  fun_cases vfCmp <;> rfl

@[simp] theorem vfClass_mem (k : IC) (s : State) : (vfClass k s).state.mem = s.mem := rfl

@[simp] theorem seedPut_mem (k : IC) (s : State) (f : Nat → W32) : (seedPut k s f).mem = s.mem := rfl

@[simp] theorem vfCvt_mem (k : IC) (s : State) : (vfCvt k s).state.mem = s.mem := by
  unfold vfCvt
  dsimp only
  (repeat' split) <;> simp

end Sys2Proof.Machine
end

section
/-! SUPPORT. The canonical form of memory under `Machine/Matrix.lean`: what its functions leave of memory. -/

namespace Sys2Proof.Machine

@[simp] theorem quadPut_mem (s : State) (blk num : Nat) (f : Nat → W32) : (quadPut s blk num f).mem = s.mem := by
  fun_cases quadPut <;> rfl

@[simp] theorem markQuads_mem (s : State) (blk wid op : Nat) (nums : List Nat) : (markQuads s blk wid op nums).mem = s.mem := rfl

@[simp] theorem matIssue_mem (k : IC) (s : State) (m : MatReq) (quads vecs : List Nat) :
    (matIssue k s m quads vecs).state.mem = s.mem := by
  unfold matIssue
  split <;> rfl

@[simp] theorem mxGang_mem (k : IC) (s : State) : (mxGang k s).state.mem = s.mem := by
  fun_cases mxGang <;> rfl

@[simp] theorem latchComplete_mem (s : State) (rope key : Nat) : (latchComplete s rope key).mem = s.mem := by
  unfold latchComplete
  split
  · rfl
  · refine (foldl_mem _ (fun t id => ?_) _ _).trans ?_
    · split <;> rfl
    · rfl

@[simp] theorem gangIssue_mem (k : IC) (s : State) (m : MatReq) (quads : List Nat) : (gangIssue k s m quads).state.mem = s.mem := by
  unfold gangIssue
  extract_lets rope n mw add joined
  have ha : ∀ t, (add t).2.mem = t.mem := by
    intro t
    simp only [add]
    split <;> simp
  have hj : ∀ r key e, (joined r key e).mem = r.2.mem := fun _ _ _ => rfl
  split
  · exact foldl_mem _ (fun t i => latchBreak_mem t rope i 1) _ _
  · iterate 3 (split; · rfl)
    split
    · split
      · simp [ha, hj]
      · split
        · rfl
        · exact ha s
    · dsimp only
      split
      · rfl
      · split
        · simp [ha, hj]
        · split <;> simp [ha, hj]

@[simp] theorem mmIssue_mem (k : IC) (s : State) (m : MatReq) (quads : List Nat) : (mmIssue k s m quads).state.mem = s.mem := by
  unfold mmIssue
  split <;> simp

@[simp] theorem mxMM_mem (k : IC) (s : State) : (mxMM k s).state.mem = s.mem := by
  fun_cases mxMM <;> simp

@[simp] theorem mxMMG_mem (k : IC) (s : State) : (mxMMG k s).state.mem = s.mem := by
  fun_cases mxMMG <;> simp

@[simp] theorem mxMMB_mem (k : IC) (s : State) : (mxMMB k s).state.mem = s.mem := by
  fun_cases mxMMB <;> simp

@[simp] theorem mxTile_mem (k : IC) (s : State) : (mxTile k s).state.mem = s.mem := by
  fun_cases mxTile <;> simp

@[simp] theorem mxScl_mem (k : IC) (s : State) : (mxScl k s).state.mem = s.mem := by
  unfold mxScl
  split <;> simp

@[simp] theorem mxClr_mem (k : IC) (s : State) : (mxClr k s).state.mem = s.mem := by simp [mxClr]

@[simp] theorem mxFill_mem (k : IC) (s : State) : (mxFill k s).state.mem = s.mem := by simp [mxFill]

@[simp] theorem mxMov_mem (k : IC) (s : State) : (mxMov k s).state.mem = s.mem := by
  unfold mxMov
  split <;> simp

@[simp] theorem mxAld_mem (k : IC) (s : State) : (mxAld k s).state.mem = s.mem := by
  fun_cases mxAld <;> simp

@[simp] theorem mxAst_mem (k : IC) (s : State) : (mxAst k s).state.mem = s.mem := by
  fun_cases mxAst <;> simp

@[simp] theorem granted_mem (s : State) (op rope : Nat) (o : Op) (m : MatReq) : (granted s op rope o m).mem = s.mem := by
  unfold granted
  split <;> rfl

theorem execMatrixGrant_wf {op : Nat} {s r : State} (hm : Memory.wf s.mem = true) (h : execMatrixGrant op s = .next r) :
    Memory.wf r.mem = true := by
  revert h
  fun_cases execMatrixGrant <;> rintro ⟨⟩ <;> simp [hm]

@[simp] theorem firstUse_wf (s : State) (rope ctx p : Nat) (hm : Memory.wf s.mem = true) :
    Memory.wf (firstUse s rope ctx p).mem = true := by
  unfold firstUse
  dsimp only
  split <;> simp [hm, engineWrite_wf]

theorem execAccFirstUseTrap_wf {op quad : Nat} {s r : State} (hm : Memory.wf s.mem = true)
    (h : execAccFirstUseTrap op quad s = .next r) : Memory.wf r.mem = true := by
  revert h
  fun_cases execAccFirstUseTrap <;> rintro ⟨⟩ <;> simp [hm]

@[simp] theorem runMM_mem (s : State) (id blk : Nat) (b : Block) (m : MatReq) : (runMM s id blk b m).mem = s.mem := by
  unfold runMM
  refine foldl_mem _ (fun _ _ => ?_) _ _
  simp

@[simp] theorem matEffect_mem (s : State) (id : Nat) (o : Op) (m : MatReq) : (matEffect s id o m).mem = s.mem := by
  unfold matEffect
  split
  · rfl
  · split
    · rfl
    · extract_lets n side bf each
      have he : ∀ t f, (each t f).mem = t.mem := fun t f => foldl_mem _ (fun _ _ => quadPut_mem ..) _ _
      split <;> simp [he]

@[simp] theorem countSpill_mem (s : State) (o : Op) (m : MatReq) : (countSpill s o m).mem = s.mem := by
  unfold countSpill
  split <;> simp

@[simp] theorem engineTrap_mem (s : State) (wid : Nat) (m : MatReq) (ids : List Nat) (e : BufMark) (elem : Nat) :
    (engineTrap s wid m ids e elem).mem = s.mem := by
  unfold engineTrap
  refine foldl_mem _ (fun _ _ => ?_) _ _
  simp

theorem execMatrixWordComplete_wf {op : Nat} {s r : State} (hm : Memory.wf s.mem = true)
    (h : execMatrixWordComplete op s = .next r) : Memory.wf r.mem = true := by
  revert h
  fun_cases execMatrixWordComplete <;> rintro ⟨⟩
  · exact hm
  · exact hm
  · simp [hm]
  · rw [countSpill_mem]
    exact foldl_wf _ (fun t a ht => by simpa using ht) _ (by simpa using hm)

@[simp] theorem tilePitch_mem (s : State) (blk : Nat) (b : Block) (m : MatReq) (pi pj : Nat) :
    (tilePitch s blk b m pi pj).mem = s.mem := by
  unfold tilePitch
  refine foldl_mem _ (fun _ _ => ?_) _ _
  simp

theorem execMtilePitchComplete_wf {op : Nat} {s r : State} (hm : Memory.wf s.mem = true)
    (h : execMtilePitchComplete op s = .next r) : Memory.wf r.mem = true := by
  revert h
  fun_cases execMtilePitchComplete <;> rintro ⟨⟩
  case case5 => simp [hm]
  case case6 => simp +zetaDelta [hm]
  case case7 => simp +zetaDelta [hm]
  case case8 => simp +zetaDelta [hm]
  all_goals exact hm

theorem execGangLatchTimeout_wf {rope entry : Nat} {s r : State} (hm : Memory.wf s.mem = true)
    (h : execGangLatchTimeout rope entry s = .next r) : Memory.wf r.mem = true := by
  revert h
  fun_cases execGangLatchTimeout <;> rintro ⟨⟩ <;> simp [hm]

end Sys2Proof.Machine
end

section
/-! SUPPORT. The canonical form of memory under `Machine/Mailbox.lean`: what its functions leave of memory. -/

namespace Sys2Proof.Machine

@[simp] theorem mbSend_wf (k : IC) (s : State) (hm : Memory.wf s.mem = true) : Memory.wf (mbSend k s).state.mem = true := by
  unfold mbSend
  dsimp only
  split
  · exact hm
  · split
    · exact hm
    · split
      · exact hm
      · refine release_wf hm fun t ht => ?_
        (repeat' split)
        · exact receiveW_wf ht fun _ _ hu => hu
        · exact receiveW_wf ht fun _ _ hu => hu
        · exact ht
        · exact receiveW_wf ht fun _ _ hu => hu

theorem execMbsendEnqueue_wf {op : Nat} {s r : State} (hm : Memory.wf s.mem = true) (h : execMbsendEnqueue op s = .next r) :
    Memory.wf r.mem = true := by
  revert h
  fun_cases execMbsendEnqueue <;> rintro ⟨⟩ <;> simp [hm]

@[simp] theorem recvInto_mem (s : State) (wid blk buf off d : Nat) (m : List Byte) :
    (recvInto s wid blk buf off d m).mem = s.mem := rfl

@[simp] theorem replayRecv_wf (k : IC) (s : State) (hm : Memory.wf s.mem = true) : Memory.wf (replayRecv k s).state.mem = true := by
  unfold replayRecv
  extract_lets empty
  split
  · exact receiveW_wf hm fun _ _ ht => ht
  · exact receiveK_wf hm fun _ _ ht => receiveW_wf ht fun _ _ hu => by simpa using hu

@[simp] theorem mbRecv_wf (k : IC) (s : State) (hm : Memory.wf s.mem = true) : Memory.wf (mbRecv k s).state.mem = true := by
  fun_cases mbRecv
  case case4 => exact replayRecv_wf k s hm
  case case6 => exact receiveW_wf hm fun _ _ ht => ht
  all_goals exact hm

@[simp] theorem wakeRecv_mem (s : State) (wid op : Nat) : (wakeRecv s wid op).mem = s.mem := rfl

@[simp] theorem deliverObs_wf (s : State) (op : Nat) (o : Op) (b : Block) (blk buf off d : Nat) (m : Msg)
    (hm : Memory.wf s.mem = true) : Memory.wf (deliverObs s op o b blk buf off d m).mem = true := by simp [deliverObs, hm]

theorem execObservationDelivery_wf {mbox : Nat} {s r : State} (hm : Memory.wf s.mem = true)
    (h : execObservationDelivery mbox s = .next r) : Memory.wf r.mem = true := by
  revert h
  fun_cases execObservationDelivery <;> rintro ⟨⟩ <;> simp [hm]

@[simp] theorem mbPoll_mem (k : IC) (s : State) : (mbPoll k s).state.mem = s.mem := by
  fun_cases mbPoll <;> rfl

@[simp] theorem mbVer_wf (k : IC) (s : State) (hm : Memory.wf s.mem = true) : Memory.wf (mbVer k s).state.mem = true := by
  unfold mbVer
  split
  · exact hm
  · split
    · exact hm
    · refine release_wf hm fun t ht => ?_
      split
      · exact ht
      · refine receiveW_wf ?_ fun _ _ hu => hu
        split <;> simpa using ht

end Sys2Proof.Machine
end

section
/-! SUPPORT. The canonical form of memory under `Machine/Copy.lean`: what its functions leave of memory. -/

namespace Sys2Proof.Machine

@[simp] theorem joinCopy_mem (s : State) (blk n : Nat) (cancelled : Bool) (sl : CopySlice) :
    (joinCopy s blk n cancelled sl).mem = s.mem := rfl

@[simp] theorem cpIssue_mem (kind : Nat) (k : IC) (s : State) : (cpIssue kind k s).state.mem = s.mem := by
  unfold cpIssue
  dsimp only
  (repeat' split) <;> simp

@[simp] theorem freeLocks_mem (s : State) (blk k : Nat) : (freeLocks s blk k).mem = s.mem := rfl

@[simp] theorem wakeCpyw_mem (s : State) (wid k : Nat) : (wakeCpyw s wid k).mem = s.mem := rfl

@[simp] theorem finishCopy_wf (s : State) (blk k : Nat) (c : Copy) (hm : Memory.wf s.mem = true) :
    Memory.wf (finishCopy s blk k c).mem = true := by
  unfold finishCopy
  split
  · exact hm
  · extract_lets va ws put s1 s2
    have hput : ∀ t a w, Memory.wf t.mem = true → Memory.wf (put t a w).mem = true := by
      intro t a w ht
      simp only [put]
      split
      · rename_i e; exact devWrite_wf ht e
      · exact ht
    have h1 : Memory.wf s1.mem = true := hput _ _ _ (hput _ _ _ hm)
    have h2 : s2.mem = s1.mem := by
      refine (foldl_mem _ (fun t x => ?_) _ _).trans rfl
      split <;> simp
    rw [modBlock_mem, h2]
    exact h1

@[simp] theorem putCopy_mem (s : State) (blk k : Nat) (c : Copy) : (putCopy s blk k c).mem = s.mem := rfl

theorem decideRecv_mem (b : Block) (blk k : Nat) (c : Copy) (p : State × Copy) (i : Nat) :
    (decideRecv b blk k c p i).1.mem = p.1.mem := by
  fun_cases decideRecv <;> rfl

theorem execCopyStart_wf {blk k entry : Nat} {s r : State} (hm : Memory.wf s.mem = true)
    (h : execCopyStart blk k entry s = .next r) : Memory.wf r.mem = true := by
  revert h
  fun_cases execCopyStart <;> rintro ⟨⟩
  case case3 => exact finishCopy_wf _ _ _ _ hm
  case case5 => exact finishCopy_wf _ _ _ _ hm
  case case7 b _ c _ _ _ _ _ _ _ _ s1 hd is_ p =>
    have hp : p.1.mem = s1.mem := by
      have hf : ∀ (l : List Nat) (q : State × Copy), (l.foldl (decideRecv b blk k c) q).1.mem = q.1.mem := by
        intro l
        induction l with
        | nil => exact fun _ => rfl
        | cons i l ih => exact fun q => (ih _).trans (decideRecv_mem ..)
      exact hf is_ (s1, c)
    rw [putCopy_mem, hp]
    exact hm
  all_goals exact hm

@[simp] theorem engineSee_wf (s : State) (core pa : Nat) (hm : Memory.wf s.mem = true) :
    Memory.wf (engineSee s core pa).1.mem = true := by
  unfold engineSee
  dsimp only
  (repeat' split) <;> simp [hm, performBytes_wf]

theorem payRead_wf {s : State} {b : Block} {blk : Nat} {sl : CopySlice} {off : Nat} {r : List Byte × State}
    (hm : Memory.wf s.mem = true) (e : payRead s b blk sl off = .ok r) : Memory.wf r.2.mem = true := by
  revert e
  fun_cases payRead <;> rintro ⟨⟩
  · exact hm
  · exact homeRead_wf _ _ _ (engineSee_wf _ _ _ hm)

@[simp] theorem payPoison_mem (s : State) (blk : Nat) (c : Copy) (sl : CopySlice) (off : Nat) :
    (payPoison s blk c sl off).mem = s.mem := by
  fun_cases payPoison
  · rfl
  · exact foldl_mem _ (fun _ _ => modBlock_mem ..) _ _

theorem payWrite_wf {s : State} {b : Block} {blk : Nat} {c : Copy} {sl : CopySlice} {off : Nat} {bs : List Byte} {r : State × Nat}
    (hm : Memory.wf s.mem = true) (e : payWrite s b blk c sl off bs = .ok r) : Memory.wf r.1.mem = true := by
  unfold payWrite at e
  split at e
  · split at e
    · cases e
    · rename_i pa _
      have hq := engineWrite_wf (engineSee s b.core pa).1 pa bs (engineSee_wf s b.core pa hm)
      cases e
      dsimp only
      split <;> exact hq
  · cases e
    exact (congrArg Memory.wf (foldl_mem _ (fun _ _ => modBlock_mem ..) _ _)).trans hm

theorem runUnits_wf (b : Block) (blk : Nat) (c : Copy) (sl : CopySlice) (n : Nat) :
    ∀ (off : Nat) {s : State} (t : Nat), Memory.wf s.mem = true → Memory.wf (runUnits b blk c sl n off s t).s.mem = true := by
  induction n with
  | zero => exact fun _ _ _ hm => hm
  | succ n ih =>
    intro off s t hm
    unfold runUnits
    split
    · exact hm
    · split
      · dsimp only
        split
        · simpa using hm
        · exact hm
      · rename_i e
        have h1 := payRead_wf hm e
        split
        · exact h1
        · rename_i e
          exact ih _ _ (payWrite_wf h1 e)

theorem payLog_wf {s : State} {b : Block} {blk : Nat} {c : Copy} {sl : CopySlice} {from_ till : Nat} {fault : Bool} {r : State}
    (hm : Memory.wf s.mem = true) (e : payLog s b blk c sl from_ till fault = some r) : Memory.wf r.mem = true := by
  unfold payLog at e
  split at e
  · cases e; exact hm
  · refine foldl_bind_keeps (fun t => Memory.wf t.mem = true) (fun t p => _) (fun t p u ht hu => ?_) _ ?_ e
    · obtain ⟨q, hq, rfl⟩ := Option.map_eq_some_iff.1 hu
      have h1 := receive_wf ht hq
      split
      · exact h1
      · exact h1
    · rintro _ ⟨⟩; exact hm

theorem runSlices_wf (b : Block) (blk : Nat) (sls : List CopySlice) :
    ∀ (n : Nat) (c : Copy) {s : State} (t : Nat) {r : State × Nat × Copy}, Memory.wf s.mem = true →
      runSlices b blk n c sls s t = .ok r → Memory.wf r.1.mem = true := by
  induction sls with
  | nil => rintro n c s t r hm ⟨⟩; exact hm
  | cons sl rest ih =>
    intro n c s t r hm e
    have hu := runUnits_wf b blk c sl (min n ((sl.len - c.off) / 16)) c.off t hm
    unfold runSlices at e
    dsimp only at e
    split at e
    · cases e
    · rename_i hl
      have h1 := payLog_wf hu hl
      split at e
      · cases e; exact h1
      · split at e
        · cases e; exact h1
        · exact ih _ _ _ h1 e

@[simp] theorem showDone_mem (s : State) (blk k n : Nat) : (showDone s blk k n).mem = s.mem := rfl

/-- The state that a stretch of payload leaves, also where a replay ends with it. -/
def copyState : Except State (State × Copy) → State
  | .error s => s
  | .ok p => p.1

theorem copyUnits_wf (s : State) (b : Block) (blk k n : Nat) (c : Copy) (hm : Memory.wf s.mem = true) :
    Memory.wf (copyState (copyUnits s b blk k n c)).mem = true := by
  unfold copyUnits
  split
  · exact replayFail_wf _ _ hm
  · rename_i e; exact runSlices_wf _ _ _ _ _ _ hm e

@[simp] theorem copyMove_wf (s : State) (blk k n : Nat) (hm : Memory.wf s.mem = true) :
    Memory.wf (copyMove s blk k n).mem = true := by
  unfold copyMove
  split
  · exact hm
  · split
    · exact hm
    · rename_i b _ _ c _
      have hc := copyUnits_wf s b blk k n c hm
      split
      · exact hm
      · split <;> rename_i e <;> rw [e] at hc <;> exact hc

theorem execCopyComplete_wf {blk k : Nat} {s r : State} (hm : Memory.wf s.mem = true) (h : execCopyComplete blk k s = .next r) :
    Memory.wf r.mem = true := by
  have hu : ∀ b c u, copyUnits s b blk k (copyLen c) c = u → Memory.wf (copyState u).mem = true :=
    fun b c u e => e ▸ copyUnits_wf s b blk k _ c hm
  revert h
  unfold execCopyComplete
  split
  · rintro ⟨⟩; exact hm
  · split
    · rintro ⟨⟩; exact hm
    · split
      · rintro ⟨⟩; exact finishCopy_wf _ _ _ _ hm
      · split
        · split <;> rintro ⟨⟩
          · exact hm
          · exact finishCopy_wf _ _ _ _ hm
        · split
          · rintro ⟨⟩; exact hm
          · split
            · rintro ⟨⟩; exact hu _ _ _ ‹_›
            · have h1 := hu _ _ _ ‹_›
              dsimp only
              split
              · rintro ⟨⟩; exact h1
              · split <;> rintro ⟨⟩
                · exact h1
                · exact finishCopy_wf _ _ _ _ h1

end Sys2Proof.Machine
end

section
/-! SUPPORT. The canonical form of memory under `Machine/Cross.lean`: what its functions leave of memory. -/

namespace Sys2Proof.Machine

@[simp] theorem xlShuffle_mem (src : IC → Nat → Nat) (k : IC) (s : State) : (xlShuffle src k s).state.mem = s.mem := rfl

@[simp] theorem xlVote_mem (k : IC) (s : State) : (xlVote k s).state.mem = s.mem := rfl

@[simp] theorem xlRed_mem (o : RedOp) (k : IC) (s : State) : (xlRed o k s).state.mem = s.mem := by
  fun_cases xlRed <;> rfl

@[simp] theorem xlScan_mem (k : IC) (s : State) : (xlScan k s).state.mem = s.mem := by
  fun_cases xlScan <;> rfl

@[simp] theorem xlMatch_mem (k : IC) (s : State) : (xlMatch k s).state.mem = s.mem := rfl

@[simp] theorem xlTopk_mem (k : IC) (s : State) : (xlTopk k s).state.mem = s.mem := rfl

end Sys2Proof.Machine
end

section
/-! SUPPORT. The canonical form of memory under `Machine/Iterator.lean`: what its functions leave of memory. -/

namespace Sys2Proof.Machine

@[simp] theorem itDef_mem (k : IC) (s : State) : (itDef k s).state.mem = s.mem := by
  fun_cases itDef <;> rfl

theorem elemRead_wf {k : IC} {s : State} {r : Iter} {va pa : Nat} {q : Nat × State × Bool} (hm : Memory.wf s.mem = true)
    (e : elemRead k s r va pa = some q) : Memory.wf q.2.1.mem = true := by
  obtain ⟨x, hx, rfl⟩ := Option.map_eq_some_iff.1 e
  exact readFor_wf (by simpa using hm) hx

@[simp] theorem elemStore_wf (k : IC) (s : State) (r : Iter) (pa v : Nat) (hm : Memory.wf s.mem = true) :
    Memory.wf (elemStore k s r pa v).mem = true := by
  unfold elemStore
  split <;> simp [hm, narrowStore_wf, wideStore_wf]

@[simp] theorem sweepDrain_mem (k : IC) (s : State) (r : Iter) (pas : List Nat) : (sweepDrain k s r pas).mem = s.mem := by
  unfold sweepDrain
  split
  · rfl
  · exact foldl_mem _ (fun _ _ => writeBack_mem ..) _ _

/-- The state with which a run of elements ends. -/
@[simp] def SweepEnd.state : SweepEnd → State
  | .all s | .at_ s _ _ | .lost s => s

theorem sweepRun_wf (k : IC) (r : Iter) (code n : Nat) :
    ∀ (e : Nat) {s : State}, Memory.wf s.mem = true → Memory.wf (sweepRun k r code n e s).state.mem = true := by
  induction n with
  | zero => exact fun _ _ hm => hm
  | succ n ih =>
    intro e s hm
    unfold sweepRun
    split
    · exact hm
    · exact hm
    · split
      · exact hm
      · rename_i hx
        have h1 := elemRead_wf hm hx
        dsimp only at h1
        split
        · exact h1
        · rename_i y s2 py hy
          have h2 : Memory.wf s2.mem = true := by
            split at hy
            · cases hy; exact h1
            · exact elemRead_wf h1 hy
          split
          · exact h2
          · dsimp only
            split
            · exact h2
            · exact ih _ (elemStore_wf _ _ _ _ _ h2)

@[simp] theorem itSweep_wf (k : IC) (s : State) (hm : Memory.wf s.mem = true) : Memory.wf (itSweep k s).state.mem = true := by
  unfold itSweep
  extract_lets r code n floatOk es p s0
  have h0 : Memory.wf s0.mem = true := by simpa [s0] using hm
  have hr := sweepRun_wf k r code (n - r.progress) r.progress h0
  split
  · exact hm
  · split
    · exact hm
    · split
      · simpa using hm
      · split
        · exact h0
        · split <;> rename_i e <;> rw [e] at hr
          · exact replayFail_wf _ _ hr
          · exact hr
          · simpa using hr

/-- The state with which the fold of a segment ends. -/
@[simp] def SegEnd.state : SegEnd → State
  | .done s _ | .at_ s _ | .lost s => s

/-- The fold of a segment, element by element (R149). -/
theorem segRun_cons (k : IC) (r : Iter) (code e : Nat) (rest : List Nat) (s : State) (acc : W64) :
    segRun k r code (e :: rest) s acc =
      match elemCheck k s r e [(r.addr 1 e, false)] with
      | .bad t => .at_ s t
      | .unknown vas => .at_ s { cause := 6, sub := 1, fmask := laneSet [e % k.w.width], addr := vas.headD 0, elem := e }
      | .ok pas =>
        match elemRead k s r (r.addr 1 e) (pas.headD 0) with
        | none => .lost s
        | some (x, s1, px) =>
          if px then .at_ s1 (elemPois k e (r.addr 1 e))
          else segRun k r code rest s1 (foldOp code r.type acc (ext64 (isSigned r.type) (tyWidth r.type) x)) := by
  delta segRun
  rfl

theorem segRun_wf (k : IC) (r : Iter) (code : Nat) (es : List Nat) :
    ∀ {s : State} (acc : W64), Memory.wf s.mem = true → Memory.wf (segRun k r code es s acc).state.mem = true := by
  induction es with
  | nil => exact fun _ hm => hm
  | cons e rest ih =>
    intro s acc hm
    rw [segRun_cons]
    split
    · exact hm
    · exact hm
    · split
      · exact hm
      · rename_i hx
        have h1 := elemRead_wf hm hx
        split
        · exact h1
        · exact ih _ h1

/-- The state with which a walk ends. -/
@[simp] def WalkEnd.state : WalkEnd → State
  | .all s _ | .at_ s _ _ _ | .lost s => s

theorem walkRun_wf (k : IC) (r : Iter) (code : Nat) (js : List Nat) :
    ∀ {s : State} (acc : W64) (prog : Nat), Memory.wf s.mem = true → Memory.wf (walkRun k r code js s acc prog).state.mem = true := by
  induction js with
  | nil => intro s acc prog hm; simpa [walkRun] using hm
  | cons j rest ih =>
    intro s acc prog hm
    have hs := segRun_wf k r code (segElems r.count j) acc hm
    unfold walkRun
    split <;> rename_i e <;> rw [e] at hs
    · exact hs
    · exact hs
    · exact ih _ _ hs

@[simp] theorem itWalk_wf (k : IC) (s : State) (hm : Memory.wf s.mem = true) : Memory.wf (itWalk k s).state.mem = true := by
  unfold itWalk
  extract_lets r code d js s1 p
  have hr := walkRun_wf k r code js (s := s1) (scGet k.w d) (walkDone r) hm
  split
  · exact hm
  · split
    · exact hm
    · split
      · simpa using hm
      · split
        · exact hm
        · split <;> rename_i e <;> rw [e] at hr
          · exact replayFail_wf _ _ hr
          · exact hr
          · simpa using hr

end Sys2Proof.Machine
end

section
/-! SUPPORT. The canonical form of memory under `Machine/Special.lean`: what its functions leave of memory. -/

namespace Sys2Proof.Machine

@[simp] theorem sfIssue_mem (fn : Nat) (k : IC) (s : State) : (sfIssue fn k s).state.mem = s.mem := by
  fun_cases sfIssue <;> simp

theorem execSpecialFunctionResult_wf {op : Nat} {s r : State} (hm : Memory.wf s.mem = true)
    (h : execSpecialFunctionResult op s = .next r) : Memory.wf r.mem = true := by
  revert h
  fun_cases execSpecialFunctionResult <;> rintro ⟨⟩ <;> simp [hm]

end Sys2Proof.Machine
end

section
/-! SUPPORT. The canonical form of memory under `Machine/System.lean`: what its functions leave of memory. -/

namespace Sys2Proof.Machine

@[simp] theorem syTrap_mem (k : IC) (s : State) : (syTrap k s).state.mem = s.mem := rfl

@[simp] theorem syBkpt_mem (k : IC) (s : State) : (syBkpt k s).state.mem = s.mem := by
  unfold syBkpt
  split <;> rfl

@[simp] theorem syTrec_mem (k : IC) (s : State) : (syTrec k s).state.mem = s.mem := rfl

/-- XGET and XSET change no byte of memory where the move of the symbol changes none. -/
theorem selThen_mem {k : IC} {s : State} {wr : Bool} {own : Sel → List Opnd} {move : Nat → Wave → Sel → Eff}
    (h : ∀ i w q, (move i w q).state.mem = s.mem) : (selThen k s wr own move).state.mem = s.mem := by
  fun_cases selThen
  case case11 => exact h ..
  all_goals rfl

@[simp] theorem syXget_mem (k : IC) (s : State) : (syXget k s).state.mem = s.mem :=
  selThen_mem fun _ _ _ => by split <;> rfl

@[simp] theorem syXset_mem (k : IC) (s : State) : (syXset k s).state.mem = s.mem :=
  selThen_mem fun _ _ _ => rfl

@[simp] theorem resumeIn_mem (k : IC) (s : State) (r : Resume) : (resumeIn k s r).state.mem = s.mem := by
  fun_cases resumeIn <;> simp

@[simp] theorem resumeTo_mem (k : IC) (s : State) (t : Int) : (resumeTo k s t).state.mem = s.mem := by
  have hj := jumpTo_mem s t
  unfold resumeTo
  split
  · rfl
  · split
    · rename_i e; rw [e] at hj; simpa using hj
    · exact hj

@[simp] theorem syRetry_mem (k : IC) (s : State) : (syRetry k s).state.mem = s.mem := by simp [syRetry]

@[simp] theorem sySkip_mem (k : IC) (s : State) : (sySkip k s).state.mem = s.mem := by
  unfold sySkip
  split <;> simp

@[simp] theorem syJmp_mem (k : IC) (s : State) : (syJmp k s).state.mem = s.mem := by simp [syJmp]

@[simp] theorem syRel_mem (k : IC) (s : State) : (syRel k s).state.mem = s.mem := by simp [syRel]

@[simp] theorem syGetsr_wf (k : IC) (s : State) (hm : Memory.wf s.mem = true) : Memory.wf (syGetsr k s).state.mem = true := by
  unfold syGetsr
  extract_lets n give
  have hg : ∀ t v, Memory.wf t.mem = true → Memory.wf (give t v).state.mem = true := by
    intro t v ht
    simp only [give]
    split <;> exact ht
  split
  · split <;> exact hm
  · split
    · exact receiveW_wf (by split <;> exact hm) hg
    · exact hg _ _ hm

@[simp] theorem sySetsr_mem (k : IC) (s : State) : (sySetsr k s).state.mem = s.mem := by
  unfold sySetsr
  dsimp only
  (repeat' split) <;> simp

@[simp] theorem syTime_wf (k : IC) (s : State) (hm : Memory.wf s.mem = true) : Memory.wf (syTime k s).state.mem = true := by
  fun_cases syTime
  · exact hm
  · exact receiveW_wf hm fun _ _ ht => ht

@[simp] theorem sySample_wf (k : IC) (s : State) (hm : Memory.wf s.mem = true) :
    Memory.wf (sySample k s).state.mem = true := by
  fun_cases sySample <;> simp [hm]

theorem putSignal_wf {s : State} {ctx : Nat} {ws : List W64} {r : State} (hm : Memory.wf s.mem = true)
    (e : putSignal s ctx ws = some r) : Memory.wf r.mem = true := by
  obtain ⟨p, hp, rfl⟩ := Option.map_eq_some_iff.1 e
  exact devWrite_wf hm hp

@[simp] theorem holdSignal_mem (k : IC) (s : State) : (holdSignal k s).mem = s.mem := rfl

@[simp] theorem syHostsig_wf (k : IC) (s : State) (hm : Memory.wf s.mem = true) : Memory.wf (syHostsig k s).state.mem = true := by
  unfold syHostsig
  dsimp only
  split
  · exact hm
  · refine release_wf hm fun t ht => ?_
    split
    · exact ht
    · split
      · rename_i e; exact putSignal_wf ht e
      · exact ht

theorem execHostsig_wf {w : IW} {s r : State} (hm : Memory.wf s.mem = true) (h : execHostsig w s = .next r) :
    Memory.wf r.mem = true :=
  issueWord_wf syHostsig_wf hm h

theorem execHostsigLong_wf {w : CW} {x : XW} {s r : State} (hm : Memory.wf s.mem = true) (h : execHostsigLong w x s = .next r) :
    Memory.wf r.mem = true :=
  issueWord_wf syHostsig_wf hm h

theorem execHostsigEnqueue_wf {op : Nat} {s r : State} (hm : Memory.wf s.mem = true) (h : execHostsigEnqueue op s = .next r) :
    Memory.wf r.mem = true := by
  revert h
  unfold execHostsigEnqueue
  split
  · rintro ⟨⟩; exact hm
  · split
    · split
      · rintro ⟨⟩; exact hm
      · dsimp only
        split
        · rintro ⟨⟩; exact hm
        · split
          · rintro ⟨⟩; exact hm
          · split
            · exact execHostsigLong_wf hm
            · exact execHostsig_wf hm
    · rintro ⟨⟩; exact hm

end Sys2Proof.Machine
end

section
/-! SUPPORT. The canonical form of memory under `Machine/Debug.lean`: what its functions leave of memory. -/

namespace Sys2Proof.Machine

@[simp] theorem modDbg_mem (s : State) (core : Nat) (f : Dbg → Dbg) : (modDbg s core f).mem = s.mem := rfl

@[simp] theorem dbgErr_mem (s : State) (core n : Nat) : (dbgErr s core n).mem = s.mem := rfl

@[simp] theorem takeDump_wf (s : State) (core ctx : Nat) (hm : Memory.wf s.mem = true) :
    Memory.wf (takeDump s core ctx).mem = true := hm

@[simp] theorem freshDumps_wf (s : State) (hm : Memory.wf s.mem = true) :
    Memory.wf (freshDumps s).mem = true := by
  unfold freshDumps
  refine foldl_wf _ (fun t a hm => ?_) _ hm
  split <;> simp [hm]

theorem execDebugStopEffect_wf {core : Nat} {s r : State} (hm : Memory.wf s.mem = true) (h : execDebugStopEffect core s = .next r) :
    Memory.wf r.mem = true := by
  revert h
  fun_cases execDebugStopEffect <;> rintro ⟨⟩
  all_goals exact hm

theorem execDebugDumpWritten_wf {core : Nat} {s r : State} (hm : Memory.wf s.mem = true)
    (h : execDebugDumpWritten core s = .next r) : Memory.wf r.mem = true := by
  revert h
  fun_cases execDebugDumpWritten <;> rintro ⟨⟩ <;> simp [hm, engineWrite_wf]

@[simp] theorem dbgResume_mem (s : State) (core ctx : Nat) : (dbgResume s core ctx).mem = s.mem := rfl

@[simp] theorem dbgStep_mem (s : State) (core : Nat) : (dbgStep s core).mem = s.mem := by
  unfold dbgStep
  split <;> rfl

@[simp] theorem dctlWrite_mem (s : State) (core : Nat) (who : Who) (v : Nat) : (dctlWrite s core who v).mem = s.mem := by
  unfold dctlWrite
  dsimp only
  (repeat' split) <;> simp

@[simp] theorem ddataRead_mem (s : State) (core : Nat) : (ddataRead s core).2.mem = s.mem := by
  unfold ddataRead
  split <;> rfl

@[simp] theorem setPc_mem (s : State) (wid : Nat) (w : Wave) (b : Block) (slotB : Bool) (off : Nat) :
    (setPc s wid w b slotB off).mem = s.mem := rfl

@[simp] theorem ddataWrite_mem (s : State) (core : Nat) (v : Nat) : (ddataWrite s core v).mem = s.mem := by
  fun_cases ddataWrite <;> rfl

@[simp] theorem dbgRead_mem (s : State) (core n : Nat) (who : Who) : (dbgRead s core n who).2.mem = s.mem := by
  fun_cases dbgRead <;> simp

@[simp] theorem dbgWrite_mem (s : State) (core n : Nat) (who : Who) (v : Nat) : (dbgWrite s core n who v).mem = s.mem := by
  fun_cases dbgWrite <;> simp

@[simp] theorem dbgGrant_mem (s : State) (c : Nat) : (dbgGrant s c).mem = s.mem := rfl

@[simp] theorem dbgRevoke_mem (s : State) (c : Nat) : (dbgRevoke s c).mem = s.mem := rfl

theorem execStop_wf {fn core : Nat} {s r : State} (hm : Memory.wf s.mem = true) (h : execStop fn core s = .next r) :
    Memory.wf r.mem = true := by
  cases h
  simp [hm]

theorem execResume_wf {fn core : Nat} {s r : State} (hm : Memory.wf s.mem = true) (h : execResume fn core s = .next r) :
    Memory.wf r.mem = true := by
  cases h
  simp [hm]

theorem execStep_wf {fn core : Nat} {s r : State} (hm : Memory.wf s.mem = true) (h : execStep fn core s = .next r) :
    Memory.wf r.mem = true := by
  cases h
  simp [hm]

theorem execDdataRead_wf {fn core : Nat} {s r : State} (hm : Memory.wf s.mem = true) (h : execDdataRead fn core s = .next r) :
    Memory.wf r.mem = true := by
  cases h
  simp [hm]

theorem execDdataWrite_wf {fn core : Nat} {v : W64} {s r : State} (hm : Memory.wf s.mem = true)
    (h : execDdataWrite fn core v s = .next r) : Memory.wf r.mem = true := by
  cases h
  simp [hm]

end Sys2Proof.Machine
end

section
/-! SUPPORT. The canonical form of memory under `Machine/Shares.lean`: what its functions leave of memory. -/

namespace Sys2Proof.Machine

@[simp] theorem shareDueOn_mem (s : State) (ks : List Nat) : (shareDueOn s ks).mem = s.mem := by
  unfold shareDueOn
  refine foldl_mem _ (fun _ _ => ?_) _ _
  rfl

end Sys2Proof.Machine
end

section
/-! SUPPORT. The canonical form of memory under `Machine/Waits.lean`: what its functions leave of memory. -/

namespace Sys2Proof.Machine

@[simp] theorem unarrive_mem (s : State) (blk wid : Nat) (x : Slot) (num : Nat) : (unarrive s blk wid x num).mem = s.mem := by
  fun_cases unarrive <;> simp

@[simp] theorem uncopy_mem (s : State) (blk wid k : Nat) : (uncopy s blk wid k).mem = s.mem := by
  unfold uncopy
  dsimp only
  (repeat' split) <;> simp

@[simp] theorem withdraw_mem (s : State) (blk wid : Nat) (slotB : Bool) (x : Slot) : (withdraw s blk wid slotB x).mem = s.mem := by
  unfold withdraw
  split <;> simp

@[simp] theorem parkTrap_wf (s : State) (wid : Nat) (slotB : Bool) (t : TrapInfo) (hm : Memory.wf s.mem = true) :
    Memory.wf (parkTrap s wid slotB t).mem = true := by
  unfold parkTrap
  dsimp only
  (repeat' split) <;> simp [hm]

@[simp] theorem pollAgain_mem (s : State) (wid : Nat) (w : Wave) (slotB : Bool) (m : MonReq) :
    (pollAgain s wid w slotB m).mem = s.mem := by
  fun_cases pollAgain <;> rfl

@[simp] theorem pollSlot_wf (s : State) (wid : Nat) (slotB : Bool) (hm : Memory.wf s.mem = true) :
    Memory.wf (pollSlot s wid slotB).mem = true := by
  unfold pollSlot
  dsimp only
  (repeat' split) <;> simp [hm, homeRead_wf]

theorem execWaitcRepoll_wf {wid : Nat} {s r : State} (hm : Memory.wf s.mem = true) (h : execWaitcRepoll wid s = .next r) :
    Memory.wf r.mem = true := by
  cases h
  simp [hm]

theorem execExternalWaitTimeout_wf {wid : Nat} {s r : State} (hm : Memory.wf s.mem = true)
    (h : execExternalWaitTimeout wid s = .next r) : Memory.wf r.mem = true := by
  revert h
  fun_cases execExternalWaitTimeout <;> rintro ⟨⟩ <;> simp [hm]

theorem execDeadlockWatchdogFire_wf {ctx : Nat} {s r : State} (hm : Memory.wf s.mem = true)
    (h : execDeadlockWatchdogFire ctx s = .next r) : Memory.wf r.mem = true := by
  revert h
  fun_cases execDeadlockWatchdogFire <;> rintro ⟨⟩
  · exact hm
  · rw [raiseIrq_mem, modCtx_mem]
    refine foldl_wf _ (fun t i ht => ?_) _ hm
    split <;> simp [ht]

@[simp] theorem pageAgain_mem (s : State) (wid : Nat) (slotB : Bool) (tag : Nat) : (pageAgain s wid slotB tag).mem = s.mem := rfl

@[simp] theorem pageTrap_wf (s : State) (wid : Nat) (slotB : Bool) (tag : Nat) (hm : Memory.wf s.mem = true) :
    Memory.wf (pageTrap s wid slotB tag).mem = true := by
  unfold pageTrap
  dsimp only
  (repeat' split) <;> simp [hm]

@[simp] theorem answerPage_wf (s : State) (ctx tag : Nat) (retry : Bool) (hm : Memory.wf s.mem = true) :
    Memory.wf (answerPage s ctx tag retry).mem = true := by
  unfold answerPage
  split
  · exact hm
  · refine foldl_wf _ (fun t j ht => ?_) _ hm
    split
    · exact ht
    · exact pageTrap_wf _ _ _ _ ht

theorem execPageRequestTimeout_wf {ctx tag : Nat} {s r : State} (hm : Memory.wf s.mem = true)
    (h : execPageRequestTimeout ctx tag s = .next r) : Memory.wf r.mem = true := by
  revert h
  fun_cases execPageRequestTimeout <;> rintro ⟨⟩ <;> simp [hm]

end Sys2Proof.Machine
end

section
/-! SUPPORT. The canonical form of memory under `Machine/Contexts.lean`: what its functions leave of memory. -/

namespace Sys2Proof.Machine

@[simp] theorem stopQueues_mem (s : State) (c : Nat) : (stopQueues s c).mem = s.mem := rfl

@[simp] theorem stopWaves_wf (s : State) (c : Nat) (hm : Memory.wf s.mem = true) : Memory.wf (stopWaves s c).mem = true := by
  refine foldl_wf _ (fun t e ht => ?_) _ (foldl_wf _ killWave_wf _ hm)
  split
  · exact ht
  · refine foldl_wf _ (fun u k hu => ?_) _ ht
    split
    · exact finishCopy_wf _ _ _ _ hu
    · exact hu

@[simp] theorem stopTickets_mem (s : State) (c : Nat) : (stopTickets s c).mem = s.mem := by
  refine foldl_mem _ (fun t g => foldl_mem _ (fun u e => ?_) _ t) _ s
  split <;> simp

@[simp] theorem stopEngines_mem (s : State) (c : Nat) : (stopEngines s c).mem = s.mem := rfl

@[simp] theorem dropXlat_mem (s : State) (c : Nat) : (dropXlat s c).mem = s.mem := rfl

@[simp] theorem ctxStop_wf (s : State) (c : Nat) (tear : Bool) (hm : Memory.wf s.mem = true) :
    Memory.wf (ctxStop s c tear).mem = true := by simp [ctxStop, hm]

@[simp] theorem completeAll_wf (s : State) (c status : Nat) (hm : Memory.wf s.mem = true) :
    Memory.wf (completeAll s c status).mem = true := by
  unfold completeAll
  refine foldl_wf _ (fun t a hm => ?_) _ hm
  simp [hm]

theorem execContextResetComplete_wf {ctx : Nat} {s r : State} (hm : Memory.wf s.mem = true)
    (h : execContextResetComplete ctx s = .next r) : Memory.wf r.mem = true := by
  revert h
  fun_cases execContextResetComplete <;> rintro ⟨⟩
  case case1 => exact hm
  all_goals simp +zetaDelta [hm]

@[simp] theorem writeWord0_wf (s : State) (c v : Nat) (hm : Memory.wf s.mem = true) :
    Memory.wf (writeWord0 s c v).mem = true := by
  unfold writeWord0
  dsimp only
  (repeat' split) <;> simp [hm]

@[simp] theorem preemptCtx_mem (s : State) (c : Nat) : (preemptCtx s c).mem = s.mem := rfl

@[simp] theorem ctxWrite_wf (s : State) (c n v : Nat) (hm : Memory.wf s.mem = true) : Memory.wf (ctxWrite s c n v).mem = true := by
  unfold ctxWrite
  dsimp only
  split
  · exact hm
  · split
    · (repeat' split) <;> simp [hm]
    · split
      · simp [hm]
      · split <;> simp [hm]
      · split <;> simp [hm]
      · split <;> simp [hm]

@[simp] theorem fnCtxWrite_wf (s : State) (fn c n v : Nat) (hm : Memory.wf s.mem = true) :
    Memory.wf (fnCtxWrite s fn c n v).mem = true := by
  unfold fnCtxWrite
  split <;> simp [hm]

theorem execContextEnable_wf {fn ctx : Nat} {v : W64} {s r : State} (hm : Memory.wf s.mem = true)
    (h : execContextEnable fn ctx v s = .next r) : Memory.wf r.mem = true := by
  cases h
  simp [hm]

theorem execContextTeardown_wf {fn ctx : Nat} {v : W64} {s r : State} (hm : Memory.wf s.mem = true)
    (h : execContextTeardown fn ctx v s = .next r) : Memory.wf r.mem = true := by
  cases h
  simp [hm]

theorem execFlr_wf {fn ctx : Nat} {v : W64} {s r : State} (hm : Memory.wf s.mem = true) (h : execFlr fn ctx v s = .next r) :
    Memory.wf r.mem = true := by
  cases h
  simp [hm]

theorem execDebugGrant_wf {fn ctx : Nat} {v : W64} {s r : State} (hm : Memory.wf s.mem = true)
    (h : execDebugGrant fn ctx v s = .next r) : Memory.wf r.mem = true := by
  cases h
  simp [hm]

theorem execDebugRevoke_wf {fn ctx : Nat} {v : W64} {s r : State} (hm : Memory.wf s.mem = true)
    (h : execDebugRevoke fn ctx v s = .next r) : Memory.wf r.mem = true := by
  cases h
  simp [hm]

theorem execPreempt_wf {fn ctx : Nat} {s r : State} (hm : Memory.wf s.mem = true) (h : execPreempt fn ctx s = .next r) :
    Memory.wf r.mem = true := by
  cases h
  simp [hm]

theorem execPageRequestRetry_wf {fn ctx tag : Nat} {s r : State} (hm : Memory.wf s.mem = true)
    (h : execPageRequestRetry fn ctx tag s = .next r) : Memory.wf r.mem = true := by
  cases h
  simp [hm]

theorem execPageRequestFail_wf {fn ctx tag : Nat} {s r : State} (hm : Memory.wf s.mem = true)
    (h : execPageRequestFail fn ctx tag s = .next r) : Memory.wf r.mem = true := by
  cases h
  simp [hm]

end Sys2Proof.Machine
end

section
/-! SUPPORT. The canonical form of memory under `Machine/Queues.lean`: what its functions leave of memory. -/

namespace Sys2Proof.Machine

@[simp] theorem stallQueue_mem (s : State) (c q st : Nat) : (stallQueue s c q st).mem = s.mem := rfl

@[simp] theorem ageLaunches_mem (s : State) (c q : Nat) : (ageLaunches s c q).mem = s.mem := rfl

@[simp] theorem enableQueue_mem (s : State) (c q : Nat) : (enableQueue s c q).mem = s.mem := by
  unfold enableQueue
  extract_lets s1 x
  split <;> simp [s1]

@[simp] theorem writeQctl_mem (s : State) (c q v : Nat) : (writeQctl s c q v).mem = s.mem := by
  unfold writeQctl
  dsimp only
  (repeat' split) <;> simp

@[simp] theorem ringDoor_mem (s : State) (c q v : Nat) : (ringDoor s c q v).mem = s.mem := by
  fun_cases ringDoor <;> rfl

@[simp] theorem queueWrite_mem (s : State) (c q n v : Nat) : (queueWrite s c q n v).mem = s.mem := by
  fun_cases queueWrite <;> simp

@[simp] theorem queueWrite32_mem (s : State) (c q n : Nat) (high : Bool) (v : Nat) : (queueWrite32 s c q n high v).mem = s.mem := by
  fun_cases queueWrite32 <;> simp

@[simp] theorem fnQueueWrite_mem (s : State) (fn c q n v : Nat) : (fnQueueWrite s fn c q n v).mem = s.mem := by
  unfold fnQueueWrite
  split <;> simp

theorem execQueueEnable_wf {fn ctx q : Nat} {v : W64} {s r : State} (hm : Memory.wf s.mem = true)
    (h : execQueueEnable fn ctx q v s = .next r) : Memory.wf r.mem = true := by
  cases h
  simp [hm]

theorem execQueueDisable_wf {fn ctx q : Nat} {v : W64} {s r : State} (hm : Memory.wf s.mem = true)
    (h : execQueueDisable fn ctx q v s = .next r) : Memory.wf r.mem = true := by
  cases h
  simp [hm]

theorem execQdoor_wf {fn ctx q : Nat} {v : W64} {s r : State} (hm : Memory.wf s.mem = true) (h : execQdoor fn ctx q v s = .next r) :
    Memory.wf r.mem = true := by
  cases h
  simp [hm]

@[simp] theorem dropRange_mem (s : State) (c va n : Nat) : (dropRange s c va n).mem = s.mem := rfl

@[simp] theorem retranslate_wf (s : State) (c va n : Nat) (hm : Memory.wf s.mem = true) :
    Memory.wf (retranslate s c va n).mem = true := hm

@[simp] theorem acceptPacket_wf (s : State) (c q : Nat) (p : List Nat) (hm : Memory.wf s.mem = true) :
    Memory.wf (acceptPacket s c q p).mem = true := by
  unfold acceptPacket
  dsimp only
  (repeat' split) <;> simp [hm]

/-- A packet's slot is read: no byte is written but by what an unexpected sequence leads to. -/
theorem readSlot_wf {s : State} {c q : Nat} {mismatch : State → State} (hm : Memory.wf s.mem = true)
    (hf : ∀ t, Memory.wf t.mem = true → Memory.wf (mismatch t).mem = true) : Memory.wf (readSlot s c q mismatch).mem = true := by
  unfold readSlot
  dsimp only
  split
  · simpa using hm
  · split
    · exact hf s hm
    · split
      · simpa using hm
      · split <;> simp [hm]

theorem execPacketRead_wf {ctx q : Nat} {s r : State} (hm : Memory.wf s.mem = true) (h : execPacketRead ctx q s = .next r) :
    Memory.wf r.mem = true := by
  revert h
  fun_cases execPacketRead <;> rintro ⟨⟩
  · exact hm
  · exact readSlot_wf hm (fun t ht => ht)

theorem execPacketReread_wf {ctx q : Nat} {s r : State} (hm : Memory.wf s.mem = true) (h : execPacketReread ctx q s = .next r) :
    Memory.wf r.mem = true := by
  revert h
  fun_cases execPacketReread <;> rintro ⟨⟩
  · exact hm
  · refine readSlot_wf hm (fun t ht => ?_)
    split <;> simp [ht]

@[simp] theorem offer_mem (s : State) (lid : Nat) (l : Launch) : (offer s lid l).mem = s.mem := rfl

theorem execLaunchReady_wf {lid : Nat} {s r : State} (hm : Memory.wf s.mem = true) (h : execLaunchReady lid s = .next r) :
    Memory.wf r.mem = true := by
  revert h
  fun_cases execLaunchReady <;> rintro ⟨⟩ <;> simp [hm]

theorem execTlbInvalidationComplete_wf {lid : Nat} {s r : State} (hm : Memory.wf s.mem = true)
    (h : execTlbInvalidationComplete lid s = .next r) : Memory.wf r.mem = true := by
  revert h
  fun_cases execTlbInvalidationComplete <;> rintro ⟨⟩ <;> simp [hm]

end Sys2Proof.Machine
end

section
/-! SUPPORT. The canonical form of memory under `Machine/Device.lean`: what its functions leave of memory. -/

namespace Sys2Proof.Machine

@[simp] theorem errPush_wf (s : State) (pa unit sev ctx : Nat) (hm : Memory.wf s.mem = true) :
    Memory.wf (errPush s pa unit sev ctx).mem = true := by
  fun_cases errPush <;> simp [hm, engineWrite_wf]

@[simp] theorem resetDevice_mem (s : State) : (resetDevice s).mem = s.mem := rfl

theorem execDeviceReset_wf {s r : State} (hm : Memory.wf s.mem = true) (h : execDeviceReset s = .next r) :
    Memory.wf r.mem = true := by
  cases h
  exact hm

theorem execPowerOn_wf {s r : State} (h : execPowerOn s = .next r) : Memory.wf r.mem = true := by
  cases h
  rfl

theorem execBootRomVerification_wf {_op : Unit} {s r : State} (hm : Memory.wf s.mem = true)
    (h : execBootRomVerification _op s = .next r) : Memory.wf r.mem = true := by
  unfold execBootRomVerification at h
  split at h <;> cases h <;> simp [hm]

theorem execFunctionLevelReset_wf {fn : Nat} {s r : State} (hm : Memory.wf s.mem = true)
    (h : execFunctionLevelReset fn s = .next r) : Memory.wf r.mem = true := by
  have h1 : Memory.wf ((resetCtxs s fn).foldl (fun s c => ctxStop s c false) s).mem = true :=
    foldl_wf _ (fun t c ht => by simp [ht]) _ hm
  cases h
  split <;> exact h1

@[simp] theorem dropPeer_mem (s : State) (gone : Nat → Bool) : (dropPeer s gone).mem = s.mem := rfl

@[simp] theorem writeDomain_mem (s : State) (v : Nat) : (writeDomain s v).mem = s.mem := by
  fun_cases writeDomain <;> rfl

@[simp] theorem writeMember_mem (s : State) (i v : Nat) : (writeMember s i v).mem = s.mem := rfl

theorem execPeerLoss_wf {dev : Nat} {s r : State} (hm : Memory.wf s.mem = true) (h : execPeerLoss dev s = .next r) :
    Memory.wf r.mem = true := by
  unfold execPeerLoss at h
  split at h <;> cases h <;> simp [hm]

theorem execFabricPortTrained_wf {port : Nat} {s r : State} (hm : Memory.wf s.mem = true)
    (h : execFabricPortTrained port s = .next r) : Memory.wf r.mem = true := by
  unfold execFabricPortTrained at h
  split at h <;> cases h <;> simp [hm]

theorem execFabricPortFails_wf {port : Nat} {s r : State} (hm : Memory.wf s.mem = true) (h : execFabricPortFails port s = .next r) :
    Memory.wf r.mem = true := by
  unfold execFabricPortFails at h
  split at h <;> cases h <;> simp [hm]

@[simp] theorem writeTime_mem (s : State) (v : Nat) : (writeTime s v).mem = s.mem := rfl

@[simp] theorem writeHostadj_mem (s : State) (v : W64) : (writeHostadj s v).mem = s.mem := by
  unfold writeHostadj
  split <;> rfl

theorem execPtpMessage_wf {x : PtpMsg} {s r : State} (hm : Memory.wf s.mem = true) (h : execPtpMessage x s = .next r) :
    Memory.wf r.mem = true := by
  unfold execPtpMessage at h
  split at h <;> cases h <;> simp [hm]

@[simp] theorem checkImage_wf (s : State) (hm : Memory.wf s.mem = true) :
    Memory.wf (checkImage s).mem = true := hm

@[simp] theorem writeFw_wf (s : State) (v : Nat) (hm : Memory.wf s.mem = true) :
    Memory.wf (writeFw s v).mem = true := by
  unfold writeFw
  dsimp only
  (repeat' split) <;> simp [hm]

@[simp] theorem writeAtt_wf (s : State) (v : Nat) (hm : Memory.wf s.mem = true) :
    Memory.wf (writeAtt s v).mem = true := by
  unfold writeAtt
  dsimp only
  (repeat' split) <;> simp [hm]

@[simp] theorem freshNext_mem (s : State) : (freshNext s).mem = s.mem := rfl

theorem execAttestationComplete_wf {s r : State} (hm : Memory.wf s.mem = true) (h : execAttestationComplete s = .next r) :
    Memory.wf r.mem = true := by
  revert h
  fun_cases execAttestationComplete <;> rintro ⟨⟩ <;> simp [hm, engineWrite_wf]

@[simp] theorem loadRoster_wf (s : State) (hm : Memory.wf s.mem = true) :
    Memory.wf (loadRoster s).mem = true := by
  fun_cases loadRoster <;> simp [hm]

@[simp] theorem writeRoster_wf (s : State) (v : Nat) (hm : Memory.wf s.mem = true) :
    Memory.wf (writeRoster s v).mem = true := by
  unfold writeRoster
  split <;> simp [hm]

theorem execAnnouncementReceive_wf {msg bset : List Byte} {s r : State} (hm : Memory.wf s.mem = true)
    (h : execAnnouncementReceive msg bset s = .next r) : Memory.wf r.mem = true := by
  revert h
  fun_cases execAnnouncementReceive <;> rintro ⟨⟩ <;> simp [hm]

theorem execBindingSetAnnounce_wf {image : Nat} {s r : State} (hm : Memory.wf s.mem = true)
    (h : execBindingSetAnnounce image s = .next r) : Memory.wf r.mem = true := by
  revert h
  fun_cases execBindingSetAnnounce <;> rintro ⟨⟩ <;> simp [hm]

@[simp] theorem dblkWrite_wf (s : State) (n v : Nat) (hm : Memory.wf s.mem = true) : Memory.wf (dblkWrite s n v).mem = true := by
  unfold dblkWrite
  split
  case h_1 => split <;> simp [hm]
  case h_10 => split <;> simp [hm]
  case h_20 => split <;> simp [hm]
  all_goals simp [hm]

@[simp] theorem fnDblkWrite_wf (s : State) (fn n v : Nat) (hm : Memory.wf s.mem = true) :
    Memory.wf (fnDblkWrite s fn n v).mem = true := by
  unfold fnDblkWrite
  split <;> simp [hm]

theorem execDreset_wf {fn : Nat} {s r : State} (hm : Memory.wf s.mem = true) (h : execDreset fn s = .next r) :
    Memory.wf r.mem = true := by
  cases h
  simp [hm]

theorem execDomainJoin_wf {fn : Nat} {v : W64} {s r : State} (hm : Memory.wf s.mem = true) (h : execDomainJoin fn v s = .next r) :
    Memory.wf r.mem = true := by
  unfold execDomainJoin at h
  split at h <;> cases h <;> simp [hm]

theorem execDomainLeave_wf {fn : Nat} {v : W64} {s r : State} (hm : Memory.wf s.mem = true) (h : execDomainLeave fn v s = .next r) :
    Memory.wf r.mem = true := by
  cases h
  simp [hm]

theorem execHostadj_wf {fn : Nat} {v : W64} {s r : State} (hm : Memory.wf s.mem = true) (h : execHostadj fn v s = .next r) :
    Memory.wf r.mem = true := by
  cases h
  simp [hm]

theorem execTimeSourceSelect_wf {fn : Nat} {v : W64} {s r : State} (hm : Memory.wf s.mem = true)
    (h : execTimeSourceSelect fn v s = .next r) : Memory.wf r.mem = true := by
  cases h
  simp [hm]

theorem execFwgo_wf {fn : Nat} {v : W64} {s r : State} (hm : Memory.wf s.mem = true) (h : execFwgo fn v s = .next r) :
    Memory.wf r.mem = true := by
  cases h
  simp [hm]

theorem execFwcommit_wf {fn : Nat} {v : W64} {s r : State} (hm : Memory.wf s.mem = true) (h : execFwcommit fn v s = .next r) :
    Memory.wf r.mem = true := by
  cases h
  simp [hm]

theorem execAgo_wf {fn : Nat} {v : W64} {s r : State} (hm : Memory.wf s.mem = true) (h : execAgo fn v s = .next r) :
    Memory.wf r.mem = true := by
  cases h
  simp [hm]

theorem execCgo_wf {fn : Nat} {v : W64} {s r : State} (hm : Memory.wf s.mem = true) (h : execCgo fn v s = .next r) :
    Memory.wf r.mem = true := by
  cases h
  simp [hm]

theorem execRload_wf {fn : Nat} {v : W64} {s r : State} (hm : Memory.wf s.mem = true) (h : execRload fn v s = .next r) :
    Memory.wf r.mem = true := by
  cases h
  simp [hm]

end Sys2Proof.Machine
end

section
/-! SUPPORT. The canonical form of memory under `Machine/Regs.lean`: what its functions leave of memory. -/

namespace Sys2Proof.Machine

@[simp] theorem writeWindow_mem (s : State) (e n v : Nat) : (writeWindow s e n v).mem = s.mem := by
  fun_cases writeWindow <;> rfl

@[simp] theorem writeEpCtl_mem (s : State) (e v : Nat) : (writeEpCtl s e v).mem = s.mem := by
  unfold writeEpCtl
  dsimp only
  (repeat' split) <;> simp

@[simp] theorem writeEpField_mem (s : State) (e n v : Nat) : (writeEpField s e n v).mem = s.mem := by
  unfold writeEpField
  dsimp only
  (repeat' split) <;> simp

@[simp] theorem epWrite_mem (s : State) (fn e n v : Nat) : (epWrite s fn e n v).mem = s.mem := by
  unfold epWrite
  dsimp only
  (repeat' split) <;> simp

@[simp] theorem regRead_mem (s : State) (who : Who) (id : RegId) : (regRead s who id).2.mem = s.mem := by
  fun_cases regRead <;> simp

@[simp] theorem regWrite_wf (s : State) (who : Who) (id : RegId) (v : Nat) (hm : Memory.wf s.mem = true) :
    Memory.wf (regWrite s who id v).mem = true := by
  unfold regWrite
  dsimp only
  split
  · simp [hm]
  · split
    · exact hm
    · cases id <;> dsimp only
      case ctx => split <;> simp [hm]
      case queue => split <;> simp [hm]
      case samp => split <;> simp [hm]
      case power => split <;> simp [hm]
      case slice => split <;> simp [hm]
      all_goals simp [hm]

@[simp] theorem regWrite32_mem (s : State) (who : Who) (pa v : Nat) : (regWrite32 s who pa v).mem = s.mem := by
  fun_cases regWrite32 <;> simp

@[simp] theorem regReadAt_mem (s : State) (who : Who) (pa n : Nat) : (regReadAt s who pa n).2.mem = s.mem := by
  fun_cases regReadAt <;> simp

@[simp] theorem regWriteAt_wf (s : State) (who : Who) (pa n v : Nat) (hm : Memory.wf s.mem = true) :
    Memory.wf (regWriteAt s who pa n v).mem = true := by
  fun_cases regWriteAt <;> simp [hm]

@[simp] theorem hostRegRead_mem (s : State) (fn pa n : Nat) : (hostRegRead s fn pa n).mem = s.mem := by
  unfold hostRegRead
  split <;> simp

theorem execRegisterWrite_wf {fn addr size : Nat} {v : W64} {s r : State} (hm : Memory.wf s.mem = true)
    (h : execRegisterWrite fn addr size v s = .next r) : Memory.wf r.mem = true := by
  unfold execRegisterWrite at h
  split at h <;> cases h <;> simp [hm]

theorem execStart_wf {fn ep : Nat} {v : W64} {s r : State} (hm : Memory.wf s.mem = true) (h : execStart fn ep v s = .next r) :
    Memory.wf r.mem = true := by
  cases h
  simp [hm]

theorem execReset_wf {fn ep : Nat} {v : W64} {s r : State} (hm : Memory.wf s.mem = true) (h : execReset fn ep v s = .next r) :
    Memory.wf r.mem = true := by
  cases h
  simp [hm]

theorem execWindowWrite_wf {fn ep word : Nat} {v : W64} {s r : State} (hm : Memory.wf s.mem = true)
    (h : execWindowWrite fn ep word v s = .next r) : Memory.wf r.mem = true := by
  unfold execWindowWrite at h
  split at h <;> cases h <;> simp [hm]

end Sys2Proof.Machine
end

section
/-! SUPPORT. The canonical form of memory under `Machine/MemEvents.lean`: what its functions leave of memory. -/

namespace Sys2Proof.Machine

theorem loadLane_wf {o : Op} {size order scope : Nat} {s : State} {a : LaneAcc} {r : List Byte × State × Bool}
    (hm : Memory.wf s.mem = true) (e : loadLane o size order scope s a = some r) : Memory.wf r.2.1.mem = true := by
  unfold loadLane at e
  dsimp only at e
  split at e
  · cases e
  · split at e
    · split at e
      · cases e; exact hm
      · cases e; simp [hm]
    · exact readFor_wf (s := reachOp s ..) hm e

theorem loadLanes_wf {o : Op} {size order scope : Nat} (lanes : List LaneAcc) :
    ∀ {s : State} {done : List (LaneAcc × List Byte × Bool)} {r : State × List (LaneAcc × List Byte × Bool)}, Memory.wf s.mem =
      true → loadLanes o size order scope lanes s done = some r → Memory.wf r.1.mem = true := by
  induction lanes with
  | nil =>
    rintro s done r hm ⟨⟩
    exact hm
  | cons a lanes ih =>
    intro s done r hm e
    unfold loadLanes at e
    split at e
    · cases e
    · rename_i hl
      exact ih (loadLane_wf hm hl) e

theorem laneReceive_wf {s : State} {o : Op} {va : Nat} {vals : List (Nat × Nat)} {r : State × List (Nat × Nat)}
    (hm : Memory.wf s.mem = true) (e : laneReceive s o va vals = some r) : Memory.wf r.1.mem = true := by
  obtain ⟨p, hp, rfl⟩ := Option.map_eq_some_iff.1 e
  exact receive_wf hm hp

@[simp] theorem loadDone_mem (s : State) (op : Nat) (o : Op) (size order scope : Nat) (sx : Bool) (d : Nat)
    (got : List (LaneAcc × List Byte × Bool)) : (loadDone s op o size order scope sx d got).mem = s.mem := by
  unfold loadDone
  dsimp only
  split <;> simp

@[simp] theorem loadPerform_wf (s : State) (op : Nat) (o : Op) (size order scope : Nat) (sx : Bool) (d : Nat) (lanes : List LaneAcc)
    (hm : Memory.wf s.mem = true) : Memory.wf (loadPerform s op o size order scope sx d lanes).mem = true := by
  unfold loadPerform
  split
  · simp [hm]
  · rename_i s1 got hl
    have h1 := loadLanes_wf lanes hm hl
    split
    · simpa using h1
    · split
      · exact replayFail_wf _ _ h1
      · rename_i hr
        simpa using laneReceive_wf h1 hr

@[simp] theorem valsDone_mem (s : State) (op : Nat) (o : Op) (blk : Nat) (vs : List (Nat × Nat × W32)) (ss : List (Nat × W64))
    (bs : List (Nat × Nat × Byte)) (pm : List PoisonMark) (bp : List (Nat × BufMark)) :
    (valsDone s op o blk vs ss bs pm bp).mem = s.mem := by simp [valsDone]

@[simp] theorem rdmReplay_wf (s : State) (op : Nat) (o : Op) (w : Wave) (dst : RdmDest) (size : Nat) (hm : Memory.wf s.mem = true) :
    Memory.wf (rdmReplay s op o w dst size).mem = true := by
  fun_cases rdmReplay
  case case1 => simp [hm]
  all_goals simpa using receive_wf hm ‹_›

theorem execLoadResult_wf {op : Nat} {s r : State} (hm : Memory.wf s.mem = true) (h : execLoadResult op s = .next r) :
    Memory.wf r.mem = true := by
  revert h
  fun_cases execLoadResult <;> rintro ⟨⟩ <;> simp [hm]

@[simp] theorem raiseT_mem (s : State) (wid t : Nat) (own : Bool) : (raiseT s wid t own).mem = s.mem := rfl

@[simp] theorem homeUpdate_wf (s : State) (pa size code y y2 : Nat) (hm : Memory.wf s.mem = true) :
    Memory.wf (homeUpdate s pa size code y y2).1.mem = true := by
  unfold homeUpdate
  dsimp only
  split <;> simp [hm, performBytes_wf, homeRead_wf]

@[simp] theorem atomLane_wf (s : State) (o : Op) (code size : Nat) (a : AtomLane) (hm : Memory.wf s.mem = true) :
    Memory.wf (atomLane s o code size a).1.mem = true := by simp [atomLane, hm]

@[simp] theorem atomDone_wf (s : State) (op : Nat) (o : Op) (size order scope d : Nat) (lanes : List AtomLane)
    (old : List (Nat × Nat)) (pm : List PoisonMark) (hm : Memory.wf s.mem = true) :
    Memory.wf (atomDone s op o size order scope d lanes old pm).mem = true := by
  unfold atomDone
  split
  · simp [hm]
  · rename_i hr
    dsimp only
    split <;> simpa using laneReceive_wf hm hr

theorem execAtomHomeUpdate_wf {op : Nat} {s r : State} (hm : Memory.wf s.mem = true) (h : execAtomHomeUpdate op s = .next r) :
    Memory.wf r.mem = true := by
  revert h
  fun_cases execAtomHomeUpdate <;> rintro ⟨⟩
  case case3 => simp [hm]
  case case5 => simp [hm, evictLine_wf]
  case case6 => simp +zetaDelta [hm]
  all_goals exact hm

@[simp] theorem hwPerform_wf (s : State) (h : HomeWrite) (hm : Memory.wf s.mem = true) :
    Memory.wf (hwPerform s h).1.mem = true := by
  unfold hwPerform
  split
  · simp [hm]
  · exact hm
  · split
    · simp [hm]
    · exact performBytes_wf _ _ (foldl_wf _ (fun t a ht => recallLine_wf t a ht) _ hm)

@[simp] theorem cleanAfter_wf (s : State) (h : HomeWrite) (hm : Memory.wf s.mem = true) :
    Memory.wf (cleanAfter s h).mem = true := by
  fun_cases cleanAfter <;> simp [hm, fillLine_wf]

@[simp] theorem coverDone_mem (s : State) (h : HomeWrite) : (coverDone s h).mem = s.mem := by
  unfold coverDone
  split <;> rfl

theorem execHomeWritePerform_wf {hw : Nat} {s r : State} (hm : Memory.wf s.mem = true) (h : execHomeWritePerform hw s = .next r) :
    Memory.wf r.mem = true := by
  revert h
  unfold execHomeWritePerform
  split
  · rintro ⟨⟩; exact hm
  · split
    · rintro ⟨⟩; exact hm
    · extract_lets p s1 s2
      have hp : Memory.wf p.1.mem = true := hwPerform_wf _ _ hm
      have h2 : Memory.wf s2.mem = true := by
        refine cleanAfter_wf _ _ ?_
        simpa [s1] using hp
      clear_value s2
      split
      · rintro ⟨⟩; exact h2
      · split <;> (rintro ⟨⟩; simpa using h2)

theorem execWriteCompletionTime_wf {op : Nat} {s r : State} (hm : Memory.wf s.mem = true)
    (h : execWriteCompletionTime op s = .next r) : Memory.wf r.mem = true := by
  revert h
  fun_cases execWriteCompletionTime <;> rintro ⟨⟩ <;> simp [hm]

theorem execL1LeaseExpiry_wf {cache line : Nat} {s r : State} (hm : Memory.wf s.mem = true)
    (h : execL1LeaseExpiry cache line s = .next r) : Memory.wf r.mem = true := by
  revert h
  fun_cases execL1LeaseExpiry <;> rintro ⟨⟩
  · split <;> exact hm
  · exact hm

theorem execL1Eviction_wf {cache line : Nat} {s r : State} (hm : Memory.wf s.mem = true)
    (h : execL1Eviction cache line s = .next r) : Memory.wf r.mem = true := by
  cases h
  simp [hm, evictLine_wf]

theorem execTranslationWalkComplete_wf {walk : Nat} {s r : State} (hm : Memory.wf s.mem = true)
    (h : execTranslationWalkComplete walk s = .next r) : Memory.wf r.mem = true := by
  revert h
  fun_cases execTranslationWalkComplete <;> rintro ⟨⟩
  case case2 =>
    simp +zetaDelta only
    split <;> simp [hm]
  all_goals exact hm

end Sys2Proof.Machine
end

section
/-! SUPPORT. The canonical form of memory under `Machine/TicketEvents.lean`: what its functions leave of memory. -/

namespace Sys2Proof.Machine

@[simp] theorem lineRead_wf (s : State) (slice idx line : Nat) (e : Ticket) (pa n : Nat) (hm : Memory.wf s.mem = true) :
    Memory.wf (lineRead s slice idx line e pa n).mem = true := by simp [lineRead, hm, homeRead_wf]

theorem execLdtLineRead_wf {slice idx line : Nat} {s r : State} (hm : Memory.wf s.mem = true)
    (h : execLdtLineRead slice idx line s = .next r) : Memory.wf r.mem = true := by
  revert h
  fun_cases execLdtLineRead <;> rintro ⟨⟩ <;> simp [hm, evictLine_wf]

@[simp] theorem scalarDone_wf (s : State) (op : Nat) (o : Op) (d : Nat) (v : W64) (hm : Memory.wf s.mem = true) :
    Memory.wf (scalarDone s op o d v).mem = true := by
  fun_cases scalarDone
  case case2 => simpa using receive_wf hm ‹_›
  all_goals simp [hm]

theorem execLdtTicketWritten_wf {op idx : Nat} {s r : State} (hm : Memory.wf s.mem = true)
    (h : execLdtTicketWritten op idx s = .next r) : Memory.wf r.mem = true := by
  revert h
  fun_cases execLdtTicketWritten <;> rintro ⟨⟩ <;> simp [hm]

@[simp] theorem deliverWave_wf (s : State) (g i : Nat) (e : Ticket) (op : Nat) (hm : Memory.wf s.mem = true) :
    Memory.wf (deliverWave s g i e op).mem = true := by
  unfold deliverWave
  dsimp only
  (repeat' split) <;> simp [hm]

@[simp] theorem deliverPort_mem (s : State) (g i : Nat) (e : Ticket) (ep : Nat) : (deliverPort s g i e ep).mem = s.mem := rfl

theorem execTicketFetchComplete_wf {slice idx : Nat} {s r : State} (hm : Memory.wf s.mem = true)
    (h : execTicketFetchComplete slice idx s = .next r) : Memory.wf r.mem = true := by
  revert h
  fun_cases execTicketFetchComplete <;> rintro ⟨⟩ <;> simp [hm]

theorem execTicketStateReturn_wf {op : Nat} {s r : State} (hm : Memory.wf s.mem = true) (h : execTicketStateReturn op s = .next r) :
    Memory.wf r.mem = true := by
  revert h
  fun_cases execTicketStateReturn <;> rintro ⟨⟩ <;> simp [hm]

@[simp] theorem pollDone_wf (s : State) (op : Nat) (hm : Memory.wf s.mem = true) :
    Memory.wf (pollDone s op).mem = true := by
  fun_cases pollDone <;> simp [hm]

theorem execTicketLeaseEnd_wf {slice idx : Nat} {s r : State} (hm : Memory.wf s.mem = true)
    (h : execTicketLeaseEnd slice idx s = .next r) : Memory.wf r.mem = true := by
  revert h
  fun_cases execTicketLeaseEnd <;> rintro ⟨⟩ <;> simp [hm]

end Sys2Proof.Machine
end

section
/-! SUPPORT. The canonical form of memory under `Machine/Camp.lean`: what its functions leave of memory. -/

namespace Sys2Proof.Machine

@[simp] theorem hartAcquire_mem (s : State) (e : Nat) : (hartAcquire s e).mem = s.mem := rfl

@[simp] theorem hartSaw_mem (s : State) (e v : Nat) : (hartSaw s e v).mem = s.mem := rfl

@[simp] theorem apop_mem (s : State) (e : Nat) : (apop s e).2.mem = s.mem := by
  unfold apop
  split <;> rfl

@[simp] theorem osend_mem (s : State) (e : Nat) : (osend s e).2.mem = s.mem := by
  fun_cases osend <;> rfl

theorem execApop_wf {ep : Nat} {s r : State} (hm : Memory.wf s.mem = true) (h : execApop ep s = .next r) :
    Memory.wf r.mem = true := by
  unfold execApop at h
  split at h <;> cases h <;> simp [hm]

theorem execOsend_wf {ep : Nat} {s r : State} (hm : Memory.wf s.mem = true) (h : execOsend ep s = .next r) :
    Memory.wf r.mem = true := by
  unfold execOsend at h
  split at h <;> cases h <;> simp [hm]

theorem execEpisodeWatchdogFire_wf {ep : Nat} {s r : State} (hm : Memory.wf s.mem = true)
    (h : execEpisodeWatchdogFire ep s = .next r) : Memory.wf r.mem = true := by
  revert h
  fun_cases execEpisodeWatchdogFire <;> rintro ⟨⟩ <;> simp [hm]

theorem execTimeoutObservationEnqueue_wf {ep : Nat} {s r : State} (hm : Memory.wf s.mem = true)
    (h : execTimeoutObservationEnqueue ep s = .next r) : Memory.wf r.mem = true := by
  revert h
  fun_cases execTimeoutObservationEnqueue <;> rintro ⟨⟩ <;> simp [hm]

@[simp] theorem tkval_mem (s : State) (e : Nat) (t : W64) : (tkval s e t).mem = s.mem := by
  fun_cases tkval <;> rfl

theorem execTkval_wf {ep : Nat} {v : W64} {s r : State} (hm : Memory.wf s.mem = true) (h : execTkval ep v s = .next r) :
    Memory.wf r.mem = true := by
  unfold execTkval at h
  split at h <;> cases h <;> simp [hm]

@[simp] theorem redeemWrite_wf (s : State) (r : Redeem) (data : List Byte) (hm : Memory.wf s.mem = true) :
    Memory.wf (redeemWrite s r data).1.mem = true := by simp [redeemWrite, hm, engineWrite_wf]

@[simp] theorem redeemOver_mem (s : State) (e : Nat) (r : Redeem) (rest : List Redeem) : (redeemOver s e r rest).mem = s.mem := by
  unfold redeemOver
  dsimp only
  (repeat' split) <;> simp

theorem execPortRedeemComplete_wf {ep : Nat} {s r : State} (hm : Memory.wf s.mem = true)
    (h : execPortRedeemComplete ep s = .next r) : Memory.wf r.mem = true := by
  revert h
  fun_cases execPortRedeemComplete <;> rintro ⟨⟩
  · exact hm
  · exact hm
  · exact redeemWrite_wf _ _ _ hm
  · split
    · simp [hm]
    · exact hm

theorem pageRead_mem {s : State} {e off n : Nat} {r : Nat × State} (h : pageRead s e off n = some r) : r.2.mem = s.mem := by
  unfold pageRead at h
  dsimp only at h
  split at h
  · cases h; rfl
  · split at h
    · cases h; rfl
    · split at h
      · cases h
      · split at h
        case h_8 =>
          cases h
          dsimp only
          split <;> simp
        case h_2 => cases h; simp
        case h_4 => cases h; simp
        case h_9 => cases h
        all_goals cases h; rfl

theorem pageWrite_mem {s : State} {e off n v : Nat} {r : State} (e : pageWrite s e off n v = some r) :
    r.mem = s.mem := by
  revert e
  fun_cases pageWrite <;> rintro ⟨⟩ <;> simp

end Sys2Proof.Machine
end

section
/-! SUPPORT. The canonical form of memory under `Machine/Sched.lean`: what its functions leave of memory. -/

namespace Sys2Proof.Machine

@[simp] theorem leaveSets_mem (s : State) (wid core : Nat) : (leaveSets s wid core).mem = s.mem := rfl

@[simp] theorem retireWave_wf (s : State) (wid : Nat) (w : Wave) (b : Block) (hm : Memory.wf s.mem = true) :
    Memory.wf (retireWave s wid w b).mem = true := by
  have h1 : Memory.wf ((latchOf s (ropeOfCore b.core) b.grp (blockSlot b) w.idx).foldl
      (fun s k => latchBreak s (ropeOfCore b.core) k 4) s).mem = true :=
    foldl_wf _ (fun t a ht => by simp [ht]) _ hm
  refine finishLaunch_wf _ _ ?_
  simpa using leaveBars_wf _ _ _ h1

theorem execWaveRetire_wf {wid : Nat} {s r : State} (hm : Memory.wf s.mem = true) (h : execWaveRetire wid s = .next r) :
    Memory.wf r.mem = true := by
  revert h
  fun_cases execWaveRetire <;> rintro ⟨⟩ <;> simp [hm]

@[simp] theorem startHandler_mem (s : State) (core pid : Nat) (w : Wave) (b : Block) (t : Trap) (v : Variant) :
    (startHandler s core pid w b t v).mem = s.mem := rfl

theorem execHandlerStart_wf {core : Nat} {s r : State} (hm : Memory.wf s.mem = true) (h : execHandlerStart core s = .next r) :
    Memory.wf r.mem = true := by
  revert h
  fun_cases execHandlerStart <;> rintro ⟨⟩ <;> simp [hm]

theorem execActiveSetSwap_wf {core out inn : Nat} {s r : State} (hm : Memory.wf s.mem = true)
    (h : execActiveSetSwap core out inn s = .next r) : Memory.wf r.mem = true := by
  revert h
  fun_cases execActiveSetSwap <;> rintro ⟨⟩ <;> simp [hm]

theorem execInterruptSend_wf {irq : Nat} {s r : State} (hm : Memory.wf s.mem = true) (h : execInterruptSend irq s = .next r) :
    Memory.wf r.mem = true := by
  revert h
  fun_cases execInterruptSend <;> rintro ⟨⟩ <;> simp [hm]

end Sys2Proof.Machine
end

section
/-! SUPPORT. The canonical form of memory under `Machine/Bind.lean`: what its functions leave of memory. -/

namespace Sys2Proof.Machine

@[simp] theorem clearQuad_mem (rope ctx : Nat) (s : State) (p : Nat) : (clearQuad rope ctx s p).mem = s.mem := by
  unfold clearQuad
  dsimp only
  split <;> simp

@[simp] theorem putContents_wf (s : State) (rope ctx p : Nat) (t : Tbl W32) (hm : Memory.wf s.mem = true) :
    Memory.wf (putContents s rope ctx p t).mem = true := by
  fun_cases putContents <;> simp [hm, engineWrite_wf]

@[simp] theorem moveSymbols_mem (s : State) (b : Block) : (moveSymbols s b).mem = s.mem := by
  unfold moveSymbols
  refine foldl_mem _ (fun _ _ => ?_) _ _
  rfl

@[simp] theorem shareSlot_mem (s : State) (wid : Nat) (scalar : Bool) (num wid2 num2 : Nat) :
    (shareSlot s wid scalar num wid2 num2).mem = s.mem := by
  fun_cases shareSlot <;> rfl

@[simp] theorem drainCache_wf (s : State) (cid : Nat) (hm : Memory.wf s.mem = true) :
    Memory.wf (drainCache s cid).mem = true := by
  unfold drainCache
  refine foldl_wf _ (fun t a hm => ?_) _ hm
  split <;> simp [hm, recallLine_wf]

@[simp] theorem leaveCore_wf (s0 : State) (blk : Nat) (b : Block) (how : Residence) (hm : Memory.wf s0.mem = true) :
    Memory.wf (leaveCore s0 blk b how).mem = true := by
  have h1 : Memory.wf ((cachesOf s0 b.core).foldl drainCache s0).mem = true :=
    foldl_wf _ (fun t a ht => drainCache_wf t a ht) _ hm
  have h2 : ∀ t : State, (b.waves.foldl (fun s i => leaveSets s i b.core) t).mem = t.mem :=
    fun t => foldl_mem _ (fun t i => leaveSets_mem ..) _ t
  simpa [leaveCore, h2] using h1

@[simp] theorem saveQuads_wf (s : State) (gid : Nat) (g : Group) (hm : Memory.wf s.mem = true) :
    Memory.wf (saveQuads s gid g).mem = true := by
  unfold saveQuads
  refine foldl_wf _ (fun t a hm => ?_) _ hm
  simp [hm]

@[simp] theorem loadQuads_wf (s : State) (rope blk : Nat) (hm : Memory.wf s.mem = true) :
    Memory.wf (loadQuads s rope blk).mem = true := by
  unfold loadQuads
  split
  · exact hm
  · rw [modBlock_mem]
    exact foldl_wf _ (fun t p ht => putContents_wf _ _ _ _ _ ht) _ hm

@[simp] theorem returnQuads_wf (s : State) (gid : Nat) (g : Group) (rope : Nat) (m : Meta) (hm : Memory.wf s.mem = true) :
    Memory.wf (returnQuads s gid g rope m).mem = true := by
  unfold returnQuads
  split
  · exact hm
  · extract_lets qs s1 s2
    have h1 : s1.mem = s.mem := (modGroup_mem ..).trans (foldl_mem _ (fun t p => clearQuad_mem ..) _ _)
    have h2 : s2.mem = s1.mem := foldl_mem _ (fun t e => modBlock_mem ..) _ _
    exact foldl_wf _ (fun t k ht => loadQuads_wf _ _ _ ht) _ (by rw [h2, h1]; exact hm)

@[simp] theorem enterSets_mem (s : State) (core : Nat) (ws : List Nat) : (enterSets s core ws).mem = s.mem := by
  unfold enterSets
  refine foldl_mem _ (fun _ _ => ?_) _ _
  rfl

@[simp] theorem dropICache_mem (s : State) (core : Nat) : (dropICache s core).mem = s.mem := rfl

@[simp] theorem setMode_wf (s : State) (rope : Nat) (fuse : Bool) (hm : Memory.wf s.mem = true) :
    Memory.wf (setMode s rope fuse).mem = true := by
  unfold setMode
  split
  · exact hm
  · have h1 : Memory.wf (((upto 4).map (fun i => 4 * rope + i)).foldl drainCache s).mem = true :=
      foldl_wf _ (fun t a ht => drainCache_wf t a ht) _ hm
    simpa using h1

end Sys2Proof.Machine
end

section
/-! SUPPORT. The canonical form of memory under `Machine/Harness.lean`: what its functions leave of memory. -/

namespace Sys2Proof.Machine

theorem execShareRecompute_wf {core : Nat} {s r : State} (hm : Memory.wf s.mem = true) (h : execShareRecompute core s = .next r) :
    Memory.wf r.mem = true := by
  unfold execShareRecompute at h
  split at h <;> cases h <;> simp [hm]

@[simp] theorem rebindUp_mem (s : State) (blk : Nat) : (rebindUp s blk).mem = s.mem := by
  fun_cases rebindUp <;> rfl

theorem execRebindMove_wf {blk : Nat} {s r : State} (hm : Memory.wf s.mem = true) (h : execRebindMove blk s = .next r) :
    Memory.wf r.mem = true := by
  revert h
  fun_cases execRebindMove <;> rintro ⟨⟩ <;> simp [hm]

@[simp] theorem sliceStarts_mem (s : State) (gid : Nat) : (sliceStarts s gid).mem = s.mem := by
  unfold sliceStarts
  split <;> rfl

@[simp] theorem hadSlice_mem (s : State) (gid : Nat) (preempt : Bool) : (hadSlice s gid preempt).mem = s.mem := by
  unfold hadSlice
  split <;> rfl

theorem execBlockSwapOut_wf {blk : Nat} {s r : State} (hm : Memory.wf s.mem = true) (h : execBlockSwapOut blk s = .next r) :
    Memory.wf r.mem = true := by
  revert h
  unfold execBlockSwapOut
  split
  · rintro ⟨⟩; exact hm
  · split
    · rintro ⟨⟩; exact hm
    · extract_lets s1
      have h1 : Memory.wf s1.mem = true := by simp [s1, hm]
      clear_value s1
      split
      · rintro ⟨⟩; exact h1
      · rintro ⟨⟩
        split
        · exact h1
        · exact saveQuads_wf _ _ _ h1

theorem execBlockPreempt_wf {blk : Nat} {s r : State} (hm : Memory.wf s.mem = true) (h : execBlockPreempt blk s = .next r) :
    Memory.wf r.mem = true := by
  revert h
  fun_cases execBlockPreempt <;> rintro ⟨⟩ <;> simp [hm]

theorem execTimeSliceExpiry_wf {grp : Nat} {s r : State} (hm : Memory.wf s.mem = true) (h : execTimeSliceExpiry grp s = .next r) :
    Memory.wf r.mem = true := by
  revert h
  fun_cases execTimeSliceExpiry <;> rintro ⟨⟩
  case case4 => exact foldl_wf _ (fun t k ht => (congrArg Memory.wf (modBlock_mem ..)).trans ht) _ hm
  all_goals exact hm

@[simp] theorem freshCore_mem (s : State) (core : Nat) : (freshCore s core).mem = s.mem := by simp [freshCore]

@[simp] theorem enterBlock_wf (s : State) (blk : Nat) (b : Block) (g : Group) (core v : Nat) (area : Nat × Nat)
    (hm : Memory.wf s.mem = true) : Memory.wf (enterBlock s blk b g core v area).mem = true := by simp [enterBlock, hm]

theorem execBlockSwapIn_wf {blk core : Nat} {s r : State} (hm : Memory.wf s.mem = true) (h : execBlockSwapIn blk core s = .next r) :
    Memory.wf r.mem = true := by
  revert h
  fun_cases execBlockSwapIn <;> rintro ⟨⟩ <;> simp [hm]

@[simp] theorem addBlock_mem (gid lid : Nat) (l : Launch) (v : Variant) (quads : List Nat) (areas : List (Nat × Nat)) (s : State)
    (e : (Nat × Nat × Nat) × Nat) : (addBlock gid lid l v quads areas s e).mem = s.mem := by
  unfold addBlock
  extract_lets bid wids b s1 s2
  have h2 : s2.mem = s1.mem := foldl_mem _ (fun t w => setWave_mem ..) _ _
  simpa using h2

@[simp] theorem placeGroup_wf (s : State) (lid : Nat) (l : Launch) (v : Variant) (rope : Nat) (places : List (Nat × Nat × Nat))
    (hm : Memory.wf s.mem = true) : Memory.wf (placeGroup s lid l v rope places).mem = true := by
  unfold placeGroup
  extract_lets gid num here quads s1 g areas s2 s3 s4
  have h1 : s1.mem = (setMode s rope l.fuse).mem := foldl_mem _ (fun t p => clearQuad_mem ..) _ _
  have h2 : s2.mem = s1.mem := foldl_mem _ (fun t e => addBlock_mem ..) _ _
  have h3 : s3.mem = s2.mem := modLaunch_mem ..
  have h4 : s4.mem = s3.mem := by
    simp only [s4]
    split <;> rfl
  simp [h4, h3, h2, h1, hm]

@[simp] theorem wantCores_mem (s : State) (lid rope : Nat) (cores : List Nat) : (wantCores s lid rope cores).mem = s.mem := by
  simpa [wantCores] using foldl_mem _ (fun t c => modCore_mem ..) cores s

theorem execRopeGroupPlacement_wf {lid rope : Nat} {cores : List Nat} {s r : State} (hm : Memory.wf s.mem = true)
    (h : execRopeGroupPlacement lid rope cores s = .next r) : Memory.wf r.mem = true := by
  revert h
  fun_cases execRopeGroupPlacement <;> rintro ⟨⟩ <;> simp [hm]

end Sys2Proof.Machine
end

section
/-! SUPPORT. The canonical form of memory under `Machine/HartMem.lean`: what its functions leave of memory. -/

namespace Sys2Proof.Machine

@[simp] theorem modHart_mem (s : State) (e : Nat) (f : Hart → Hart) : (modHart s e f).mem = s.mem := rfl

@[simp] theorem rvPutX_mem (s : State) (e rd : Nat) (v : W64) : (rvPutX s e rd v).mem = s.mem := by
  unfold rvPutX
  split <;> rfl

@[simp] theorem rvPutF_mem (s : State) (e rd : Nat) (v : W64) : (rvPutF s e rd v).mem = s.mem := rfl

@[simp] theorem rvAccrue_mem (s : State) (e fl : Nat) : (rvAccrue s e fl).mem = s.mem := by
  unfold rvAccrue
  split <;> rfl

@[simp] theorem rvTrap_mem (s : State) (e : Nat) (int : Bool) (cause : Nat) (tval : W64) :
    (rvTrap s e int cause tval).mem = s.mem := rfl

@[simp] theorem rvWrote_mem (s : State) (e t : Nat) : (rvWrote s e t).mem = s.mem := rfl

@[simp] theorem rvCsrWrite_mem (s : State) (e n v : Nat) : (rvCsrWrite s e n v).mem = s.mem := rfl

end Sys2Proof.Machine
end

section
/-! SUPPORT. The canonical form of memory under `Machine/RvVec.lean`: what its functions leave of memory. -/

namespace Sys2Proof.Machine

@[simp] theorem rvVElemsFrom_mem (s : State) (e vd w d8 : Nat) (c : RvVCfg) (vm : Bool) (keep : Nat) (f : Nat → Nat) :
    (rvVElemsFrom s e vd w d8 c vm keep f).mem = s.mem := by
  unfold rvVElemsFrom
  split <;> rfl

@[simp] theorem rvVElems_mem (s : State) (e vd w d8 : Nat) (c : RvVCfg) (vm : Bool) (f : Nat → Nat) :
    (rvVElems s e vd w d8 c vm f).mem = s.mem := by simp [rvVElems]

@[simp] theorem rvVBits_mem (s : State) (e vd : Nat) (c : RvVCfg) (vm : Bool) (f : Nat → Bool) :
    (rvVBits s e vd c vm f).mem = s.mem := by simp [rvVBits]

@[simp] theorem rvVScalar_mem (s : State) (e vd w : Nat) (c : RvVCfg) (v : Nat) :
    (rvVScalar s e vd w c v).mem = s.mem := by simp [rvVScalar]

@[simp] theorem rvVEnd_mem (s : State) (e : Nat) : (rvVEnd s e).mem = s.mem := rfl

@[simp] theorem rvVSat_mem (s : State) (e : Nat) (b : Bool) : (rvVSat s e b).mem = s.mem := by
  unfold rvVSat
  split <;> rfl

@[simp] theorem rvVCsrWrite_mem (s : State) (e n v : Nat) : (rvVCsrWrite s e n v).mem = s.mem := rfl

end Sys2Proof.Machine
end

section
/-! SUPPORT. The canonical form of memory under `Machine/RvVecInt.lean`: what its functions leave of memory. -/

namespace Sys2Proof.Machine

theorem rvVOpiI_mem {s : State} {e : Nat} {c : RvVCfg} {i : RvI} {r : State} (h : rvVOpiI s e c i = some r) :
    r.mem = s.mem := by
  revert h
  fun_cases rvVOpiI <;> rintro ⟨⟩
  simp

theorem rvVCarryI_mem {s : State} {e : Nat} {c : RvVCfg} {i : RvI} {r : State} (h : rvVCarryI s e c i = some r) :
    r.mem = s.mem := by
  revert h
  fun_cases rvVCarryI <;> rintro ⟨⟩
  simp

theorem rvVCarryOutI_mem {s : State} {e : Nat} {c : RvVCfg} {i : RvI} {r : State} (h : rvVCarryOutI s e c i = some r) :
    r.mem = s.mem := by
  revert h
  fun_cases rvVCarryOutI <;> rintro ⟨⟩
  simp

theorem rvVCmpI_mem {s : State} {e : Nat} {c : RvVCfg} {i : RvI} {r : State} (h : rvVCmpI s e c i = some r) :
    r.mem = s.mem := by
  revert h
  fun_cases rvVCmpI <;> rintro ⟨⟩
  simp

theorem rvVMergeI_mem {s : State} {e : Nat} {c : RvVCfg} {i : RvI} {r : State} (h : rvVMergeI s e c i = some r) :
    r.mem = s.mem := by
  revert h
  fun_cases rvVMergeI <;> rintro ⟨⟩
  simp

theorem rvVNarrowI_mem {s : State} {e : Nat} {c : RvVCfg} {i : RvI} {r : State} (h : rvVNarrowI s e c i = some r) :
    r.mem = s.mem := by
  revert h
  fun_cases rvVNarrowI <;> rintro ⟨⟩
  simp

theorem rvVOpmI_mem {s : State} {e : Nat} {c : RvVCfg} {i : RvI} {r : State} (h : rvVOpmI s e c i = some r) :
    r.mem = s.mem := by
  revert h
  fun_cases rvVOpmI <;> rintro ⟨⟩
  simp

theorem rvVWideI_mem {s : State} {e : Nat} {c : RvVCfg} {i : RvI} {r : State} (h : rvVWideI s e c i = some r) :
    r.mem = s.mem := by
  revert h
  fun_cases rvVWideI <;> rintro ⟨⟩
  simp

theorem rvVRedI_mem {s : State} {e : Nat} {c : RvVCfg} {i : RvI} {wide : Bool} {r : State} (h : rvVRedI s e c i wide = some r) :
    r.mem = s.mem := by
  revert h
  fun_cases rvVRedI <;> rintro ⟨⟩
  simp

theorem rvVExtI_mem {s : State} {e : Nat} {c : RvVCfg} {i : RvI} {r : State} (h : rvVExtI s e c i = some r) :
    r.mem = s.mem := by
  revert h
  fun_cases rvVExtI <;> rintro ⟨⟩
  simp

theorem rvVLogicI_mem {s : State} {e : Nat} {c : RvVCfg} {i : RvI} {r : State} (h : rvVLogicI s e c i = some r) :
    r.mem = s.mem := by
  revert h
  fun_cases rvVLogicI <;> rintro ⟨⟩
  simp

theorem rvVMaskUnI_mem {s : State} {e : Nat} {c : RvVCfg} {i : RvI} {r : State} (h : rvVMaskUnI s e c i = some r) :
    r.mem = s.mem := by
  revert h
  fun_cases rvVMaskUnI <;> rintro ⟨⟩ <;> simp

theorem rvVToX_mem {s : State} {e : Nat} {c : RvVCfg} {i : RvI} {r : State} (h : rvVToX s e c i = some r) :
    r.mem = s.mem := by
  revert h
  fun_cases rvVToX <;> rintro ⟨⟩ <;> simp

theorem rvVFromX_mem {s : State} {e : Nat} {c : RvVCfg} {i : RvI} {r : State} (h : rvVFromX s e c i = some r) :
    r.mem = s.mem := by
  revert h
  fun_cases rvVFromX <;> rintro ⟨⟩
  simp

theorem rvVGatherI_mem {s : State} {e : Nat} {c : RvVCfg} {i : RvI} {r : State} (h : rvVGatherI s e c i = some r) :
    r.mem = s.mem := by
  revert h
  fun_cases rvVGatherI <;> rintro ⟨⟩
  simp

theorem rvVSlideI_mem {s : State} {e : Nat} {c : RvVCfg} {i : RvI} {r : State} (h : rvVSlideI s e c i = some r) :
    r.mem = s.mem := by
  revert h
  fun_cases rvVSlideI <;> rintro ⟨⟩ <;> simp

theorem rvVSlide1_mem {s : State} {e : Nat} {c : RvVCfg} {i : RvI} {v : Nat} {r : State} (h : rvVSlide1 s e c i v = some r) :
    r.mem = s.mem := by
  revert h
  fun_cases rvVSlide1 <;> rintro ⟨⟩ <;> simp

theorem rvVCompressI_mem {s : State} {e : Nat} {c : RvVCfg} {i : RvI} {r : State} (h : rvVCompressI s e c i = some r) :
    r.mem = s.mem := by
  revert h
  fun_cases rvVCompressI <;> rintro ⟨⟩
  simp

theorem rvVMoveWhole_mem {s : State} {e : Nat} {c : RvVCfg} {i : RvI} {r : State} (h : rvVMoveWhole s e c i = some r) :
    r.mem = s.mem := by
  revert h
  fun_cases rvVMoveWhole <;> rintro ⟨⟩
  simp

theorem rvVOpiRun_mem {s : State} {e : Nat} {c : RvVCfg} {i : RvI} {r : State} (h : rvVOpiRun s e c i = some r) :
    r.mem = s.mem := by
  unfold rvVOpiRun at h
  split at h
  case h_1 => exact rvVGatherI_mem h
  case h_2 =>
    split at h
    · exact rvVGatherI_mem h
    · exact rvVSlideI_mem h
  case h_3 => exact rvVSlideI_mem (Option.ite_none_left_eq_some.1 h).2
  case h_4 => exact rvVCarryI_mem h
  case h_5 => exact rvVCarryOutI_mem h
  case h_6 => exact rvVCarryI_mem h
  case h_7 => exact rvVCarryOutI_mem h
  case h_8 => exact rvVMergeI_mem h
  case h_9 =>
    split at h
    · exact rvVMoveWhole_mem h
    · exact rvVOpiI_mem h
  case h_10 => exact rvVRedI_mem (Option.ite_none_right_eq_some.1 h).2
  case h_11 => exact rvVRedI_mem (Option.ite_none_right_eq_some.1 h).2
  case h_12 =>
    split at h
    · exact rvVCmpI_mem h
    · split at h
      · exact rvVNarrowI_mem h
      · exact rvVOpiI_mem h

theorem rvVOpmRun_mem {s : State} {e : Nat} {c : RvVCfg} {i : RvI} {r : State} (h : rvVOpmRun s e c i = some r) :
    r.mem = s.mem := by
  unfold rvVOpmRun at h
  dsimp only at h
  split at h
  case h_1 => exact rvVSlide1_mem (Option.ite_none_left_eq_some.1 h).2
  case h_2 => exact rvVSlide1_mem (Option.ite_none_left_eq_some.1 h).2
  case h_3 =>
    split at h
    · exact rvVToX_mem h
    · exact rvVFromX_mem h
  case h_4 => exact rvVExtI_mem (Option.ite_none_right_eq_some.1 h).2
  case h_5 => exact rvVMaskUnI_mem (Option.ite_none_right_eq_some.1 h).2
  case h_6 => exact rvVCompressI_mem (Option.ite_none_right_eq_some.1 h).2
  case h_7 =>
    split at h
    · exact rvVRedI_mem (Option.ite_none_right_eq_some.1 h).2
    · split at h
      · exact rvVLogicI_mem (Option.ite_none_right_eq_some.1 h).2
      · split at h
        · exact rvVWideI_mem h
        · exact rvVOpmI_mem h

end Sys2Proof.Machine
end

section
/-! SUPPORT. The canonical form of memory under `Machine/RvVecFp.lean`: what its functions leave of memory. -/

namespace Sys2Proof.Machine

@[simp] theorem rvVFElems_mem (s : State) (e vd w d8 : Nat) (c : RvVCfg) (vm : Bool) (g : Nat → Nat × Nat) :
    (rvVFElems s e vd w d8 c vm g).mem = s.mem := by simp [rvVFElems]

theorem rvVOpfI_mem {s : State} {e : Nat} {c : RvVCfg} {i : RvI} {rm : Nat} {r : State} (h : rvVOpfI s e c i rm = some r) :
    r.mem = s.mem := by
  revert h
  fun_cases rvVOpfI <;> rintro ⟨⟩
  simp

theorem rvVOpfWideI_mem {s : State} {e : Nat} {c : RvVCfg} {i : RvI} {rm : Nat} {r : State} (h : rvVOpfWideI s e c i rm = some r) :
    r.mem = s.mem := by
  revert h
  fun_cases rvVOpfWideI <;> rintro ⟨⟩
  simp

theorem rvVFcmpI_mem {s : State} {e : Nat} {c : RvVCfg} {i : RvI} {r : State} (h : rvVFcmpI s e c i = some r) :
    r.mem = s.mem := by
  revert h
  fun_cases rvVFcmpI <;> rintro ⟨⟩
  simp

theorem rvVFredI_mem {s : State} {e : Nat} {c : RvVCfg} {i : RvI} {rm : Nat} {r : State} (h : rvVFredI s e c i rm = some r) :
    r.mem = s.mem := by
  revert h
  fun_cases rvVFredI <;> rintro ⟨⟩
  simp

theorem rvVFcvtI_mem {s : State} {e : Nat} {c : RvVCfg} {i : RvI} {rm : Nat} {r : State} (h : rvVFcvtI s e c i rm = some r) :
    r.mem = s.mem := by
  revert h
  fun_cases rvVFcvtI <;> rintro ⟨⟩
  simp

theorem rvVFun1I_mem {s : State} {e : Nat} {c : RvVCfg} {i : RvI} {rm : Nat} {r : State} (h : rvVFun1I s e c i rm = some r) :
    r.mem = s.mem := by
  revert h
  fun_cases rvVFun1I <;> rintro ⟨⟩
  simp

theorem rvVFmergeI_mem {s : State} {e : Nat} {c : RvVCfg} {i : RvI} {r : State} (h : rvVFmergeI s e c i = some r) :
    r.mem = s.mem := by
  revert h
  fun_cases rvVFmergeI <;> rintro ⟨⟩
  simp

theorem rvVFmoveI_mem {s : State} {e : Nat} {c : RvVCfg} {i : RvI} {r : State} (h : rvVFmoveI s e c i = some r) :
    r.mem = s.mem := by
  revert h
  fun_cases rvVFmoveI <;> rintro ⟨⟩ <;> simp

theorem rvVOpfRun_mem {s : State} {e : Nat} {c : RvVCfg} {i : RvI} {r : State} (h : rvVOpfRun s e c i = some r) :
    r.mem = s.mem := by
  unfold rvVOpfRun at h
  dsimp only at h
  split at h
  · cases h
  · replace h := (Option.ite_none_left_eq_some.1 h).2
    split at h
    · exact rvVFcvtI_mem h
    · replace h := (Option.ite_none_left_eq_some.1 h).2
      split at h
      case h_7 => exact rvVSlide1_mem (Option.ite_none_left_eq_some.1 h).2
      case h_8 => exact rvVSlide1_mem (Option.ite_none_left_eq_some.1 h).2
      case h_9 => exact rvVFmoveI_mem h
      case h_10 => exact rvVFun1I_mem (Option.ite_none_right_eq_some.1 h).2
      case h_11 => exact rvVFmergeI_mem (Option.ite_none_left_eq_some.1 h).2
      case h_12 =>
        split at h
        · exact rvVFcmpI_mem h
        · split at h
          · exact rvVOpfWideI_mem h
          · exact rvVOpfI_mem h
      all_goals exact rvVFredI_mem (Option.ite_none_right_eq_some.1 h).2

end Sys2Proof.Machine
end

section
/-! SUPPORT. The canonical form of memory under `Machine/Hart.lean`: what its functions leave of memory. -/

namespace Sys2Proof.Machine

@[simp] theorem rvSret_mem (s : State) (e : Nat) : (rvSret s e).mem = s.mem := rfl

@[simp] theorem rvMret_mem (s : State) (e : Nat) : (rvMret s e).mem = s.mem := rfl

end Sys2Proof.Machine
end

section
/-! SUPPORT. The canonical form of memory under the harts' accesses and instructions. -/

namespace Sys2Proof.Machine

/-- The state that an access of a hart leaves; one that waits changes nothing of `s0`. -/
def RvMem.state (s0 : State) : RvMem → State
  | .ok s _ | .trap s _ => s
  | .wait => s0

@[simp] theorem RvMem.state_ok (s0 s : State) (v : Nat) : (RvMem.ok s v).state s0 = s := rfl
@[simp] theorem RvMem.state_trap (s0 s : State) (c : Nat) : (RvMem.trap s c).state s0 = s := rfl
@[simp] theorem RvMem.state_wait (s0 : State) : RvMem.wait.state s0 = s0 := rfl

theorem rvLoad_wf {s : State} (e va n : Nat) (hm : Memory.wf s.mem = true) : Memory.wf ((rvLoad s e va n).state s).mem = true := by
  have hc : ∀ pa, Memory.wf (cacheRead s (campCache e) (epOf s e).owner pa n false).2.1.mem = true :=
    fun pa => cacheRead_wf _ _ _ _ _ _ hm
  fun_cases rvLoad
  case case5 h => exact (congrArg Memory.wf (pageRead_mem h)).trans hm
  case case7 => exact hc _
  case case8 => exact hc _
  all_goals exact hm

theorem rvStore_wf {s : State} (e va n v : Nat) (hm : Memory.wf s.mem = true) :
    Memory.wf ((rvStore s e va n v).state s).mem = true := by
  have hw : ∀ pa, Memory.wf (engineWrite s pa (bytesOf n v)).1.mem = true := fun pa => engineWrite_wf _ _ _ hm
  fun_cases rvStore
  case case4 h => exact (congrArg Memory.wf (pageWrite_mem h)).trans hm
  case case6 => simpa using hw _
  all_goals exact hm

theorem rvLr_wf {s : State} (e va n : Nat) (hm : Memory.wf s.mem = true) : Memory.wf ((rvLr s e va n).state s).mem = true := by
  have hr : ∀ ln pa, Memory.wf (homeRead (dropLine s (campCache e) ln) pa n).2.mem = true :=
    fun ln pa => homeRead_wf _ _ _ (by simpa using hm)
  fun_cases rvLr
  · exact hm
  · exact hr _ _
  · exact hr _ _

theorem rvSc_wf {s : State} (e va n v : Nat) (hm : Memory.wf s.mem = true) : Memory.wf ((rvSc s e va n v).state s).mem = true := by
  fun_cases rvSc
  · exact hm
  · exact engineWrite_wf _ _ _ hm
  · exact hm

theorem rvAmo_wf {s : State} (e va n code v : Nat) (hm : Memory.wf s.mem = true) :
    Memory.wf ((rvAmo s e va n code v).state s).mem = true := by
  have hu : ∀ ln pa, Memory.wf (homeUpdate (dropLine s (campCache e) ln) pa n code v 0).1.mem = true :=
    fun ln pa => homeUpdate_wf _ _ _ _ _ _ (by simpa using hm)
  fun_cases rvAmo
  · exact hm
  · exact hm
  · exact hu _ _
  · exact hu _ _

/-- The state that an instruction of a hart leaves; one that waits changes nothing of `s0`. -/
def RvEnd.state (s0 : State) : RvEnd → State
  | .done s _ | .trap s _ _ | .hold s => s
  | .wait => s0

@[simp] theorem RvEnd.state_done (s0 s : State) (pc : W64) : (RvEnd.done s pc).state s0 = s := rfl
@[simp] theorem RvEnd.state_trap (s0 s : State) (c : Nat) (v : W64) : (RvEnd.trap s c v).state s0 = s := rfl
@[simp] theorem RvEnd.state_hold (s0 s : State) : (RvEnd.hold s).state s0 = s := rfl
@[simp] theorem RvEnd.state_wait (s0 : State) : RvEnd.wait.state s0 = s0 := rfl

@[simp] theorem rvIllegal_state (s0 s : State) (i : RvI) : (rvIllegal s i).state s0 = s := rfl

@[simp] theorem rvResult_mem (s : State) (e : Nat) (i : RvI) (v : Option W64) : ((rvResult s e i v).state s).mem = s.mem := by
  cases v <;> simp [rvResult]

@[simp] theorem rvOpImm_mem (s : State) (e : Nat) (i : RvI) : ((rvOpImm s e i).state s).mem = s.mem := by
  unfold rvOpImm
  dsimp only
  split <;> simp

@[simp] theorem rvOpImmW_mem (s : State) (e : Nat) (i : RvI) : ((rvOpImmW s e i).state s).mem = s.mem := by
  unfold rvOpImmW
  dsimp only
  split
  · simp
  · split <;> simp

theorem rvAccess_wf {s0 : State} (i : RvI) (va : W64) {r : RvMem} {put : State → Nat → State}
    (hr : Memory.wf (r.state s0).mem = true) (hp : ∀ t v, (put t v).mem = t.mem) :
    Memory.wf ((rvAccess i va r put).state s0).mem = true := by
  cases r with
  | ok t v => exact (congrArg Memory.wf (hp t v)).trans hr
  | trap t c => exact hr
  | wait => exact hr

theorem rvLoadI_wf {s : State} (e : Nat) (i : RvI) (hm : Memory.wf s.mem = true) :
    Memory.wf ((rvLoadI s e i).state s).mem = true := by
  unfold rvLoadI
  split
  · exact hm
  · exact rvAccess_wf _ _ (rvLoad_wf _ _ _ hm) (fun t v => rvPutX_mem ..)

theorem rvStoreI_wf {s : State} (e : Nat) (i : RvI) (hm : Memory.wf s.mem = true) :
    Memory.wf ((rvStoreI s e i).state s).mem = true := by
  unfold rvStoreI
  split
  · exact hm
  · exact rvAccess_wf _ _ (rvStore_wf _ _ _ _ hm) (fun t v => rfl)

/-! Vector accesses: what each element's accesses keep, the walk keeps. -/

/-- The state that a vector access of a hart has come to. -/
def RvVAcc.state : RvVAcc → State
  | .all s | .trap s _ _ _ | .wait s _ => s

theorem rvVFields_wf {n : Nat} {va : Nat → W64} {acc : State → Nat → RvMem} {put : State → Nat → Nat → State}
    (ha : ∀ t k, Memory.wf t.mem = true → Memory.wf ((acc t k).state t).mem = true) (hp : ∀ t k v, (put t k v).mem = t.mem)
    (ks : List Nat) : ∀ {s : State}, Memory.wf s.mem = true → Memory.wf (rvVFields n va acc put ks s).state.mem = true := by
  induction ks with
  | nil => exact fun hm => hm
  | cons k ks ih =>
    intro s hm
    have h := ha s k hm
    unfold rvVFields
    cases hacc : acc s k with
    | ok t v =>
      rw [hacc] at h
      exact ih ((congrArg Memory.wf (hp t k v)).trans h)
    | trap t c => rw [hacc] at h; exact h
    | wait => exact hm

theorem rvVWalk_wf {active : Nat → Bool} {one : Nat → State → RvVAcc}
    (ho : ∀ n t, Memory.wf t.mem = true → Memory.wf (one n t).state.mem = true) (ns : List Nat) :
    ∀ {s : State}, Memory.wf s.mem = true → Memory.wf (rvVWalk active one ns s).state.mem = true := by
  induction ns with
  | nil => exact fun hm => hm
  | cons n ns ih =>
    intro s hm
    have h := ho n s hm
    unfold rvVWalk
    split
    · cases hone : one n s with
      | all t => rw [hone] at h; exact ih h
      | trap t c va k => rw [hone] at h; exact h
      | wait t k => rw [hone] at h; exact h
    · exact ih hm

theorem rvVAccEnd_wf (s0 : State) (e : Nat) (i : RvI) {r : RvVAcc} {fin : State → State} (hr : Memory.wf r.state.mem = true)
    (hf : ∀ t, (fin t).mem = t.mem) : Memory.wf ((rvVAccEnd e i r fin).state s0).mem = true := by
  cases r with
  | all t => exact (congrArg Memory.wf (hf t)).trans hr
  | trap t c va n => exact hr
  | wait t n => exact hr

theorem rvVLoadRun_wf {s : State} (e : Nat) (i : RvI) (c : RvVCfg) (m : RvVMem) (hm : Memory.wf s.mem = true) :
    Memory.wf ((rvVLoadRun s e i c m).state s).mem = true := by
  unfold rvVLoadRun
  extract_lets h put one settle
  have hs : ∀ c t, (settle c t).mem = t.mem := fun c t => foldl_mem _ (fun t k => rvVElems_mem ..) _ t
  have ho : ∀ n t, Memory.wf t.mem = true → Memory.wf (one n t).state.mem = true :=
    fun n t ht => rvVFields_wf (fun t k ht => rvLoad_wf _ _ _ ht) (fun t k v => modHart_mem ..) _ ht
  have hw := rvVWalk_wf (active := rvVActive h c i.vm) ho (upto c.vl) hm
  generalize rvVWalk (rvVActive h c i.vm) one (upto c.vl) s = r at hw
  cases r with
  | trap t cs va n =>
    dsimp only
    split
    · exact (congrArg Memory.wf ((rvVEnd_mem ..).trans (hs _ _))).trans hw
    · exact rvVAccEnd_wf s e i hw (fun t => rfl)
  | all t => exact rvVAccEnd_wf s e i hw (hs c)
  | wait t n => exact rvVAccEnd_wf s e i hw (hs c)

theorem rvVStoreRun_wf {s : State} (e : Nat) (i : RvI) (c : RvVCfg) (m : RvVMem) (hm : Memory.wf s.mem = true) :
    Memory.wf ((rvVStoreRun s e i c m).state s).mem = true :=
  have ho := fun _ _ ht => rvVFields_wf (fun _ _ ht => rvStore_wf _ _ _ _ ht) (fun _ _ _ => rfl) _ ht
  rvVAccEnd_wf s e i (rvVWalk_wf ho _ hm) (fun _ => rfl)

theorem rvVMemI_wf {s : State} (e : Nat) (i : RvI) (store : Bool) (hm : Memory.wf s.mem = true) :
    Memory.wf ((rvVMemI s e i store).state s).mem = true := by
  unfold rvVMemI
  dsimp only
  split
  · exact hm
  · split
    · exact hm
    · split
      · exact rvVStoreRun_wf _ _ _ _ hm
      · exact rvVLoadRun_wf _ _ _ _ hm

/-! Instructions. -/

@[simp] theorem rvVSet_mem (s : State) (e : Nat) (i : RvI) : ((rvVSet s e i).state s).mem = s.mem := by
  unfold rvVSet
  split <;> simp

@[simp] theorem rvVOpI_mem (s : State) (e : Nat) (i : RvI) : ((rvVOpI s e i).state s).mem = s.mem := by
  unfold rvVOpI
  dsimp only
  split
  · rfl
  · split
    · simp
    · split
      · rfl
      · rename_i t ht
        simp only [RvEnd.state_done, rvVEnd_mem]
        replace ht := (Option.ite_none_left_eq_some.1 ht).2
        split at ht
        · exact rvVOpiRun_mem ht
        · split at ht
          · exact rvVOpmRun_mem ht
          · exact rvVOpfRun_mem ht

theorem rvLoadF_wf {s : State} (e : Nat) (i : RvI) (hm : Memory.wf s.mem = true) :
    Memory.wf ((rvLoadF s e i).state s).mem = true := by
  unfold rvLoadF
  split
  · split
    · exact hm
    · exact rvAccess_wf _ _ (rvLoad_wf _ _ _ hm) (fun t v => rvPutF_mem ..)
  · split
    · exact rvVMemI_wf _ _ _ hm
    · exact hm

theorem rvStoreF_wf {s : State} (e : Nat) (i : RvI) (hm : Memory.wf s.mem = true) :
    Memory.wf ((rvStoreF s e i).state s).mem = true := by
  unfold rvStoreF
  split
  · split
    · exact hm
    · exact rvAccess_wf _ _ (rvStore_wf _ _ _ _ hm) (fun t v => rfl)
  · split
    · exact rvVMemI_wf _ _ _ hm
    · exact hm

@[simp] theorem rvFloatI_mem (s : State) (e : Nat) (i : RvI) : ((rvFloatI s e i).state s).mem = s.mem := by
  unfold rvFloatI
  extract_lets h f fr r
  clear_value r
  cases r with
  | none => rfl
  | some r =>
    dsimp only
    split <;> simp

theorem rvAtomicI_wf {s : State} (e : Nat) (i : RvI) (hm : Memory.wf s.mem = true) :
    Memory.wf ((rvAtomicI s e i).state s).mem = true := by
  unfold rvAtomicI
  extract_lets h n va v f5 put
  have hp : ∀ t v, (put t v).mem = t.mem := by
    intro t v
    simp only [put]
    rw [rvPutX_mem]
    split <;> simp
  split
  · exact hm
  · split
    · exact hm
    · split
      · exact hm
      · split
        · exact rvAccess_wf _ _ (rvLr_wf _ _ _ hm) hp
        · split
          · exact rvAccess_wf _ _ (rvSc_wf _ _ _ _ hm) hp
          · split
            · exact hm
            · exact rvAccess_wf _ _ (rvAmo_wf _ _ _ _ _ hm) hp

@[simp] theorem rvFence_mem (s : State) (e : Nat) (i : RvI) : ((rvFence s e i).state s).mem = s.mem := by
  fun_cases rvFence <;> simp

@[simp] theorem rvCsrI_mem (s : State) (e : Nat) (i : RvI) : ((rvCsrI s e i).state s).mem = s.mem := by
  unfold rvCsrI
  extract_lets n src writes vec h
  split
  · rfl
  · split
    · rfl
    · extract_lets base v s0 s1
      have h0 : s0.mem = s.mem := by
        simp only [s0]
        split <;> simp
      have h1 : s1.mem = s0.mem := by
        simp only [s1]
        split
        · rfl
        · split <;> simp
      simp [h1, h0]

@[simp] theorem rvSystem_mem (s : State) (e : Nat) (i : RvI) : ((rvSystem s e i).state s).mem = s.mem := by
  fun_cases rvSystem <;> simp

theorem rvExec_wf {s : State} (e : Nat) (i : RvI) (hm : Memory.wf s.mem = true) :
    Memory.wf ((rvExec s e i).state s).mem = true := by
  unfold rvExec
  dsimp only
  split
  case h_4 => split <;> simp [hm]
  case h_5 => split <;> simp [hm]
  case h_6 => exact rvLoadI_wf _ _ hm
  case h_7 => exact rvStoreI_wf _ _ hm
  case h_13 => exact rvAtomicI_wf _ _ hm
  case h_14 => exact rvLoadF_wf _ _ hm
  case h_15 => exact rvStoreF_wf _ _ hm
  all_goals simp [hm]

theorem rvFinish_wf {s t : State} {e : Nat} {r : RvEnd} (hr : Memory.wf (r.state s).mem = true) (h : rvFinish s e r = .next t) :
    Memory.wf t.mem = true := by
  cases r <;> cases h <;> exact hr

theorem rvRun_wf {s t : State} {e : Nat} (hm : Memory.wf s.mem = true) (h : rvRun s e = .next t) : Memory.wf t.mem = true := by
  unfold rvRun at h
  dsimp only at h
  split at h
  · cases h; exact hm
  · split at h
    · cases h; exact hm
    · exact rvFinish_wf (rvExec_wf _ _ hm) h

theorem execHartInstruction_wf {s t : State} {ep : Nat} (hm : Memory.wf s.mem = true) (h : execHartInstruction ep s = .next t) :
    Memory.wf t.mem = true := by
  unfold execHartInstruction at h
  dsimp only at h
  split at h
  · cases h; exact hm
  · split at h
    · cases h; exact hm
    · exact rvRun_wf (s := modHart ..) hm h

end Sys2Proof.Machine
end

section
/-! SUPPORT. The canonical form of memory under `Machine/Outside.lean`: what its functions leave of memory. -/

namespace Sys2Proof.Machine

theorem execHostMemoryAccess_wf {write : Bool} {pa size v : Nat} {s r : State} (hm : Memory.wf s.mem = true)
    (h : execHostMemoryAccess write pa size v s = .next r) : Memory.wf r.mem = true := by
  revert h
  fun_cases execHostMemoryAccess <;> rintro ⟨⟩
  · exact hm
  · exact engineWrite_wf _ _ _ hm
  · exact foldl_wf _ (fun t ln ht => recallLine_wf t ln ht) _ hm

@[simp] theorem hostStore_wf (s : State) (pa : Nat) (bs : List Byte) (hm : Memory.wf s.mem = true) :
    Memory.wf (hostStore s pa bs).mem = true := by
  unfold hostStore
  split <;> simp [hm, engineWrite_wf]

@[simp] theorem peerStore_wf (s : State) (pa : Nat) (bs : List Byte) (hm : Memory.wf s.mem = true) :
    Memory.wf (peerStore s pa bs).mem = true := by
  unfold peerStore
  split <;> simp [hm, engineWrite_wf]

theorem execPeerAccess_wf {kind pa size v : Nat} {s r : State} (hm : Memory.wf s.mem = true)
    (h : execPeerAccess kind pa size v s = .next r) : Memory.wf r.mem = true := by
  have hr : Memory.wf (homeRead s pa size).2.mem = true := homeRead_wf _ _ _ hm
  revert h
  unfold execPeerAccess
  split
  · rintro ⟨⟩; exact hm
  · split
    · rintro ⟨⟩
    · split
      · rintro ⟨⟩; exact hr
      · split
        · rintro ⟨⟩; exact engineWrite_wf _ _ _ hm
        · split
          · rintro ⟨⟩; exact hm
          · split
            · dsimp only
              split <;> (rintro ⟨⟩; exact hr)
            · rintro ⟨⟩; exact homeUpdate_wf _ _ _ _ _ _ hm

end Sys2Proof.Machine
end

section
/-! SUPPORT. The canonical form of memory under `Machine/Power.lean`: what its functions leave of memory. -/

namespace Sys2Proof.Machine

theorem execOperatingPointSettled_wf {rope : Nat} {s r : State} (hm : Memory.wf s.mem = true)
    (h : execOperatingPointSettled rope s = .next r) : Memory.wf r.mem = true := by
  revert h
  fun_cases execOperatingPointSettled <;> rintro ⟨⟩ <;> simp [hm]

theorem execThermalSample_wf {rope : Nat} {tj : BitVec 16} {s r : State} (hm : Memory.wf s.mem = true)
    (h : execThermalSample rope tj s = .next r) : Memory.wf r.mem = true := by
  revert h
  unfold execThermalSample
  dsimp only
  split
  · rintro ⟨⟩; exact hm
  · split
    · rintro ⟨⟩; simpa using hm
    · split
      · rintro ⟨⟩; simpa using hm
      · rintro ⟨⟩; exact hm

theorem execWayGatingInterval_wf {slice : Nat} {gate missHigh : Bool} {s r : State} (hm : Memory.wf s.mem = true)
    (h : execWayGatingInterval slice gate missHigh s = .next r) : Memory.wf r.mem = true := by
  revert h
  fun_cases execWayGatingInterval <;> rintro ⟨⟩ <;> simp [hm]

end Sys2Proof.Machine
end

section
/-! SUPPORT. The canonical form of memory under `Machine/Sampling.lean`: what its functions leave of memory. -/

namespace Sys2Proof.Machine

theorem execCairnSamplePick_wf {core ctx : Nat} {s r : State} (hm : Memory.wf s.mem = true)
    (h : execCairnSamplePick core ctx s = .next r) : Memory.wf r.mem = true := by
  unfold execCairnSamplePick at h
  split at h <;> cases h <;> simp [hm]

theorem execCairnRecordWrite_wf {pick : Nat} {lat : List (BitVec 16)} {level : BitVec 4} {s r : State}
    (hm : Memory.wf s.mem = true) (h : execCairnRecordWrite pick lat level s = .next r) : Memory.wf r.mem = true := by
  revert h
  fun_cases execCairnRecordWrite <;> rintro ⟨⟩ <;> simp [hm]

@[simp] theorem poisonUnit_mem (s : State) (pa : Nat) : (poisonUnit s pa).mem = s.mem := by
  fun_cases poisonUnit <;> rfl

@[simp] theorem markSym_mem (s : State) (wid : Nat) (cls : SymCls) (num : Nat) : (markSym s wid cls num).mem = s.mem := rfl

@[simp] theorem strikePart_mem (s : State) (blk : Nat) (p : SpillPart) : (strikePart s blk p).mem = s.mem := by
  cases p <;> simp [strikePart]

@[simp] theorem spillError_mem (s : State) (blk : Nat) (b : Block) : (spillError s blk b).mem = s.mem := by
  unfold spillError
  dsimp only
  split <;> simp

@[simp] theorem memError_wf (s : State) (pa unit ctx : Nat) (bad : Bool) (hm : Memory.wf s.mem = true) :
    Memory.wf (memError s pa unit ctx bad).mem = true := by
  unfold memError
  split
  · exact hm
  · split
    · simp [hm]
    · refine errPush_wf _ _ _ _ _ ?_
      split <;> simp [hm]

@[simp] theorem l1Error_wf (s : State) (cache line u : Nat) (hm : Memory.wf s.mem = true) :
    Memory.wf (l1Error s cache line u).mem = true := by
  unfold l1Error
  dsimp only
  (repeat' split) <;> simp [hm]

@[simp] theorem ticketError_wf (s : State) (slice idx u : Nat) (hm : Memory.wf s.mem = true) :
    Memory.wf (ticketError s slice idx u).mem = true := by
  fun_cases ticketError <;> simp [hm]

@[simp] theorem monError_wf (s : State) (wid : Nat) (slotB : Bool) (hm : Memory.wf s.mem = true) :
    Memory.wf (monError s wid slotB).mem = true := by
  fun_cases monError <;> simp [hm]

@[simp] theorem icacheParity_mem (s : State) (core pa : Nat) : (icacheParity s core pa).mem = s.mem := rfl

@[simp] theorem tlbParity_mem (s : State) (core va : Nat) : (tlbParity s core va).mem = s.mem := rfl

theorem execPatrolScrub_wf {pa sev : Nat} {s r : State} (hm : Memory.wf s.mem = true) (h : execPatrolScrub pa sev s = .next r) :
    Memory.wf r.mem = true := by
  unfold execPatrolScrub at h
  split at h <;> cases h <;> simp [hm]

@[simp] theorem symError_wf (s : State) (wid : Nat) (scalar : Bool) (num : Nat) (hm : Memory.wf s.mem = true) :
    Memory.wf (symError s wid scalar num).mem = true := by
  unfold symError
  split <;> simp [hm]

@[simp] theorem bufError_wf (s : State) (blk buf off : Nat) (hm : Memory.wf s.mem = true) :
    Memory.wf (bufError s blk buf off).mem = true := by
  unfold bufError
  split <;> simp [hm]

@[simp] theorem quadError_wf (s : State) (blk num : Nat) (hm : Memory.wf s.mem = true) :
    Memory.wf (quadError s blk num).mem = true := by
  unfold quadError
  split <;> simp [hm]

end Sys2Proof.Machine
end

section
/-! SUPPORT. The canonical form of memory under `Machine/Issue.lean`: what its functions leave of memory. -/

namespace Sys2Proof.Machine

@[simp] theorem payOwed_wf (s : State) (wid : Nat) (hm : Memory.wf s.mem = true) : Memory.wf (payOwed s wid).mem = true := by
  unfold payOwed
  split
  · exact hm
  · exact foldl_wf _ (fun t o ht => by simp [ht]) _ (by simpa using hm)

@[simp] theorem flushOwed_wf (s : State) (hm : Memory.wf s.mem = true) :
    Memory.wf (flushOwed s).mem = true := by
  unfold flushOwed
  refine foldl_wf _ (fun t a hm => ?_) _ hm
  simp [hm]

@[simp] theorem settleDue_wf (s : State) (hm : Memory.wf s.mem = true) :
    Memory.wf (settleDue s).mem = true := by simp [settleDue, hm]

@[simp] theorem dlTick_mem (s : State) : (dlTick s).mem = s.mem := rfl

@[simp] theorem hartTick_mem (s : State) (n : Nat) : (hartTick s n).mem = s.mem := rfl

@[simp] theorem tick_wf (s : State) (n : Nat) (hm : Memory.wf s.mem = true) :
    Memory.wf (tick s n).mem = true := hm

end Sys2Proof.Machine
end

section
/-! SUPPORT. The canonical form of memory under every instruction, event and step. -/

namespace Sys2Proof.Machine

/-- A word whose body leaves memory as it is keeps the canonical form. -/
theorem issueWord_wf_of_mem {sp : WSpec} {body : IC → State → Eff} (hb : ∀ k s, (body k s).state.mem = s.mem) {s r : State}
    (hm : Memory.wf s.mem = true) (h : issueWord sp body s = .next r) : Memory.wf r.mem = true :=
  issueWord_wf (fun k t ht => (congrArg Memory.wf (hb k t)).trans ht) hm h

theorem execUnimplementedOpcode_wf (cls : BitVec 3) (w1 w2 : W32) {s r : State} (hm : Memory.wf s.mem = true)
    (h : execUnimplementedOpcode cls w1 w2 s = .next r) : Memory.wf r.mem = true :=
  issueWord_wf_of_mem (body := fun _ s => .trap s { cause := 1, sub := 0 }) (fun _ _ => rfl) hm h

/-- Every instruction and every event keeps the canonical form: one arm per meaning, as in `exec`. -/
theorem exec_wf {i : Instr} {s r : State} (hm : Memory.wf s.mem = true) (h : exec i s = .next r) : Memory.wf r.mem = true := by
  cases i
  case unimplementedOpcode cls w1 w2 => exact execUnimplementedOpcode_wf cls w1 w2 hm h
  case clauseIssue => exact execClauseIssue_wf hm h
  case handlerStart => exact execHandlerStart_wf hm h
  case loadResult => exact execLoadResult_wf hm h
  case atomHomeUpdate => exact execAtomHomeUpdate_wf hm h
  case homeWritePerform => exact execHomeWritePerform_wf hm h
  case waitcRepoll => exact execWaitcRepoll_wf hm h
  case externalWaitTimeout => exact execExternalWaitTimeout_wf hm h
  case writeCompletionTime => exact execWriteCompletionTime_wf hm h
  case l1LeaseExpiry => exact execL1LeaseExpiry_wf hm h
  case l1Eviction => exact execL1Eviction_wf hm h
  case translationWalkComplete => exact execTranslationWalkComplete_wf hm h
  case specialFunctionResult => exact execSpecialFunctionResult_wf hm h
  case ldtLineRead => exact execLdtLineRead_wf hm h
  case ldtTicketWritten => exact execLdtTicketWritten_wf hm h
  case ticketFetchComplete => exact execTicketFetchComplete_wf hm h
  case ticketStateReturn => exact execTicketStateReturn_wf hm h
  case ticketLeaseEnd => exact execTicketLeaseEnd_wf hm h
  case matrixGrant => exact execMatrixGrant_wf hm h
  case matrixWordComplete => exact execMatrixWordComplete_wf hm h
  case mtilePitchComplete => exact execMtilePitchComplete_wf hm h
  case gangLatchTimeout => exact execGangLatchTimeout_wf hm h
  case accFirstUseTrap => exact execAccFirstUseTrap_wf hm h
  case copyStart => exact execCopyStart_wf hm h
  case copyComplete => exact execCopyComplete_wf hm h
  case mbsendEnqueue => exact execMbsendEnqueue_wf hm h
  case observationDelivery => exact execObservationDelivery_wf hm h
  case hostsigEnqueue => exact execHostsigEnqueue_wf hm h
  case waveRetire => exact execWaveRetire_wf hm h
  case interruptSend => exact execInterruptSend_wf hm h
  case shareRecompute => exact execShareRecompute_wf hm h
  case rebindMove => exact execRebindMove_wf hm h
  case blockSwapOut => exact execBlockSwapOut_wf hm h
  case blockSwapIn => exact execBlockSwapIn_wf hm h
  case ropeGroupPlacement => exact execRopeGroupPlacement_wf hm h
  case activeSetSwap => exact execActiveSetSwap_wf hm h
  case timeSliceExpiry => exact execTimeSliceExpiry_wf hm h
  case blockPreempt => exact execBlockPreempt_wf hm h
  case deadlockWatchdogFire => exact execDeadlockWatchdogFire_wf hm h
  case pageRequestRetry => exact execPageRequestRetry_wf hm h
  case pageRequestFail => exact execPageRequestFail_wf hm h
  case pageRequestTimeout => exact execPageRequestTimeout_wf hm h
  case stop => exact execStop_wf hm h
  case debugStopEffect => exact execDebugStopEffect_wf hm h
  case debugDumpWritten => exact execDebugDumpWritten_wf hm h
  case resume => exact execResume_wf hm h
  case step => exact execStep_wf hm h
  case ddataRead => exact execDdataRead_wf hm h
  case ddataWrite => exact execDdataWrite_wf hm h
  case debugGrant => exact execDebugGrant_wf hm h
  case debugRevoke => exact execDebugRevoke_wf hm h
  case contextEnable => exact execContextEnable_wf hm h
  case contextTeardown => exact execContextTeardown_wf hm h
  case flr => exact execFlr_wf hm h
  case contextResetComplete => exact execContextResetComplete_wf hm h
  case preempt => exact execPreempt_wf hm h
  case queueEnable => exact execQueueEnable_wf hm h
  case queueDisable => exact execQueueDisable_wf hm h
  case qdoor => exact execQdoor_wf hm h
  case packetRead => exact execPacketRead_wf hm h
  case packetReread => exact execPacketReread_wf hm h
  case tlbInvalidationComplete => exact execTlbInvalidationComplete_wf hm h
  case launchReady => exact execLaunchReady_wf hm h
  case operatingPointSettled => exact execOperatingPointSettled_wf hm h
  case thermalSample => exact execThermalSample_wf hm h
  case wayGatingInterval => exact execWayGatingInterval_wf hm h
  case cairnSamplePick => exact execCairnSamplePick_wf hm h
  case cairnRecordWrite => exact execCairnRecordWrite_wf hm h
  case patrolScrub => exact execPatrolScrub_wf hm h
  case deviceReset => exact execDeviceReset_wf hm h
  case dreset => exact execDreset_wf hm h
  case functionLevelReset => exact execFunctionLevelReset_wf hm h
  case hostMemoryAccess => exact execHostMemoryAccess_wf hm h
  case peerAccess => exact execPeerAccess_wf hm h
  case domainJoin => exact execDomainJoin_wf hm h
  case domainLeave => exact execDomainLeave_wf hm h
  case peerLoss => exact execPeerLoss_wf hm h
  case ptpMessage => exact execPtpMessage_wf hm h
  case hostadj => exact execHostadj_wf hm h
  case timeSourceSelect => exact execTimeSourceSelect_wf hm h
  case fwgo => exact execFwgo_wf hm h
  case fwcommit => exact execFwcommit_wf hm h
  case ago => exact execAgo_wf hm h
  case cgo => exact execCgo_wf hm h
  case attestationComplete => exact execAttestationComplete_wf hm h
  case rload => exact execRload_wf hm h
  case announcementReceive => exact execAnnouncementReceive_wf hm h
  case bindingSetAnnounce => exact execBindingSetAnnounce_wf hm h
  case start => exact execStart_wf hm h
  case reset => exact execReset_wf hm h
  case windowWrite => exact execWindowWrite_wf hm h
  case apop => exact execApop_wf hm h
  case osend => exact execOsend_wf hm h
  case tkval => exact execTkval_wf hm h
  case portRedeemComplete => exact execPortRedeemComplete_wf hm h
  case episodeWatchdogFire => exact execEpisodeWatchdogFire_wf hm h
  case timeoutObservationEnqueue => exact execTimeoutObservationEnqueue_wf hm h
  case hartInstruction => exact execHartInstruction_wf hm h
  case registerWrite => exact execRegisterWrite_wf hm h
  case powerOn => exact execPowerOn_wf h
  case bootRomVerification => exact execBootRomVerification_wf (_op := ()) hm h
  case fabricPortTrained => exact execFabricPortTrained_wf hm h
  case fabricPortFails => exact execFabricPortFails_wf hm h
  case nop => exact issueWord_wf_of_mem ctNop_mem hm h
  case sadd | saddLong | ssub | ssubLong | smul | smulLong | smulhi | smulhiLong | sdiv | sdivLong | srem | sremLong | sand |
      sandLong | sor | sorLong | sxor | sxorLong | sshl | sshlLong | sshr | sshrLong | ssra | ssraLong | smin | sminLong | smax
      | smaxLong | sclz | sclzLong | spopc | spopcLong =>
    exact issueWord_wf_of_mem (scReg_mem _) hm h
  case saddi | saddiLong | sandi | sandiLong | sori | soriLong | sxori | sxoriLong | sshli | sshliLong | sshri | sshriLong |
      ssrai | ssraiLong =>
    exact issueWord_wf_of_mem (scImm_mem _) hm h
  case scmp | scmpLong => exact issueWord_wf_of_mem scCmpReg_mem hm h
  case scmpi | scmpiLong => exact issueWord_wf_of_mem scCmpImm_mem hm h
  case ssel | sselLong => exact issueWord_wf_of_mem scSel_mem hm h
  case smov => exact issueWord_wf_of_mem scMov_mem hm h
  case smovi | smoviLong => exact issueWord_wf_of_mem scMovI_mem hm h
  case sluiShort | slui => exact issueWord_wf_of_mem scLui_mem hm h
  case sbfe | sbfeLong => exact issueWord_wf_of_mem scBfe_mem hm h
  case sbfi | sbfiLong => exact issueWord_wf_of_mem scBfi_mem hm h
  case sarg | sargSx => exact issueWord_wf_of_mem scArg_mem hm h
  case br | brLong => exact issueWord_wf_of_mem ctBr_mem hm h
  case jmp | jmpLong => exact issueWord_wf_of_mem ctJmp_mem hm h
  case call | callLong => exact issueWord_wf_of_mem ctCall_mem hm h
  case ret => exact issueWord_wf_of_mem ctRet_mem hm h
  case ifW => exact issueWord_wf ctIf_wf hm h
  case elseW => exact issueWord_wf_of_mem ctElse_mem hm h
  case endif => exact issueWord_wf_of_mem ctEndif_mem hm h
  case loopW => exact issueWord_wf ctLoop_wf hm h
  case loopImm => exact issueWord_wf ctLoopImm_wf hm h
  case breakW | contW => exact issueWord_wf_of_mem (ctLeave_mem _) hm h
  case endloop => exact issueWord_wf_of_mem ctEndloop_mem hm h
  case yield => exact issueWord_wf_of_mem ctYield_mem hm h
  case waitcnt => exact issueWord_wf_of_mem ctWaitcnt_mem hm h
  case endW => exact issueWord_wf_of_mem ctEnd_mem hm h
  case win => exact issueWord_wf_of_mem ctWin_mem hm h
  case modeW => exact issueWord_wf_of_mem ctMode_mem hm h
  case modeFields => exact issueWord_wf_of_mem ctModeFields_mem hm h
  case barArr => exact issueWord_wf brArr_wf hm h
  case barWait => exact issueWord_wf brWait_wf hm h
  case barSync => exact issueWord_wf brSync_wf hm h
  case barDrop => exact issueWord_wf brDrop_wf hm h
  case pand | por | pxor | pnot | pmov => exact issueWord_wf_of_mem (prOp2_mem _) hm h
  case ptos => exact issueWord_wf_of_mem prToS_mem hm h
  case pfroms => exact issueWord_wf_of_mem prFromS_mem hm h
  case vadd | vaddLong | vsub | vsubLong | vmul | vmulLong | vmulhi | vmulhiLong | vand | vandLong | vor | vorLong | vxor |
      vxorLong | vshl | vshlLong | vshr | vshrLong | vsra | vsraLong | vmin | vminLong | vmax | vmaxLong =>
    exact issueWord_wf_of_mem (veInt_mem _) hm h
  case vaddi | vaddiLong => exact issueWord_wf_of_mem veAddI_mem hm h
  case vmad => exact issueWord_wf_of_mem veMad_mem hm h
  case vnot | vnotLong | vabs | vabsLong | vneg | vnegLong | vclz | vclzLong | vpopc | vpopcLong =>
    exact issueWord_wf_of_mem (veInt1_mem _) hm h
  case vbfe | vbfeLong => exact issueWord_wf_of_mem veBfe_mem hm h
  case vbfi | vbfiLong => exact issueWord_wf_of_mem veBfi_mem hm h
  case vsel | vselLong => exact issueWord_wf_of_mem veSel_mem hm h
  case vmov | vmovLong => exact issueWord_wf_of_mem veMov_mem hm h
  case vmovi | vmoviLong => exact issueWord_wf_of_mem veMovI_mem hm h
  case vbcast | vbcastLong => exact issueWord_wf_of_mem veBcast_mem hm h
  case vlane | vlaneLong => exact issueWord_wf_of_mem veLane_mem hm h
  case vdot4 => exact issueWord_wf_of_mem veDot4_mem hm h
  case vcmp | vcmpLong => exact issueWord_wf_of_mem veCmp_mem hm h
  case vfadd | vfaddLong | vfsub | vfsubLong | vfmul | vfmulLong => exact issueWord_wf_of_mem (vfBin_mem _) hm h
  case vfma => exact issueWord_wf_of_mem vfFma_mem hm h
  case vfmin | vfminLong | vfmax | vfmaxLong => exact issueWord_wf_of_mem (vfMinMax_mem _) hm h
  case vfabs | vfabsLong | vfneg | vfnegLong => exact issueWord_wf_of_mem (vfSign_mem _) hm h
  case vfcmp | vfcmpLong => exact issueWord_wf_of_mem vfCmp_mem hm h
  case vfclass | vfclassLong => exact issueWord_wf_of_mem vfClass_mem hm h
  case vcvt => exact issueWord_wf_of_mem vfCvt_mem hm h
  case vfrnd | vfrndLong => exact issueWord_wf_of_mem vfRnd_mem hm h
  case vfdot2 => exact issueWord_wf_of_mem vfDot2_mem hm h
  case vshfl | vshflLong | vshflx | vshflxLong | vshflup | vshflupLong | vshfldn | vshfldnLong =>
    exact issueWord_wf_of_mem (xlShuffle_mem _) hm h
  case vvote | vvoteLong => exact issueWord_wf_of_mem xlVote_mem hm h
  case vredadd | vredaddLong | vredmin | vredminLong | vredmax | vredmaxLong => exact issueWord_wf_of_mem (xlRed_mem _) hm h
  case vscan | vscanLong => exact issueWord_wf_of_mem xlScan_mem hm h
  case vmatch | vmatchLong => exact issueWord_wf_of_mem xlMatch_mem hm h
  case vtopk => exact issueWord_wf_of_mem xlTopk_mem hm h
  case vex2 | vex2Long | vlg2 | vlg2Long | vrcp | vrcpLong | vrsq | vrsqLong | vsqrt | vsqrtLong | vsin | vsinLong | vcos |
      vcosLong | vtanh | vtanhLong =>
    exact issueWord_wf_of_mem (sfIssue_mem _) hm h
  case ld | ldLong => exact issueWord_wf_of_mem mmLd_mem hm h
  case st | stLong => exact issueWord_wf mmSt_wf hm h
  case lds | ldsLong => exact issueWord_wf_of_mem mmLds_mem hm h
  case sts | stsLong => exact issueWord_wf_of_mem mmSts_mem hm h
  case ldt | ldtLong => exact issueWord_wf tkLdt_wf hm h
  case rdmV | rdmVLong => exact issueWord_wf tkRdmV_wf hm h
  case rdmS | rdmSLong => exact issueWord_wf tkRdmS_wf hm h
  case tkrel => exact issueWord_wf_of_mem tkRel_mem hm h
  case tkq => exact issueWord_wf_of_mem tkQuery_mem hm h
  case atom => exact issueWord_wf atAtom_wf hm h
  case red => exact issueWord_wf atRed_wf hm h
  case waitc => exact issueWord_wf atWaitc_wf hm h
  case fence | fenceLong => exact issueWord_wf mmFence_wf hm h
  case fenceI => exact issueWord_wf_of_mem mmFenceI_mem hm h
  case pref | prefLong => exact issueWord_wf_of_mem mmPref_mem hm h
  case cwb | cwbLong => exact issueWord_wf mmCwb_wf hm h
  case tidef => exact issueWord_wf_of_mem itDef_mem hm h
  case tsweep => exact issueWord_wf itSweep_wf hm h
  case twalk => exact issueWord_wf itWalk_wf hm h
  case gang | gangLong => exact issueWord_wf_of_mem mxGang_mem hm h
  case mm | mmLong => exact issueWord_wf_of_mem mxMM_mem hm h
  case mmg | mmgLong => exact issueWord_wf_of_mem mxMMG_mem hm h
  case mmb | mmbLong => exact issueWord_wf_of_mem mxMMB_mem hm h
  case mtile | mtileLong => exact issueWord_wf_of_mem mxTile_mem hm h
  case mscl | msclLong => exact issueWord_wf_of_mem mxScl_mem hm h
  case aclr | aclrLong => exact issueWord_wf_of_mem mxClr_mem hm h
  case amov | amovLong => exact issueWord_wf_of_mem mxMov_mem hm h
  case afill | afillLong => exact issueWord_wf_of_mem mxFill_mem hm h
  case ald | aldLong => exact issueWord_wf_of_mem mxAld_mem hm h
  case ast | astLong => exact issueWord_wf_of_mem mxAst_mem hm h
  case cpy | cpyLong | cpym | cpymLong | cpyw | cpywLong => exact issueWord_wf_of_mem (cpIssue_mem _) hm h
  case mbsend | mbsendLong => exact issueWord_wf mbSend_wf hm h
  case mbrecv | mbrecvLong => exact issueWord_wf mbRecv_wf hm h
  case mbpoll | mbpollLong => exact issueWord_wf_of_mem mbPoll_mem hm h
  case mbver | mbverSet => exact issueWord_wf mbVer_wf hm h
  case trap => exact issueWord_wf_of_mem syTrap_mem hm h
  case bkpt => exact issueWord_wf_of_mem syBkpt_mem hm h
  case trec | trecLong => exact issueWord_wf_of_mem syTrec_mem hm h
  case xget | xgetLong => exact issueWord_wf_of_mem syXget_mem hm h
  case xset | xsetLong => exact issueWord_wf_of_mem syXset_mem hm h
  case eresumeRetry => exact issueWord_wf_of_mem syRetry_mem hm h
  case eresumeSkip => exact issueWord_wf_of_mem sySkip_mem hm h
  case eresumeJmp => exact issueWord_wf_of_mem syJmp_mem hm h
  case eresumeRel => exact issueWord_wf_of_mem syRel_mem hm h
  case getsr => exact issueWord_wf syGetsr_wf hm h
  case setsr => exact issueWord_wf_of_mem sySetsr_mem hm h
  case time => exact issueWord_wf syTime_wf hm h
  case sample | sampleMark => exact issueWord_wf sySample_wf hm h
  case hostsig | hostsigLong => exact issueWord_wf syHostsig_wf hm h

theorem issueBad_wf {s r : State} {wid : Nat} {slotB : Bool} {w : Wave} {b : Block} {at_ cause sub : Nat}
    (hm : Memory.wf s.mem = true) (h : issueBad s wid slotB w b at_ cause sub = .next r) : Memory.wf r.mem = true := by
  unfold issueBad at h
  split at h
  · cases h; exact hm
  · split at h
    · exact execUnimplementedOpcode_wf _ _ _ hm h
    · cases h; exact badWord_wf _ _ _ _ _ _ _ hm

theorem issueSlot_wf {s r : State} {wid : Nat} {slotB : Bool} {w : Wave} {b : Block} (hm : Memory.wf s.mem = true)
    (h : issueSlot s wid slotB w b = .next r) : Memory.wf r.mem = true := by
  unfold issueSlot at h
  dsimp only at h
  split at h
  · cases h; exact hm
  · split at h
    · split at h
      · cases h; exact hm
      · exact issueBad_wf hm h
      · split at h
        · split at h
          · exact issueBad_wf hm h
          · exact exec_wf hm h
          · cases h; exact hm
        · exact exec_wf hm h
    · exact execClauseIssue_wf hm h

theorem issueStep_wf {s r : State} {wid : Nat} {slotB : Bool} (hm : Memory.wf s.mem = true) (h : issueStep s wid slotB = .next r) :
    Memory.wf r.mem = true := by
  replace hm : Memory.wf { s with cur := some ⟨wid, slotB⟩ }.mem = true := hm
  unfold issueStep at h
  dsimp only at h
  split at h
  · cases h; exact hm
  · split at h
    · cases h; exact hm
    · split at h
      · cases h; exact hm
      · split at h
        · rename_i hp
          cases h
          split
          · exact brokenPark_wf hm hp
          · exact hm
        · exact issueSlot_wf hm h

/-- What one item of the agenda does keeps the canonical form. -/
theorem act_wf {a : Todo} {s r : State} (hm : Memory.wf s.mem = true) (h : act a s = .next r) : Memory.wf r.mem = true := by
  cases a with
  | issue wid slotB => exact issueStep_wf hm h
  | event i => exact exec_wf (s := { s with cur := none }) hm h
  | loadMeta ctx addr m =>
    cases h
    split <;> simp [hm]
  | _ => cases h; simp [hm]

theorem step_wf {s r : State} (hm : Memory.wf s.mem = true) (h : step s = .next r) : Memory.wf r.mem = true := by
  unfold step at h
  split at h
  · cases h; exact hm
  · rename_i rest _
    exact act_wf (settleDue_wf { s with agenda := rest } hm) h

/-- Settles O60: a step takes one item of the agenda, and every function that an item comes to either leaves memory alone or changes it
by the model's byte write, which keeps the canonical form. -/
theorem stepsKeepMemoryCanonical : Obligations.StepsKeepMemoryCanonical :=
  fun _ _ => step_wf

end Sys2Proof.Machine
end

section
/-! SUPPORT. E2M1 (R73): its table of values, and where its elements lie in bytes. -/

namespace Sys2Proof.Machine

/-! The values. -/

/-- R73's table: each code of E2M1 with its value in FP32. -/
def e2m1Values : List (Nat × Nat) :=
  [(0x0, 0x00000000), (0x1, 0x3F000000), (0x2, 0x3F800000), (0x3, 0x3FC00000),
   (0x4, 0x40000000), (0x5, 0x40400000), (0x6, 0x40800000), (0x7, 0x40C00000),
   (0x8, 0x80000000), (0x9, 0xBF000000), (0xA, 0xBF800000), (0xB, 0xBFC00000),
   (0xC, 0xC0000000), (0xD, 0xC0400000), (0xE, 0xC0800000), (0xF, 0xC0C00000)]

/-- Widening an E2M1 code gives its value in FP32 and raises nothing. -/
theorem fConv_e2m1_f32_exact : ∀ p ∈ e2m1Values, fConv e2m1 f32 0 false false 0 p.1 = (p.2, {}) := by decide

/-- Narrowing the value of an E2M1 code gives the code back, with its sign also at zero, and raises nothing. -/
theorem fConv_f32_e2m1_exact : ∀ p ∈ e2m1Values, fConv f32 e2m1 0 false false 0 p.2 = (p.1, {}) := by decide

/-! The packing: elements 2j and 2j + 1 are the low and the high half of byte j. -/

@[simp] theorem tyWidth_e2m1 : tyWidth 15 = 4 := rfl

theorem elem_e2m1_low (x j : Nat) : elem (tyWidth 15) (2 * j) x = (x >>> (8 * j)) % 16 := by
  have hw : 4 * (2 * j) = 8 * j := by omega
  simp [elem, hw]

theorem elem_e2m1_high (x j : Nat) : elem (tyWidth 15) (2 * j + 1) x = (x >>> (8 * j)) % 256 / 16 := by
  have hw : 4 * (2 * j + 1) = 8 * j + 4 := by omega
  have hs : x >>> (4 * (2 * j + 1)) = (x >>> (8 * j)) / 16 := by
    rw [hw, Nat.shiftRight_add, Nat.shiftRight_eq_div_pow (x >>> (8 * j))]
  calc elem (tyWidth 15) (2 * j + 1) x
      = (x >>> (8 * j)) / 16 % 16 := by simp [elem, hs]
    _ = (x >>> (8 * j)) % 256 / 16 := by omega

/-- Byte j of the number that a list of bytes makes is the list's byte j, 0 past its end. -/
theorem ofBytes_byte (l : List Byte) (j : Nat) : (ofBytes l >>> (8 * j)) % 256 = (l.getD j 0).toNat := by
  induction l generalizing j with
  | nil => simp [ofBytes]
  | cons b t ih =>
    have hb : b.toNat < 256 := b.isLt
    cases j with
    | zero => simp only [Nat.mul_zero, Nat.shiftRight_zero, ofBytes, List.getD_cons_zero]; omega
    | succ j =>
      have hs : ofBytes (b :: t) >>> 8 = ofBytes t := by
        rw [Nat.shiftRight_eq_div_pow, ofBytes]; omega
      rw [Nat.mul_succ, Nat.add_comm, Nat.shiftRight_add, hs, ih, List.getD_cons_succ]

theorem bufBytes_getD {n j : Nat} (b : Block) (buf off : Nat) (h : j < n) :
    (bufBytes b buf off n).getD j 0 = bufGet b buf (off + j) := by
  simp [bufBytes, upto, h]

theorem readEls_getD {n i : Nat} (b : Block) (buf off t : Nat) (h : i < n) :
    (readEls b buf off t n).getD i 0 = elem (tyWidth t) i (ofBytes (bufBytes b buf off (elBytes t n))) := by
  simp [readEls, elem, upto, h]

/-- Byte j of the bytes that n elements of E2M1 take, where element 2j + 1 is one of them. -/
theorem bufBytes_e2m1_byte {n j : Nat} (b : Block) (buf off : Nat) (h : 2 * j + 1 < n) :
    (ofBytes (bufBytes b buf off (elBytes 15 n)) >>> (8 * j)) % 256 = (bufGet b buf (off + j)).toNat := by
  have hj : j < elBytes 15 n := by rw [elBytes, tyWidth_e2m1]; omega
  rw [ofBytes_byte, bufBytes_getD b buf off hj]

theorem readEls_e2m1_low {n j : Nat} (b : Block) (buf off : Nat) (h : 2 * j + 1 < n) :
    (readEls b buf off 15 n).getD (2 * j) 0 = (bufGet b buf (off + j)).toNat % 16 := by
  rw [readEls_getD b buf off 15 (Nat.lt_of_succ_lt h), elem_e2m1_low, ← bufBytes_e2m1_byte b buf off h]
  omega

theorem readEls_e2m1_high {n j : Nat} (b : Block) (buf off : Nat) (h : 2 * j + 1 < n) :
    (readEls b buf off 15 n).getD (2 * j + 1) 0 = (bufGet b buf (off + j)).toNat / 16 := by
  rw [readEls_getD b buf off 15 h, elem_e2m1_high, bufBytes_e2m1_byte b buf off h]

/-- Settles O55: the table is checked code by code in both directions; the packing holds because byte j of a buffer's number is
bits [8j+7:8j] of it, whose two halves are elements 2j and 2j + 1. -/
theorem e2m1HasSixteenValues : Obligations.E2m1HasSixteenValues := by
  unfold Obligations.E2m1HasSixteenValues
  refine ⟨fun p hp => ⟨fConv_e2m1_f32_exact p hp, fConv_f32_e2m1_exact p hp⟩,
    fun x j => ⟨elem_e2m1_low x j, elem_e2m1_high x j⟩, fun b buf off n j h _ => ?_⟩
  exact ⟨readEls_e2m1_low b buf off h, readEls_e2m1_high b buf off h⟩

end Sys2Proof.Machine
end

section
/-! SUPPORT. Words whose whole effect is a change of their own wave: each completes. -/

namespace Sys2Proof.Machine

/-- A body's whole effect is to change its own wave as an update says. -/
def Does (body : IC → State → Eff) (u : Upd) : Prop := ∀ k s, body k s = .done (modWave s k.wid (u k))

/-- A word that passes its checks and whose body changes its wave by r completes with the wave so changed. -/
theorem exec_completes_of_done {f : WordForm} {body : IC → State → Eff} {k : IC} {s : State} {r : Wave → Wave}
    (h : Passes f.sp k s) (he : exec f.i s = issueWord f.sp body s) (hb : body k s = .done (modWave s k.wid r)) :
    ∃ t, exec f.i s = .next t ∧ Completed s t k f.sp.u.words (r k.w) :=
  ⟨_, he.trans (issueWord_done h hb), completed_of_wave h.offered.wave⟩

/-- A word that passes its checks and whose body meets its trap condition. -/
theorem exec_traps_of_trap {f : WordForm} {body : IC → State → Eff} {k : IC} {s s' : State} {t : TrapInfo}
    (h : Passes f.sp k s) (he : exec f.i s = issueWord f.sp body s) (hb : body k s = .trap s' t) :
    exec f.i s = .next (trapsWith f.sp k s' t) := he.trans (issueWord_trap h hb)

theorem EachCompletes.nil : EachCompletes [] := fun _ hp => absurd hp List.not_mem_nil

/-- One word more, whose body may use that its fields are the word's. -/
theorem EachCompletes.cons {f : WordForm} {u : Upd} {l : List (WordForm × Upd)} {body : IC → State → Eff}
    (he : ∀ s, exec f.i s = issueWord f.sp body s)
    (hb : ∀ k s, k.u = f.sp.u → body k s = .done (modWave s k.wid (u k))) (hl : EachCompletes l) :
    EachCompletes ((f, u) :: l) := by
  intro p hp k s h
  rcases List.mem_cons.mp hp with rfl | hp
  · exact exec_completes_of_done h (he s) (hb k s h.offered.fields)
  · exact hl p hp k s h

/-- One word more. -/
theorem EachCompletes.one {f : WordForm} {u : Upd} {l : List (WordForm × Upd)} (body : IC → State → Eff) (hb : Does body u)
    (he : ∀ s, exec f.i s = issueWord f.sp body s) (hl : EachCompletes l) : EachCompletes ((f, u) :: l) :=
  .cons he (fun k s _ => hb k s) hl

/-- The one-word and the two-word form of a mnemonic, which share their body. -/
theorem EachCompletes.pair {f g : WordForm} {u : Upd} {l : List (WordForm × Upd)} (body : IC → State → Eff) (hb : Does body u)
    (hf : ∀ s, exec f.i s = issueWord f.sp body s) (hg : ∀ s, exec g.i s = issueWord g.sp body s) (hl : EachCompletes l) :
    EachCompletes ((f, u) :: (g, u) :: l) :=
  .one body hb hf (.one body hb hg hl)

end Sys2Proof.Machine
end

section
/-! SUPPORT. The predicate words of class 0 (R128). -/

namespace Sys2Proof.Machine

theorem prOp2_does (f : Lanes → Lanes → Lanes) :
    Does (prOp2 f) (writeP (fun k => f (prGet k.w k.u.a) (prGet k.w k.u.b))) := fun _ _ => rfl
theorem prToS_does : Does prToS (writeS (fun k => prGet k.w k.u.a &&& allLanes k.w.width)) := fun _ _ => rfl
theorem prFromS_does : Does prFromS (writeP (fun k => sVal k k.u.a)) := fun _ _ => rfl

theorem predicateWords_complete (w : CW) : EachCompletes (predicateWords w) := by
  refine .one _ (prOp2_does (· &&& ·)) (fun _ => rfl) ?_
  refine .one _ (prOp2_does (· ||| ·)) (fun _ => rfl) ?_
  refine .one _ (prOp2_does (· ^^^ ·)) (fun _ => rfl) ?_
  refine .one _ (prOp2_does (fun p _ => ~~~p)) (fun _ => rfl) ?_
  refine .one _ (prOp2_does (fun p _ => p)) (fun _ => rfl) ?_
  refine .one _ prFromS_does (fun _ => rfl) ?_
  exact .one _ prToS_does (fun _ => rfl) .nil

end Sys2Proof.Machine
end

section
/-! SUPPORT. The integer mould of class 1 (R124). -/

namespace Sys2Proof.Machine

theorem veInt_does (f : AluOp) : Does (veInt f) (writeV (wideAt 5) (aluV f)) := fun _ _ => rfl
theorem veInt1_does (f : AluOp) : Does (veInt1 f) (writeV (wideAt 5) (aluV1 f)) := fun _ _ => rfl

theorem vectorIntWords_complete (w : CW) (m : ModW) : EachCompletes (vectorIntWords w m) := by
  refine .pair _ (veInt_does .add) (fun _ => rfl) (fun _ => rfl) ?_
  refine .pair _ (veInt_does .sub) (fun _ => rfl) (fun _ => rfl) ?_
  refine .pair _ (veInt_does .mul) (fun _ => rfl) (fun _ => rfl) ?_
  refine .pair _ (veInt_does .mulhi) (fun _ => rfl) (fun _ => rfl) ?_
  refine .pair _ (veInt_does .and) (fun _ => rfl) (fun _ => rfl) ?_
  refine .pair _ (veInt_does .or) (fun _ => rfl) (fun _ => rfl) ?_
  refine .pair _ (veInt_does .xor) (fun _ => rfl) (fun _ => rfl) ?_
  refine .pair _ (veInt_does .shl) (fun _ => rfl) (fun _ => rfl) ?_
  refine .pair _ (veInt_does .shr) (fun _ => rfl) (fun _ => rfl) ?_
  refine .pair _ (veInt_does .sra) (fun _ => rfl) (fun _ => rfl) ?_
  refine .pair _ (veInt_does .min) (fun _ => rfl) (fun _ => rfl) ?_
  refine .pair _ (veInt_does .max) (fun _ => rfl) (fun _ => rfl) ?_
  refine .pair _ (veInt1_does .not) (fun _ => rfl) (fun _ => rfl) ?_
  refine .pair _ (veInt1_does .abs) (fun _ => rfl) (fun _ => rfl) ?_
  refine .pair _ (veInt1_does .neg) (fun _ => rfl) (fun _ => rfl) ?_
  refine .pair _ (veInt1_does .clz) (fun _ => rfl) (fun _ => rfl) ?_
  exact .pair _ (veInt1_does .popc) (fun _ => rfl) (fun _ => rfl) .nil

end Sys2Proof.Machine
end

section
/-! SUPPORT. Immediates, multiply-adds, bit fields, selections and moves of class 1, and its floating bit operations (R125, R126,
R129, R132). -/

namespace Sys2Proof.Machine

theorem tyOf_default {u : UW} (h : u.ty = 0) (d : Nat) : tyOf u d = d := by rw [tyOf, h]; rfl

/-- An immediate word names no type, so that VADDI works at its card's (R125). -/
theorem veAddI_done {k : IC} (s : State) (h : k.u.ty = 0) : veAddI k s = .done (modWave s k.wid
    (writeV (fun _ => false) (fun k l => aluBits .add true false 32 (laneA 5 k l) (wrapI 32 (immS k.u))) k)) := by
  have hl : ∀ l, vVal k 5 k.u.a l = laneA 5 k l := fun l => by rw [laneA, tyOf_default h]
  simp only [veAddI, setV, hl]
  rfl

theorem veMovI_does : Does veMovI (writeV (fun _ => false) (fun k _ => wrapI 32 (immS k.u))) := fun _ _ => rfl
theorem veMad_does : Does veMad (writeV (wideAt 5) madV) := fun _ _ => rfl
theorem veDot4_does : Does veDot4 (writeV (fun _ => false) dot4V) := fun _ _ => rfl
theorem veBfe_does : Does veBfe (writeV (fun _ => false) (fun k l =>
    bfe (tyOf k.u 6 == 5) 32 (vVal k 6 k.u.a l) (fieldPos 32 (vVal k 6 k.u.b l)) (fieldLen 32 (vVal k 6 k.u.b l)))) :=
  fun _ _ => rfl
theorem veBfi_does : Does veBfi (writeV (fun _ => false) (fun k l =>
    bfi 32 (vVal k 6 k.u.d l) (vVal k 6 k.u.a l) (fieldPos 32 (vVal k 6 k.u.b l)) (fieldLen 32 (vVal k 6 k.u.b l)))) :=
  fun _ _ => rfl
theorem veSel_does : Does veSel (writeV (wideAt 6) (fun k l =>
    if (prGet k.w (bits k.u.card 4 0)).getLsbD l then laneA 6 k l else vVal k (tyOf k.u 6) k.u.b l)) := fun _ _ => rfl
theorem veMov_does : Does veMov (writeV (wideAt 6) (laneA 6)) := fun _ _ => rfl
theorem veBcast_does : Does veBcast (writeV (wideAt 6) (fun k _ => srcA k % 2 ^ tyWidth (tyOf k.u 6))) := fun _ _ => rfl

/-- VFABS and VFNEG map each element's bits, without and with a change of sign (R129). -/
theorem vfSign_does (neg : Bool) : Does (vfSign neg) (writeV (wideAt 10) (fun k l => mapEl (tyOf k.u 10) (fun j =>
    (fun x w => if neg then x ^^^ 2 ^ (w - 1) else x % 2 ^ (w - 1))
      (elem (tyWidth (tyOf k.u 10)) j (laneA 10 k l)) (tyWidth (tyOf k.u 10))))) := fun _ _ => rfl

theorem vfClass_does : Does vfClass (writeV (fun _ => false) (fun k l =>
    let c := fun j => classBit (fmtOf (tyOf k.u 10)) (elem (tyWidth (tyOf k.u 10)) j (laneA 10 k l))
    if elemsOf (tyOf k.u 10) == 2 then c 0 + 2 ^ 16 * c 1 else c 0)) := fun _ _ => rfl

theorem vectorMoveWords_complete (w : CW) (v : IW) (m : ModW) (x : XW) : EachCompletes (vectorMoveWords w v m x) := by
  refine .cons (body := veAddI) (fun _ => rfl) (fun k s hu => veAddI_done s (congrArg UW.ty hu)) ?_
  refine .cons (body := veAddI) (fun _ => rfl) (fun k s hu => veAddI_done s (congrArg UW.ty hu)) ?_
  refine .pair _ veMovI_does (fun _ => rfl) (fun _ => rfl) ?_
  refine .one _ veMad_does (fun _ => rfl) ?_
  refine .one _ veDot4_does (fun _ => rfl) ?_
  refine .pair _ veBfe_does (fun _ => rfl) (fun _ => rfl) ?_
  refine .pair _ veBfi_does (fun _ => rfl) (fun _ => rfl) ?_
  refine .pair _ veSel_does (fun _ => rfl) (fun _ => rfl) ?_
  refine .pair _ veMov_does (fun _ => rfl) (fun _ => rfl) ?_
  refine .pair _ veBcast_does (fun _ => rfl) (fun _ => rfl) ?_
  refine .pair _ (vfSign_does false) (fun _ => rfl) (fun _ => rfl) ?_
  refine .pair _ (vfSign_does true) (fun _ => rfl) (fun _ => rfl) ?_
  exact .pair _ vfClass_does (fun _ => rfl) (fun _ => rfl) .nil

end Sys2Proof.Machine
end

section
/-! SUPPORT. Shuffles, matches, votes, the lane read and comparisons (R127, R137 to R139, R142, R143). -/

namespace Sys2Proof.Machine

theorem xlShuffle_does (src : IC → Nat → Nat) :
    Does (xlShuffle src) (writeV (wideAt 6) (fun k l => laneA 6 k (src k l))) := fun _ _ => rfl
theorem xlMatch_does : Does xlMatch (writeV (fun k => k.w.width == 64) (fun k l =>
    (laneSet ((lanesOf k.live).filter (fun j => laneA 6 k j == laneA 6 k l))).toNat)) := fun _ _ => rfl
theorem veLane_does : Does veLane (writeS (fun k => w64 (laneA 6 k (srcB k % k.w.width)))) := fun _ _ => rfl

/-- The four modes of VVOTE: the live bits themselves, any, all, and all alike (R139). -/
theorem xlVote_does : Does xlVote (writeS (fun k =>
    let p := prGet k.w k.u.a &&& k.live
    match bits k.u.card 1 0 with
    | 0 => p
    | 1 => if p != 0 then 1 else 0
    | 2 => if p == k.live then 1 else 0
    | _ => if p == k.live || p == 0 then 1 else 0)) := fun _ _ => rfl

theorem veCmp_does : Does veCmp (fun k => writeL k.u.d (fun k l =>
    let v := fun f => sval (isSigned (tyOf k.u 5)) (tyWidth (tyOf k.u 5)) (vVal k (tyOf k.u 5) f l)
    cmpInt (bits k.u.card 2 0) (v k.u.a) (v k.u.b)) k) := fun _ _ => rfl

theorem crossLaneWords_complete (w : CW) (m : ModW) : EachCompletes (crossLaneWords w m) := by
  refine .pair _ (xlShuffle_does srcIdx) (fun _ => rfl) (fun _ => rfl) ?_
  refine .pair _ (xlShuffle_does srcXor) (fun _ => rfl) (fun _ => rfl) ?_
  refine .pair _ (xlShuffle_does srcUp) (fun _ => rfl) (fun _ => rfl) ?_
  refine .pair _ (xlShuffle_does srcDn) (fun _ => rfl) (fun _ => rfl) ?_
  refine .pair _ xlMatch_does (fun _ => rfl) (fun _ => rfl) ?_
  refine .pair _ veLane_does (fun _ => rfl) (fun _ => rfl) ?_
  refine .pair _ xlVote_does (fun _ => rfl) (fun _ => rfl) ?_
  exact .pair _ veCmp_does (fun _ => rfl) (fun _ => rfl) .nil

/-- Settles O3: the body of every word of the four lists changes its own wave alone, by the update that the list names; so a word
that passes its checks completes with that change. -/
theorem vectorWordsComplete : Obligations.VectorWordsComplete :=
  ⟨predicateWords_complete, vectorIntWords_complete, vectorMoveWords_complete, crossLaneWords_complete⟩

end Sys2Proof.Machine
end

section
/-! SUPPORT. Rankings, reductions and scans (R140, R141, R144). -/

namespace Sys2Proof.Machine

/-- The lanes that VTOPK selects, first place first: the live lanes whose value is a number, by value, then by lane (R144). -/
def topSel (k : IC) : List Nat :=
  let t := tyOf k.u 10
  let cand := (lanesOf k.live).filter (fun l => !(isFltTy t && isNan (unpack f32 (vVal k t k.u.a l))))
  (sortBy (topBefore k t (bit k.u.card 0)) cand).take (min (srcB k) k.w.width)

/-- What VTOPK does to its wave: ranks to v_d, then the selected lanes to p_c (R144). -/
def writeTop (k : IC) (w : Wave) : Wave :=
  writeL k.u.c (fun _ l => (topSel k).contains l) k
    (writeV (fun _ => false) (fun _ l => if (topSel k).contains l then (topSel k).idxOf l else 0xFFFFFFFF) k w)

theorem xlTopk_does : Does xlTopk writeTop := fun k s => congrArg Eff.done (modWave_modWave s k.wid _ _)

theorem redTrap_eq_none {k : IC} {e : Exc} (h : e.traps (modeOf k) = false) : redTrap k e = none := if_neg (ne_true_of_eq_false h)
theorem redTrap_eq_some {k : IC} {e : Exc} (h : e.traps (modeOf k) = true) :
    redTrap k e = some { cause := 0x10, sub := e.sub, fmask := k.live } := if_pos h

/-- The fold of a reduction word over all lanes, those that are not live standing for the identity, with its exceptions (R140). -/
def redResult (o : RedOp) (k : IC) : Nat × Exc :=
  let t := tyOf k.u 5
  redTree (redStep o k t) (Nat.log2 k.w.width)
    ((upto k.w.width).map (fun l => if k.live.getLsbD l then vVal k t k.u.a l else redIdent o t)) {}

theorem xlRed_done {o : RedOp} {k : IC} (s : State) (h : (redResult o k).2.traps (modeOf k) = false) :
    xlRed o k s = .done (modWave s k.wid
      (writeS (fun _ => ext64 (tyOf k.u 5 == 5) (tyWidth (tyOf k.u 5)) (redResult o k).1) k)) := by
  unfold xlRed
  dsimp only
  split
  case h_1 i hi => exact absurd ((redTrap_eq_none h).symm.trans hi) nofun
  case h_2 => rfl

theorem xlRed_trap {o : RedOp} {k : IC} (s : State) (h : (redResult o k).2.traps (modeOf k) = true) :
    xlRed o k s = .trap s { cause := 0x10, sub := (redResult o k).2.sub, fmask := k.live } := by
  unfold xlRed
  dsimp only
  split
  case h_1 i hi => rw [← Option.some.inj ((redTrap_eq_some h).symm.trans hi)]
  case h_2 hi => exact absurd ((redTrap_eq_some h).symm.trans hi) nofun

/-- The operation that a scan's card selects (R141). -/
def scanOp (k : IC) : RedOp := match bits k.u.card 2 1 with | 0 => .add | 1 => .min | _ => .max

/-- What a scan gives each live lane, with its exceptions (R141). -/
def scanResult (k : IC) : List (Nat × Nat) × Exc :=
  scanRun (redStep (scanOp k) { k with u := { k.u with card := 0 } } (tyOf k.u 5)) (bit k.u.card 0)
    (vVal k (tyOf k.u 5) k.u.a) (lanesOf k.live) (redIdent (scanOp k) (tyOf k.u 5))

theorem xlScan_done {k : IC} (s : State) (h : (scanResult k).2.traps (modeOf k) = false) :
    xlScan k s = .done (modWave s k.wid (writeV (fun _ => false) (fun _ l => tgetD (scanResult k).1 l 0) k)) := by
  unfold xlScan
  dsimp only
  split
  case h_1 i hi => exact absurd ((redTrap_eq_none h).symm.trans hi) nofun
  case h_2 => rfl

theorem xlScan_trap {k : IC} (s : State) (h : (scanResult k).2.traps (modeOf k) = true) :
    xlScan k s = .trap s { cause := 0x10, sub := (scanResult k).2.sub, fmask := k.live } := by
  unfold xlScan
  dsimp only
  split
  case h_1 i hi => rw [← Option.some.inj ((redTrap_eq_some h).symm.trans hi)]
  case h_2 hi => exact absurd ((redTrap_eq_some h).symm.trans hi) nofun

theorem topkForms_complete (w : CW) (m : ModW) : EachCompletes ((topkForms w m).map (·, writeTop)) :=
  .one _ xlTopk_does (fun _ => rfl) .nil

/-- Every reduction word runs the body of its operation. -/
theorem reduceWords_exec (w : CW) (m : ModW) :
    ∀ p ∈ reduceWords w m, ∀ s, exec p.1.i s = issueWord p.1.sp (xlRed p.2) s := by
  simp only [reduceWords, List.forall_mem_cons]
  exact ⟨fun _ => rfl, fun _ => rfl, fun _ => rfl, fun _ => rfl, fun _ => rfl, fun _ => rfl, List.forall_mem_nil _⟩

/-- Both forms of VSCAN run its body. -/
theorem scanForms_exec (w : CW) (m : ModW) : ∀ f ∈ scanForms w m, ∀ s, exec f.i s = issueWord f.sp xlScan s := by
  simp only [scanForms, List.forall_mem_cons]
  exact ⟨fun _ => rfl, fun _ => rfl, List.forall_mem_nil _⟩

/-- Settles O4: VTOPK's body changes its own wave alone; a reduction's and a scan's does where no enabled exception is raised in its
fold, and else meets the trap of the whole word. -/
theorem rankingsReductionsAndScansComplete : Obligations.RankingsReductionsAndScansComplete := by
  refine ⟨fun w m f hf k s h => ?_, fun w m p hp k s h => ⟨fun ht => ?_, fun ht => ?_⟩,
    fun w m f hf k s h => ⟨fun ht => ?_, fun ht => ?_⟩⟩
  · exact topkForms_complete w m (f, writeTop) (List.mem_map_of_mem hf) k s h
  · exact exec_completes_of_done h (reduceWords_exec w m p hp s) (xlRed_done s ht)
  · exact exec_traps_of_trap h (reduceWords_exec w m p hp s) (xlRed_trap s ht)
  · exact exec_completes_of_done h (scanForms_exec w m f hf s) (xlScan_done s ht)
  · exact exec_traps_of_trap h (scanForms_exec w m f hf s) (xlScan_trap s ht)

end Sys2Proof.Machine
end

section
/-! SUPPORT. TIDEF (R145, R146), and what TSWEEP and TWALK share: when nothing holds back the accesses that they will make. -/

namespace Sys2Proof.Machine

theorem itDef_bad {k : IC} (s : State) {bad : Nat} (h : iterBad (iterAt k) = some bad) :
    itDef k s = .trap s { cause := 2, sub := bad } := by simp only [itDef, h]

theorem itDef_done {k : IC} (s : State) (h : iterBad (iterAt k) = none) :
    itDef k s = .done (modWave s k.wid (fun w =>
      putScalars w (sNum k k.u.d) (iterInit (iterAt k) k.u.scope k.u.order))) := by simp only [itDef, h]

/-- No write is on its way to a line that the addresses lie in, no outstanding access of the wave touches their elements of n bytes,
and the load counter has room (R148, R149). -/
def AccessesFree (k : IC) (s : State) (n : Nat) (pas : List Nat) : Prop :=
  linesBusy s k.core pas = false ∧ (∀ pa ∈ pas, storeHeld k s [⟨0, 0, pa⟩] n = false) ∧ k.w.cnt.load < 63

/-- The check of the iterator words passes where the accesses are free. -/
theorem accessesFree_check {k : IC} {s : State} {n : Nat} {pas : List Nat} (h : AccessesFree k s n pas) :
    (linesBusy s k.core pas || pas.any (fun pa => storeHeld k s [⟨0, 0, pa⟩] n) || !hasRoom k .load) = false := by
  obtain ⟨hbusy, hheld, hroom⟩ := h
  have hany : pas.any (fun pa => storeHeld k s [⟨0, 0, pa⟩] n) = false :=
    List.any_eq_false.mpr fun pa hpa => ne_true_of_eq_false (hheld pa hpa)
  have hload : hasRoom k .load = true := decide_eq_true hroom
  simp only [hbusy, hany, hload, Bool.or_false, Bool.not_true]

/-- The counter of free choices is no part of what holds an access back. -/
theorem AccessesFree.fresh {k : IC} {s : State} {n : Nat} {pas : List Nat} (h : AccessesFree k s n pas) (c : Nat) :
    AccessesFree k { s with fresh := c } n pas := h

end Sys2Proof.Machine
end

section
/-! SUPPORT. TSWEEP (R147, R148): it refuses a bad record, and runs its elements once their accesses are free. -/

namespace Sys2Proof.Machine

/-- The records and operations that TSWEEP accepts (R147). -/
def SweepForm (r : Iter) (code : Nat) : Prop :=
  r.valid = true ∧ r.progress ≤ r.count ∧ r.type ∈ iterTys ∧ ¬(isFltTy r.type = true ∧ 5 ≤ code ∧ code ≤ 7)

/-- TSWEEP's check of its record and operation finds no fault exactly where it accepts them. -/
theorem sweepForm_check (r : Iter) (code : Nat) :
    (!r.valid || decide (r.progress > r.count) || !iterTys.contains r.type ||
      !!(isFltTy r.type && decide (5 ≤ code) && decide (code ≤ 7))) = false ↔ SweepForm r code := by
  have hop : (isFltTy r.type && decide (5 ≤ code) && decide (code ≤ 7)) = false ↔
      ¬(isFltTy r.type = true ∧ 5 ≤ code ∧ code ≤ 7) := by
    rw [← Bool.not_eq_true, Bool.and_eq_true, Bool.and_eq_true, decide_eq_true_eq, decide_eq_true_eq, and_assoc]
  rw [Bool.or_eq_false_iff, Bool.or_eq_false_iff, Bool.or_eq_false_iff, Bool.not_not, Bool.not_eq_false', Bool.not_eq_false',
    decide_eq_false_iff_not, Nat.not_lt, List.contains_iff_mem, hop, and_assoc, and_assoc]
  exact Iff.rfl

/-- What TSWEEP looks at before its first element: the walks to make and the addresses of the elements that are left. -/
def sweepPass (k : IC) (s : State) : List Nat × List Nat :=
  let r := iterAt k
  prepass k s r (sweepAccs r k.u.card) ((upto (r.count - r.progress)).map (fun i => r.progress + i))

/-- The state in which TSWEEP takes its first element. -/
def sweepStart (k : IC) (s : State) : State := sweepDrain k s (iterAt k) (sweepPass k s).2

/-- The end of the run over the elements that are left. -/
def sweepResult (k : IC) (s : State) : SweepEnd :=
  let r := iterAt k
  sweepRun k r k.u.card (r.count - r.progress) r.progress (sweepStart k s)

/-- TSWEEP as its run has ended (R148). -/
def sweepEff (k : IC) : SweepEnd → Eff
  | .lost s1 => .set (replayFail s1 k.wid)
  | .at_ s1 e t => .trap (modWave s1 k.wid (fun w => putS w (progSym k) (withProgress (iterAt k) e))) t
  | .all s1 => .done (produce k s1 .load .s [progSym k]
      (.vals [] [(progSym k, withProgress (iterAt k) (iterAt k).count)] [] [] [])).2

theorem itSweep_ill {k : IC} {s : State} (ha : acqHeld k s = false) (hf : ¬SweepForm (iterAt k) k.u.card) :
    itSweep k s = .trap s { cause := 2, sub := 0 } := by
  unfold itSweep
  dsimp only
  rw [if_neg (ne_true_of_eq_false ha), if_pos (eq_true_of_ne_false (mt (sweepForm_check _ _).mp hf))]

theorem itSweep_runs {k : IC} {s : State} (ha : acqHeld k s = false) (hf : SweepForm (iterAt k) k.u.card)
    (hp : (sweepPass k s).1 = []) (hfree : AccessesFree k (sweepStart k s) (iterAt k).size (sweepPass k s).2) :
    itSweep k s = sweepEff k (sweepResult k s) := by
  have hform := ne_true_of_eq_false ((sweepForm_check _ _).mpr hf)
  have hwalk : ¬((sweepPass k s).1 != []) = true := by rw [hp]; decide
  have hwait := ne_true_of_eq_false (accessesFree_check hfree)
  unfold itSweep
  dsimp only
  rw [if_neg (ne_true_of_eq_false ha), if_neg hform]
  exact (if_neg hwalk).trans ((if_neg hwait).trans rfl)

end Sys2Proof.Machine
end

section
/-! SUPPORT. TWALK (R149): it refuses a bad record, and folds its segments once their accesses are free. -/

namespace Sys2Proof.Machine

/-- The records that TWALK accepts (R149). -/
def WalkForm (r : Iter) : Prop := r.valid = true ∧ r.type ∈ iterTys ∧ isFltTy r.type = false

/-- TWALK's check of its record finds no fault exactly where it accepts it. -/
theorem walkForm_check (r : Iter) :
    (!r.valid || !iterTys.contains r.type || isFltTy r.type) = false ↔ WalkForm r := by
  rw [Bool.or_eq_false_iff, Bool.or_eq_false_iff, Bool.not_eq_false', Bool.not_eq_false', List.contains_iff_mem, and_assoc]
  exact Iff.rfl

/-- The segments that are not done, in the order that the state draws. -/
def walkTodo (k : IC) (s : State) : List Nat := walkSegs (iterAt k) (Config.walkOrder s.fresh)

/-- The state once TWALK has drawn its order. -/
def walkStart (s : State) : State := { s with fresh := s.fresh + 1 }

/-- What TWALK looks at before its first segment: the walks to make and the addresses of the elements of its segments. -/
def walkPass (k : IC) (s : State) : List Nat × List Nat :=
  let r := iterAt k
  prepass k (walkStart s) r (fun e => [(r.addr 1 e, false)]) ((walkTodo k s).flatMap (segElems r.count))

/-- The end of the walk over the segments that are not done. -/
def walkResult (k : IC) (s : State) : WalkEnd :=
  walkRun k (iterAt k) k.u.card (walkTodo k s) (walkStart s) (scGet k.w (sNum k k.u.d)) (walkDone (iterAt k))

/-- TWALK as its walk has ended (R149). -/
def walkEff (k : IC) : WalkEnd → Eff
  | .lost s1 => .set (replayFail s1 k.wid)
  | .at_ s1 acc prog t => .trap (modWave s1 k.wid (fun w =>
      putS (putS w (sNum k k.u.d) acc) (progSym k) (withProgress (iterAt k) prog))) t
  | .all s1 acc => .done (produce k s1 .load .s [sNum k k.u.d, progSym k]
      (.vals [] [(sNum k k.u.d, acc), (progSym k, withProgress (iterAt k) 0xFFFFFFFF)] [] [] [])).2

theorem itWalk_ill {k : IC} {s : State} (ha : acqHeld k s = false) (hf : ¬WalkForm (iterAt k)) :
    itWalk k s = .trap s { cause := 2, sub := 0 } := by
  unfold itWalk
  dsimp only
  rw [if_neg (ne_true_of_eq_false ha), if_pos (eq_true_of_ne_false (mt (walkForm_check _).mp hf))]

theorem itWalk_runs {k : IC} {s : State} (ha : acqHeld k s = false) (hf : WalkForm (iterAt k))
    (hp : (walkPass k s).1 = []) (hfree : AccessesFree k s (iterAt k).size (walkPass k s).2) :
    itWalk k s = walkEff k (walkResult k s) := by
  have hform := ne_true_of_eq_false ((walkForm_check _).mpr hf)
  have hwalk : ¬((walkPass k s).1 != []) = true := by rw [hp]; decide
  have hwait := ne_true_of_eq_false (accessesFree_check (hfree.fresh (s.fresh + 1)))
  unfold itWalk
  dsimp only
  rw [if_neg (ne_true_of_eq_false ha), if_neg hform]
  exact (if_neg hwalk).trans ((if_neg hwait).trans rfl)

end Sys2Proof.Machine
end

section
/-! SUPPORT. The iterator words (R145 to R149). -/

namespace Sys2Proof.Machine

/-- A word that passes its checks and whose body enters an operation completes with the operation entered and its destinations
empty. -/
theorem exec_completes_of_produce {f : WordForm} {body : IC → State → Eff} {k : IC} {s s1 : State} {c : CntK} {cls : SymCls}
    {nums : List Nat} {b : Body} (h : Passes f.sp k s) (he : exec f.i s = issueWord f.sp body s)
    (hb : body k s = .done (produce k s1 c cls nums b).2) :
    exec f.i s = .next (completes f.sp k (modWave (entered s1 (opNow k s1 c b)) k.wid
      (fun w => markEmpty (cntUp w c) cls nums s1.nextId))) := by
  rw [he, issueWord_done h hb, produce_eq]

theorem tidefForms_exec (w : CW) (n : MemW) : ∀ f ∈ tidefForms w n, ∀ s, exec f.i s = issueWord f.sp itDef s :=
  List.forall_mem_singleton.mpr fun _ => rfl
theorem tsweepForms_exec (w : CW) (n : MemW) : ∀ f ∈ tsweepForms w n, ∀ s, exec f.i s = issueWord f.sp itSweep s :=
  List.forall_mem_singleton.mpr fun _ => rfl
theorem twalkForms_exec (w : CW) (n : MemW) : ∀ f ∈ twalkForms w n, ∀ s, exec f.i s = issueWord f.sp itWalk s :=
  List.forall_mem_singleton.mpr fun _ => rfl

/-- Settles O26: each body refuses what its rule refuses; past that, TIDEF changes its own wave alone, and TSWEEP and TWALK, where
nothing holds their accesses back, end as their run over the elements or segments ends. -/
theorem iteratorWordsComplete : Obligations.IteratorWordsComplete := by
  refine ⟨fun w n f hf k s h => ?_, fun w n f hf k s h ha => ?_, fun w n f hf k s h ha => ?_⟩
  · have he := tidefForms_exec w n f hf s
    exact ⟨fun bad hbad => exec_traps_of_trap h he (itDef_bad s hbad),
      fun hgood => exec_completes_of_done h he (itDef_done s hgood)⟩
  · have he := tsweepForms_exec w n f hf s
    refine ⟨fun hill => exec_traps_of_trap h he (itSweep_ill ha hill), fun hgood ⟨hp, hfree⟩ s1 hr => ?_,
      fun hgood ⟨hp, hfree⟩ s1 e t hr => ?_⟩ <;>
      have hrun := (itSweep_runs ha hgood hp hfree).trans (congrArg (sweepEff k) hr)
    · exact exec_completes_of_produce h he hrun
    · exact exec_traps_of_trap h he hrun
  · have he := twalkForms_exec w n f hf s
    refine ⟨fun hill => exec_traps_of_trap h he (itWalk_ill ha hill), fun hgood ⟨hp, hfree⟩ s1 acc hr => ?_,
      fun hgood ⟨hp, hfree⟩ s1 acc prog t hr => ?_⟩ <;>
      have hrun := (itWalk_runs ha hgood hp hfree).trans (congrArg (walkEff k) hr)
    · exact exec_completes_of_produce h he hrun
    · exact exec_traps_of_trap h he hrun

end Sys2Proof.Machine
end

section
/-! SUPPORT. What the device reads for itself (R181, R314, R345): the storage, the copies that a recall combines, and the contexts.
Waves, and what they have read, do not enter into it. -/

namespace Sys2Proof.Machine

/-- The state with its storage alone: bytes, poison, and the device's own registers, which place its memory. -/
def storeOf (s : State) : State := { mem := s.mem, dev := s.dev, poison := s.poison }

/-- The state with what the device reads by: its storage, the L1 lines and the contexts. -/
def devView (s : State) : State := { storeOf s with l1 := s.l1, ctxs := s.ctxs }

/-! What leaves the storage alone. -/

/-- A fold of steps that leave the storage alone leaves it alone. -/
theorem foldl_store {α : Type} (f : State → α → State) (hf : ∀ s a, storeOf (f s a) = storeOf s) (l : List α) (s : State) :
    storeOf (l.foldl f s) = storeOf s :=
  foldl_keeps (fun t => storeOf t = storeOf s) f (fun t a h => (hf t a).trans h) l s rfl

@[simp] theorem storeOf_modWave (s : State) (i : Nat) (f : Wave → Wave) : storeOf (modWave s i f) = storeOf s := rfl
@[simp] theorem storeOf_setWave (s : State) (i : Nat) (w : Wave) : storeOf (setWave s i w) = storeOf s := rfl
@[simp] theorem storeOf_modSlice (s : State) (g : Nat) (f : Slice → Slice) : storeOf (modSlice s g f) = storeOf s := rfl
@[simp] theorem storeOf_dropLine (s : State) (cid ln : Nat) : storeOf (dropLine s cid ln) = storeOf s := rfl
@[simp] theorem storeOf_dropResv (s : State) (lns : List Nat) : storeOf (dropResv s lns) = storeOf s := rfl
@[simp] theorem storeOf_acquireTime (s : State) (wid : Nat) : storeOf (acquireTime s wid) = storeOf s := rfl
@[simp] theorem storeOf_acquireFetch (s : State) (wid : Nat) : storeOf (acquireFetch s wid) = storeOf s := rfl
@[simp] theorem storeOf_raiseCacheT (s : State) (cid ctx name t : Nat) : storeOf (raiseCacheT s cid ctx name t) = storeOf s := rfl

@[simp] theorem storeOf_dropClean (s : State) (cid ln : Nat) : storeOf (dropClean s cid ln) = storeOf s := by
  unfold dropClean
  split <;> rfl

@[simp] theorem storeOf_modMons (s : State) (g : Nat) (f : List Mon → List Mon) : storeOf (modMons s g f) = storeOf s := by
  unfold modMons
  split <;> rfl

@[simp] theorem storeOf_acquireL1 (s : State) (core scope : Nat) : storeOf (acquireL1 s core scope) = storeOf s := by
  unfold acquireL1
  split
  · rfl
  · refine foldl_store _ ?_ _ _
    intros
    rfl

@[simp] theorem storeOf_acquireBy (s : State) (wid core scope : Nat) : storeOf (acquireBy s wid core scope) = storeOf s := by
  unfold acquireBy
  dsimp only
  split <;> split <;> simp

@[simp] theorem storeOf_wakeMon (s : State) (wid : Nat) (b : Bool) (m : MonReq) (x : Nat) :
    storeOf (wakeMon s wid b m x) = storeOf s := by
  unfold wakeMon
  split
  · rfl
  · dsimp only
    split <;> simp

@[simp] theorem storeOf_checkMons (s : State) (g : Nat) (touch : Nat → Bool) : storeOf (checkMons s g touch) = storeOf s := by
  unfold checkMons
  refine foldl_store _ (fun t e => ?_) _ _
  split
  · split
    · rfl
    · split <;> simp
  · rfl

@[simp] theorem storeOf_freeFar (s : State) (g : Nat) (touch : Nat → Bool) : storeOf (freeFar s g touch) = storeOf s := by
  unfold freeFar
  split <;> rfl

/-! Bytes performed at their home change the storage by what the storage holds. -/

/-- The bytes that a write performs: those of storage, at a home that has not departed (R297, R401). -/
def liveBytes (s : State) (bytes : Tbl Byte) : Tbl Byte := bytes.filter (fun e => isStorage s e.1 && !departed s e.1)

theorem liveBytes_store (s : State) (bytes : Tbl Byte) : liveBytes (storeOf s) bytes = liveBytes s bytes := rfl

/-- The storage once its bytes are written. -/
def storeWrite (s : State) (bytes : Tbl Byte) : State :=
  clearPois ((liveBytes s bytes).foldl (fun s e => wrByte s e.1 e.2) s) (liveBytes s bytes)

theorem storeOf_performBytes (s : State) (bytes : Tbl Byte) :
    storeOf (performBytes s bytes).1 = storeWrite (storeOf s) bytes := by
  have hcheck (touch : Nat → Bool) (gs : List Nat) (t : State) :
      storeOf (gs.foldl (fun t g => freeFar (checkMons t g touch) g touch) t) = storeOf t :=
    foldl_store _ (fun t g => (storeOf_freeFar _ g touch).trans (storeOf_checkMons t g touch)) gs t
  have hwrite (l : Tbl Byte) : storeOf (l.foldl (fun s e => wrByte s e.1 e.2) s) =
      l.foldl (fun s e => wrByte s e.1 e.2) (storeOf s) :=
    (List.foldl_hom storeOf (fun _ _ => rfl)).symm
  have hdone : storeOf (clearPois ((liveBytes s bytes).foldl (fun s e => wrByte s e.1 e.2) s) (liveBytes s bytes)) =
      storeWrite (storeOf s) bytes := by
    rw [storeWrite, liveBytes_store, ← hwrite]
    rfl
  unfold performBytes
  dsimp only
  split
  · rw [storeOf_checkMons, hcheck, storeOf_dropResv]
    exact hdone
  · rw [hcheck, storeOf_dropResv]
    exact hdone

theorem unitPois_storeOf (s : State) (pa : Nat) : unitPois (storeOf s) pa = unitPois s pa := rfl
theorem rdNum_storeOf (s : State) (pa n : Nat) : rdNum (storeOf s) pa n = rdNum s pa n := rfl
theorem rdByte_storeOf (s : State) (pa : Nat) : rdByte (storeOf s) pa = rdByte s pa := rfl

section
variable {s t : State} (h : storeOf s = storeOf t)
include h

theorem unitPois_of_store (pa : Nat) : unitPois s pa = unitPois t pa := by
  rw [← unitPois_storeOf, h, unitPois_storeOf]
theorem rdNum_of_store (pa n : Nat) : rdNum s pa n = rdNum t pa n := by
  rw [← rdNum_storeOf, h, rdNum_storeOf]
theorem rdByte_of_store (pa : Nat) : rdByte s pa = rdByte t pa := by
  rw [← rdByte_storeOf, h, rdByte_storeOf]

theorem combineElem_store (pa code size c : Nat) :
    storeOf (combineElem s pa code size c).1 = storeOf (combineElem t pa code size c).1 := by
  simp only [combineElem, unitPois_of_store h, rdNum_of_store h]
  split
  · exact h
  · rw [storeOf_performBytes, storeOf_performBytes, h]

theorem recallFrom_store (cid ctx ln code size : Nat) (el : Tbl Nat) :
    storeOf (recallFrom s cid ctx ln code size el).1 = storeOf (recallFrom t cid ctx ln code size el).1 := by
  unfold recallFrom
  dsimp only
  rw [storeOf_raiseCacheT, storeOf_raiseCacheT]
  exact List.foldl_rel (r := fun p q : State × Nat => storeOf p.1 = storeOf q.1) h
    (fun e _ _ _ hp => combineElem_store hp (ln * 128 + e.1) code size e.2)

/-- A recall changes the storage by the storage and the lines held. -/
theorem recallLine_store (hl : s.l1 = t.l1) (ln : Nat) : storeOf (recallLine s ln) = storeOf (recallLine t ln) := by
  unfold recallLine recallLineT
  rw [hl]
  refine List.foldl_rel (r := fun p q : State × Nat => storeOf p.1 = storeOf q.1) h (fun e _ p q hp => ?_)
  split
  · exact recallFrom_store hp ..
  · exact hp

end

/-! What the device reads stands in its view. -/

@[simp] theorem peekNum_devView (s : State) (pa n : Nat) : peekNum (devView s) pa n = peekNum s pa n := by
  have hview : storeOf (devView s) = storeOf s := rfl
  have hs := recallLine_store hview rfl (lineOf (canonPa s pa))
  exact congrArg ofBytes (List.map_congr_left fun i _ => rdByte_of_store hs (pa + i))

@[simp] theorem walkFrom_devView (s : State) (va : Nat) (levels : List Nat) (table : Nat) :
    walkFrom (devView s) va levels table = walkFrom s va levels table := by
  induction levels generalizing table with
  | nil => rfl
  | cons level rest ih =>
    have hpois : unitPois (devView s) = unitPois s := rfl
    have hstore : isStorage (devView s) = isStorage s := rfl
    have hpte : pteOf (devView s) = pteOf s := rfl
    simp only [walkFrom, peekNum_devView, ih, hpois, hstore, hpte]

@[simp] theorem devXlat_devView (s : State) (ctx va : Nat) (write : Bool) :
    devXlat (devView s) ctx va write = devXlat s ctx va write := by
  have hwalk : walkTable (devView s) ctx va = walkTable s ctx va := walkFrom_devView ..
  have hpa : leafPa (devView s) = leafPa s := rfl
  have hstore : isStorage (devView s) = isStorage s := rfl
  simp only [devXlat, hwalk, hpa, hstore]

@[simp] theorem devWord_devView (s : State) (ctx va : Nat) : devWord (devView s) ctx va = devWord s ctx va := by
  simp only [devWord, devXlat_devView, peekNum_devView]

@[simp] theorem variantAt_devView (s : State) (ctx addr : Nat) : variantAt (devView s) ctx addr = variantAt s ctx addr := by
  have hctx : ctxOf (devView s) ctx = ctxOf s ctx := rfl
  simp only [variantAt, devWord_devView, hctx]

/-- The handler registered for a context does not depend on the waves. -/
@[simp] theorem handlerOf_devView (s : State) (ctx width : Nat) : handlerOf (devView s) ctx width = handlerOf s ctx width := by
  have hctx : ctxOf (devView s) ctx = ctxOf s ctx := rfl
  simp only [handlerOf, variantAt_devView, hctx]

end Sys2Proof.Machine
end

section
/-! SUPPORT. A trap is taken (R231, R233, R234): what its record's first word holds, and how the record is delivered. -/

namespace Sys2Proof.Machine

/-! The first word of the record. -/

theorem lowLane_lt (m : Lanes) : lowLane m < 64 := by
  unfold lowLane
  cases h : lanesOf m with
  | nil => decide
  | cons l r =>
    have hl : l ∈ lanesOf m := h ▸ List.mem_cons_self
    exact List.mem_range.mp (List.mem_filter.mp hl).1

/-- Below the subcode, the cause, the faulting lane and the two flags of word 0 fill bits [15:0] (R231). -/
theorem record_flags_lt {cause : Nat} (slotB flv : Bool) (m : Lanes) (hc : cause < 256) :
    (if slotB then 2 ^ 15 else 0) + (if flv then 2 ^ 14 else 0) + lowLane m * 2 ^ 8 + cause < 2 ^ 16 := by
  have hl := lowLane_lt m
  cases slotB <;> cases flv <;> simp only [if_true, Bool.false_eq_true, if_false] <;> omega

theorem mkRecord_head (now : Nat) (b : Block) (x : Slot) (slotB : Bool) (p : Site) (t : TrapInfo) :
    (mkRecord now b x slotB p t).getD 0 0 = w64 (t.sub * 2 ^ 32 + (if slotB then 2 ^ 15 else 0) +
      (if t.fmask != 0 then 2 ^ 14 else 0) + lowLane t.fmask * 2 ^ 8 + t.cause) := rfl

/-- Word 0 of a record as a number: nothing of it is cut off. -/
theorem mkRecord_head_toNat (now : Nat) (b : Block) (x : Slot) (slotB : Bool) (p : Site) {t : TrapInfo}
    (hc : t.cause < 256) (hs : t.sub < 2 ^ 32) :
    ((mkRecord now b x slotB p t).getD 0 0).toNat = t.sub * 2 ^ 32 +
      ((if slotB then 2 ^ 15 else 0) + (if t.fmask != 0 then 2 ^ 14 else 0) + lowLane t.fmask * 2 ^ 8 + t.cause) := by
  have hlow := record_flags_lt slotB (t.fmask != 0) t.fmask hc
  rw [mkRecord_head, w64, BitVec.toNat_ofNat, Nat.mod_eq_of_lt (by omega)]
  omega

theorem mkRecord_cause (now : Nat) (b : Block) (x : Slot) (slotB : Bool) (p : Site) {t : TrapInfo}
    (hc : t.cause < 256) (hs : t.sub < 2 ^ 32) : ((mkRecord now b x slotB p t).getD 0 0).toNat % 256 = t.cause := by
  rw [mkRecord_head_toNat now b x slotB p hc hs]
  split <;> split <;> omega

theorem mkRecord_sub (now : Nat) (b : Block) (x : Slot) (slotB : Bool) (p : Site) {t : TrapInfo}
    (hc : t.cause < 256) (hs : t.sub < 2 ^ 32) : ((mkRecord now b x slotB p t).getD 0 0).toNat / 2 ^ 32 = t.sub := by
  have hlow := record_flags_lt slotB (t.fmask != 0) t.fmask hc
  rw [mkRecord_head_toNat now b x slotB p hc hs]
  omega

/-! What a read of the counter leaves alone. -/

theorem sawTime_wave {s : State} {wid : Nat} {w : Wave} (v : Nat) (hw : tget s.waves wid = some w) :
    tget (sawTime s wid v).waves wid = some { w with tmin := max w.tmin v } := by
  simp only [sawTime, modWave, tget_tmod_self, hw, Option.map_some]

@[simp] theorem blockOf_sawTime (s : State) (wid v : Nat) (w : Wave) : blockOf (sawTime s wid v) w = blockOf s w := rfl

@[simp] theorem handlerOf_sawTime (s : State) (wid v ctx width : Nat) :
    handlerOf (sawTime s wid v) ctx width = handlerOf s ctx width :=
  (handlerOf_devView (sawTime s wid v) ctx width).symm.trans (handlerOf_devView s ctx width)

/-! What a parked slot leaves of its wave. -/

/-- The wave whose slot has parked with its record, as it waits for its handler (R233). -/
def parkedWith (w : Wave) (slotB atHdr : Bool) (rec : List W64) : Wave :=
  { modSlot w slotB (fun x => { x with park := .trapped, phase := 0, walked := [] }) with
    trap := some { words := rec, slotB := slotB, atHdr := atHdr, handler := none } }

theorem parkedWith_park (w : Wave) (slotB atHdr : Bool) (rec : List W64) :
    (slotOf (parkedWith w slotB atHdr rec) slotB).park = .trapped := by cases slotB <;> rfl
theorem slotOf_parkedWith_other (w : Wave) (slotB atHdr : Bool) (rec : List W64) :
    slotOf (parkedWith w slotB atHdr rec) (!slotB) = slotOf w (!slotB) := by cases slotB <;> rfl
@[simp] theorem parkedWith_trap (w : Wave) (slotB atHdr : Bool) (rec : List W64) :
    (parkedWith w slotB atHdr rec).trap = some { words := rec, slotB := slotB, atHdr := atHdr, handler := none } := rfl
@[simp] theorem parkedWith_sc (w : Wave) (slotB atHdr : Bool) (rec : List W64) :
    (parkedWith w slotB atHdr rec).sc = w.sc := by cases slotB <;> rfl
@[simp] theorem parkedWith_ve (w : Wave) (slotB atHdr : Bool) (rec : List W64) :
    (parkedWith w slotB atHdr rec).ve = w.ve := by cases slotB <;> rfl
@[simp] theorem parkedWith_preds (w : Wave) (slotB atHdr : Bool) (rec : List W64) :
    (parkedWith w slotB atHdr rec).preds = w.preds := by cases slotB <;> rfl
@[simp] theorem parkedWith_cnt (w : Wave) (slotB atHdr : Bool) (rec : List W64) :
    (parkedWith w slotB atHdr rec).cnt = w.cnt := by cases slotB <;> rfl

/-! The delivery of a record. -/

section
variable {s : State} {wid : Nat} {w : Wave} {b : Block} (hw : tget s.waves wid = some w)
include hw

theorem deliverTrap_parks (slotB atHdr : Bool) (rec : List W64) (hp : w.parent = none)
    (hh : handlerOf s w.ctx w.width ≠ none) :
    deliverTrap s wid slotB atHdr rec = setWave s wid (parkedWith w slotB atHdr rec) := by
  obtain ⟨v, hv⟩ := Option.ne_none_iff_exists'.mp hh
  simp only [deliverTrap, hw, hp, hv, parkedWith]

theorem deliverTrap_kills (slotB atHdr : Bool) (rec : List W64) (hb : blockOf s w = some b) (hp : w.parent = none)
    (hh : handlerOf s w.ctx w.width = none) :
    deliverTrap s wid slotB atHdr rec = killWave (faultLog s w.ctx rec b.idx w.idx 1) wid := by
  simp only [deliverTrap, hw, hb, hp, hh, Option.elim_some]

theorem deliverTrap_kills_parent {pid : Nat} (slotB atHdr : Bool) (rec : List W64) (hb : blockOf s w = some b)
    (hp : w.parent = some pid) :
    deliverTrap s wid slotB atHdr rec =
      killWave (faultLog (faultLog s w.ctx (((tget s.waves pid).bind (·.trap)).elim [] (·.words)) b.idx w.idx 2)
        w.ctx rec b.idx w.idx 3) pid := by
  simp only [deliverTrap, hw, hb, hp, Option.elim_some]

/-- A trap is taken by reading the counter and delivering the record. -/
theorem takeTrap_eq (slotB : Bool) (p : Site) (t : TrapInfo) (hb : blockOf s w = some b) :
    takeTrap s wid slotB p t = deliverTrap (sawTime s wid (waveClock s w b.core)) wid slotB p.atHdr
      (mkRecord (waveClock s w b.core) b (slotOf w slotB) slotB p t) := by
  simp only [takeTrap, hw, hb]

end

/-- Settles O33: a trap reads the counter, which changes neither its wave's block nor its context's handler, and then its record
is delivered in one of the three ways. -/
theorem trapsAreTaken : Obligations.TrapsAreTaken := by
  intro s wid slotB p t w b hw hb
  dsimp only
  have hw1 := sawTime_wave (waveClock s w b.core) hw
  rw [takeTrap_eq hw slotB p t hb]
  refine ⟨fun hc hs => ⟨mkRecord_cause _ b _ slotB p hc hs, mkRecord_sub _ b _ slotB p hc hs⟩, fun hp hh => ?_,
    fun hp hh => ?_, fun pid hp => ?_⟩
  · exact ⟨_, deliverTrap_parks hw1 slotB p.atHdr _ hp (mt (handlerOf_sawTime ..).symm.trans hh), parkedWith_park ..,
      slotOf_parkedWith_other .., parkedWith_trap .., parkedWith_sc .., parkedWith_ve .., parkedWith_preds .., parkedWith_cnt ..⟩
  · exact deliverTrap_kills hw1 slotB p.atHdr _ hb hp ((handlerOf_sawTime ..).trans hh)
  · exact ⟨_, deliverTrap_kills_parent hw1 slotB p.atHdr _ hb hp⟩

end Sys2Proof.Machine
end

section
/-! SUPPORT. The Harness moves blocks (R241 to R256, R339, R355 to R358): what each of its choices does where the rules allow it. -/

namespace Sys2Proof.Machine

/-! Shares (R250, R355). -/

theorem shareRecompute_idle {s : State} {core : Nat} (h : (coreOf s core).shareDue = false) :
    exec (.shareRecompute core) s = .next s := by
  change execShareRecompute core s = _
  simp only [execShareRecompute, h, Bool.not_false, if_true]

theorem shareRecompute_marks {s : State} {core : Nat} (h : (coreOf s core).shareDue = true) :
    exec (.shareRecompute core) s = .next (modCore { s with blocks := s.blocks.map (fun e =>
      let sh := shareOf s e.2.ctx core
      if e.2.core = core ∧ e.2.res = .resident ∧ e.2.handler = false ∧ e.2.mark = false ∧ sh < e.2.budget then
        (e.1, { e.2 with mark := true, newBudget := budgetOf sh })
      else e) } core (fun c => { c with shareDue := false })) := by
  change execShareRecompute core s = _
  simp only [execShareRecompute, h, Bool.not_true, Bool.false_eq_true, if_false, Bool.and_eq_true, beq_iff_eq,
    Bool.not_eq_true', decide_eq_true_eq, and_assoc]

/-! A resident block is moved or leaves (R251, R252, R254 to R257). -/

section
variable {s : State} {blk : Nat} {b : Block} (hb : tget s.blocks blk = some b) (hn : b.handler = false) (hr : b.res = .resident)
include hb hn hr

theorem rebindMove_moves (hm : b.mark = true) (hs : blockStopped s b false = true) :
    exec (.rebindMove blk) s = .next (shareDueOn (modCtx (modBlock (moveSymbols s b) blk (fun x => { x with
      budget := x.newBudget, mark := false, area := newArea s blk b })) b.ctx
      (fun c => { c with rebind := satInc c.rebind })) [b.core]) := by
  change execRebindMove blk s = _
  simp [execRebindMove, hb, hn, hr, hm, hs]

/-- A block whose waves all wait outside leaves; the last of its group to leave saves the group's quads. -/
theorem blockSwapOut_leaves {g : Group} (hh : stopHolds s b.core = false) (hl : mayLeave s b = true)
    (he : engineBusy s b false = false) (hc : receivesCopy s blk b.core = false) :
    let s1 := modCtx (leaveCore (hadSlice s b.grp false) blk b .swapped) b.ctx (fun c => { c with swap := satInc c.swap })
    tget s1.groups b.grp = some g →
      exec (.blockSwapOut blk) s = .next (if groupHere s1 g then s1 else saveQuads s1 b.grp g) := by
  dsimp only
  intro hg
  have hguard : (b.handler || b.res != .resident || stopHolds s b.core || !mayLeave s b || engineBusy s b false ||
      receivesCopy s blk b.core) = false := by simp [hn, hr, hh, hl, he, hc]
  change execBlockSwapOut blk s = _
  simp only [execBlockSwapOut, hb, hguard, hg, Bool.false_eq_true, if_false]

theorem blockPreempt_leaves (hm : b.preMark = true) (hs : blockStopped s b true = true) (he : engineBusy s b true = false)
    (hc : receivesCopy s blk b.core = false) :
    exec (.blockPreempt blk) s = .next (modCtx (leaveCore (hadSlice s b.grp true) blk b .preempted) b.ctx
      (fun c => { c with preempted := satInc c.preempted })) := by
  change execBlockPreempt blk s = _
  simp [execBlockPreempt, hb, hn, hr, hm, hs, he, hc]

end

/-! A group's slice (R356). -/

section
variable {s : State} {grp : Nat} {g : Group} (hg : tget s.groups grp = some g)
include hg

theorem timeSliceExpiry_early (h : (ctxOf s g.ctx).tslice.toNat = 0 ∨ s.now < g.since + (ctxOf s g.ctx).tslice.toNat) :
    exec (.timeSliceExpiry grp) s = .next s := by
  change execTimeSliceExpiry grp s = _
  rcases h with h | h <;> simp [execTimeSliceExpiry, hg, h]

theorem timeSliceExpiry_yields {o : SliceWait} (hr : g.retired = false) (hh : groupHere s g = true)
    (ht : (ctxOf s g.ctx).tslice.toNat ≠ 0) (hd : g.since + (ctxOf s g.ctx).tslice.toNat ≤ s.now)
    (ho : waitingOther s g.rope g.ctx = some o) :
    exec (.timeSliceExpiry grp) s = .next (g.blocks.foldl (fun s k => modBlock s k (fun b =>
      if b.res = .resident then { b with preMark := true, sliceFor := some o } else b)) s) := by
  change execTimeSliceExpiry grp s = _
  simp [execTimeSliceExpiry, hg, hr, hh, ht, Nat.not_lt.mpr hd, ho]

end

/-! A block returns (R256, R358). -/

section
variable {s : State} {blk core : Nat} {b : Block} {g : Group} (hb : tget s.blocks blk = some b)
  (hg : tget s.groups b.grp = some g) (hm : mayReturn s b = true) (ht : ropeTakes s b (ropeOfCore core) = true)
include hb hg hm ht

theorem blockSwapIn_enters {v : Nat} {area : Nat × Nat} (hp : returnPlace s blk b core = some (v, area)) :
    exec (.blockSwapIn blk core) s = .next (enterBlock s blk b g core v area) := by
  change execBlockSwapIn blk core s = _
  simp [execBlockSwapIn, hb, hg, hm, ht, hp]

theorem blockSwapIn_waits (hp : returnPlace s blk b core = none) :
    exec (.blockSwapIn blk core) s = .next (repoint (shareDueOn
      (modCore s core (fun c => { c with wantB := c.wantB.filter (· ≠ blk) ++ [blk] })) [core]) (ropeOfCore core)) := by
  change execBlockSwapIn blk core s = _
  simp [execBlockSwapIn, hb, hg, hm, ht, hp]

end

/-! A launch's next group is placed (R241, R339). -/

/-- Where nothing goes first, the next group of an offered launch is placed, or it waits on the cores chosen. -/
theorem ropeGroupPlacement_eq {s : State} {lid rope : Nat} {cores : List Nat} {l : Launch} {v : Variant}
    (hl : tget s.launches lid = some l) (hv : l.var = some v) (ho : l.st = .offered) (hx : (ctxOf s l.ctx).st = 1)
    (hr : rope < Config.ropes) (hn : cores.length = (nextGroup l v).2.length) (hc : ∀ c ∈ cores, ropeOfCore c = rope)
    (ha : awayFirst s cores = false) (hf : offeredFirst s lid rope cores = false) :
    exec (.ropeGroupPlacement lid rope cores) s = .next ((groupPlaces s lid l v rope cores).elim
      (wantCores s lid rope cores.eraseDups) (placeGroup s lid l v rope)) := by
  have hon : cores.any (fun c => ropeOfCore c != rope) = false := by simpa using hc
  change execRopeGroupPlacement lid rope cores s = _
  simp only [execRopeGroupPlacement, hl, hv, ho, hx, hn, hon, ha, hf, Nat.not_le.mpr hr]
  cases groupPlaces s lid l v rope cores <;> simp

/-- Settles O43: each row acts where its guard lets it, and what it then leaves is the state named. What a move leaves in symbols
that are not live, the packing of group places, the save area and which waves count as stopped are the model's choices of log
entries 7, 14, 19 and 22. -/
theorem harnessMovesBlocks : Obligations.HarnessMovesBlocks := by
  refine ⟨fun s core => ⟨shareRecompute_idle, fun h => ⟨_, shareRecompute_marks h, rfl, ?_, rfl, rfl⟩⟩,
    fun s blk b hb hn hr => ⟨rebindMove_moves hb hn hr, fun hh hl he hc => ⟨fun g hg here => ?_, fun g hg gone => ?_⟩,
      blockPreempt_leaves hb hn hr⟩,
    fun s grp g hg hr hh => ⟨timeSliceExpiry_early hg, fun ht hd o => timeSliceExpiry_yields hg hr hh ht hd⟩,
    fun s blk core b g hb hg hm ht => ⟨fun v area => blockSwapIn_enters hb hg hm ht, blockSwapIn_waits hb hg hm ht⟩,
    fun s lid rope cores l v hl hv ho hx hr hn hc ha hf => ⟨fun ps hp => ?_, fun hp => ?_⟩⟩
  · rw [coreOf_modCore, if_pos rfl]; rfl
  · exact (blockSwapOut_leaves hb hn hr hh hl he hc hg).trans (congrArg _ (if_pos here))
  · exact (blockSwapOut_leaves hb hn hr hh hl he hc hg).trans (congrArg _ (if_neg (Bool.eq_false_iff.mp gone)))
  · rw [ropeGroupPlacement_eq hl hv ho hx hr hn hc ha hf, hp, Option.elim_some]
  · rw [ropeGroupPlacement_eq hl hv ho hx hr hn hc ha hf, hp, Option.elim_none]

end Sys2Proof.Machine
end

section
/-! SUPPORT. Bytes performed at their homes (R267): what each address reads once they are written. -/

namespace Sys2Proof.Machine

/-- Bytes written one after the other. -/
def writeBytes (s : State) (bytes : Tbl Byte) : State := bytes.foldl (fun s e => wrByte s e.1 e.2) s

@[simp] theorem writeBytes_cons (s : State) (e : Nat × Byte) (bytes : Tbl Byte) :
    writeBytes s (e :: bytes) = writeBytes (wrByte s e.1 e.2) bytes := rfl

/-- An address that no written byte lies at reads as before; a write of memory changes no address's form (`canonPa`). -/
theorem rdByte_writeBytes_other {s : State} {bytes : Tbl Byte} {a : Nat}
    (h : ∀ e ∈ bytes, canonPa s e.1 ≠ canonPa s a) : rdByte (writeBytes s bytes) a = rdByte s a := by
  induction bytes generalizing s with
  | nil => rfl
  | cons e rest ih =>
    obtain ⟨hhead, hrest⟩ := List.forall_mem_cons.mp h
    rw [writeBytes_cons, ih (s := wrByte s e.1 e.2) hrest, rdByte_wrByte, if_neg hhead.symm]

/-- Among bytes at distinct places each reads as written: the writes after it lie elsewhere. -/
theorem rdByte_writeBytes_mem {s : State} {bytes : Tbl Byte} (hd : (bytes.map (fun e => canonPa s e.1)).Nodup)
    {e : Nat × Byte} (he : e ∈ bytes) : rdByte (writeBytes s bytes) e.1 = e.2 := by
  induction bytes generalizing s with
  | nil => cases he
  | cons x rest ih =>
    obtain ⟨hfresh, hrest⟩ := List.nodup_cons.mp hd
    rw [writeBytes_cons]
    rcases List.mem_cons.mp he with rfl | he
    · rw [rdByte_writeBytes_other (s := wrByte s e.1 e.2) fun y hy heq => hfresh (List.mem_map.mpr ⟨y, hy, heq⟩),
        rdByte_wrByte, if_pos rfl]
    · exact ih (s := wrByte s x.1 x.2) hrest he

/-- Poison, monitors and reservations aside, a performed write reads as its live bytes written. -/
theorem rdByte_performBytes (s : State) (bytes : Tbl Byte) (a : Nat) :
    rdByte (performBytes s bytes).1 a = rdByte (writeBytes (storeOf s) (liveBytes s bytes)) a := by
  rw [← rdByte_storeOf, storeOf_performBytes]
  rfl

theorem liveBytes_of_all {s : State} {bytes : Tbl Byte} (h : ∀ e ∈ bytes, isStorage s e.1 = true ∧ departed s e.1 = false) :
    liveBytes s bytes = bytes :=
  List.filter_eq_self.mpr fun e he => by simp [h e he]

/-- Settles O20: every byte is live, so a read sees the bytes written one after the other; the writes to other places change
neither a byte written nor any byte outside them. -/
theorem performedWritesChangeTheirBytesOnly : Obligations.PerformedWritesChangeTheirBytesOnly := by
  intro s bytes hlive hd
  dsimp only
  simp only [rdByte_performBytes, liveBytes_of_all hlive]
  exact ⟨fun e he => rdByte_writeBytes_mem (s := storeOf s) hd he, fun a ha => rdByte_writeBytes_other (s := storeOf s) ha⟩

end Sys2Proof.Machine
end

section
/-! SUPPORT. Contexts change (R318, R321, R322, R328, R349, R350, R356, R360, R361): what a write of a context's record does, and
how a reset completes. -/

namespace Sys2Proof.Machine

/-- A bit of a word as a number is that bit of the word. -/
theorem bit_toNat {w : Nat} (v : BitVec w) (i : Nat) : bit v.toNat i = v.getLsbD i := by
  rw [← BitVec.testBit_toNat, Nat.testBit_eq_decide_div_mod_eq, bit, Nat.shiftRight_eq_div_pow]
  rfl

/-! Who reaches the record (R349). -/

theorem fnCtxWrite_owner {s : State} {fn c : Nat} (hc : c < Config.contexts) (ha : s.dev.answering = true)
    (hb : s.dev.bootOk = true) (ho : ownerFn s c = fn) (n v : Nat) : fnCtxWrite s fn c n v = ctxWrite s c n v := by
  simp [fnCtxWrite, isOwner, hc, ha, hb, ho]

theorem fnCtxWrite_other {s : State} {fn c : Nat} (ho : ownerFn s c ≠ fn) (n v : Nat) : fnCtxWrite s fn c n v = s := by
  simp [fnCtxWrite, isOwner, ho]

/-! A write of word 0 (R350, R360). -/

theorem ctxWrite_word0 {s : State} {c : Nat} (hx : (ctxOf s c).st ≠ 2) (v : Nat) : ctxWrite s c 0 v = writeWord0 s c v := by
  simp [ctxWrite, hx]

/-- A grant or a revocation of the debug right touches no record and no memory. -/
theorem debugRight_frame (grant revoke : Bool) (s : State) (c : Nat) :
    let t := if grant then dbgGrant s c else if revoke then dbgRevoke s c else s
    t.mem = s.mem ∧ t.ctxs = s.ctxs := by
  cases grant <;> cases revoke <;> exact ⟨rfl, rfl⟩

/-- A free context that EN enables takes its Reset column and the fields of the word. -/
theorem writeWord0_enables {s : State} {c v : Nat} (hx : (ctxOf s c).st = 0) (he : bit v 0 = true) (hf : bit v 1 = false) :
    (writeWord0 s c v).mem = s.mem ∧
      ctxOf (writeWord0 s c v) c = { word0 (ctxReset (word0 (ctxOf s c) v) 1) v with en := true } := by
  simp only [writeWord0, hx, he, hf, beq_self_eq_true, if_true, Bool.false_eq_true, if_false]
  obtain ⟨hmem, hctxs⟩ := debugRight_frame (!(ctxOf s c).dbg && bit v 6) ((ctxOf s c).dbg && !bit v 6)
    (modCtx s c (fun x => word0 x v)) c
  refine ⟨hmem, ?_⟩
  rw [ctxOf_modCtx, if_pos rfl, ctxOf, hctxs, ← ctxOf, ctxOf_modCtx, if_pos rfl]

section
variable {s : State} {c v : Nat} (hx : (ctxOf s c).st = 1)
include hx

theorem writeWord0_tearsDown (hd : bit v 6 = (ctxOf s c).dbg) (he : bit v 0 = false) :
    writeWord0 s c v = ctxStop (modCtx s c (fun x => word0 x v)) c true := by
  simp [writeWord0, hx, hd, he]

theorem writeWord0_resets (hd : bit v 6 = (ctxOf s c).dbg) (he : bit v 0 = true) (hf : bit v 1 = true) :
    writeWord0 s c v = ctxStop (modCtx s c (fun x => word0 x v)) c false := by
  simp [writeWord0, hx, hd, he, hf]

theorem writeWord0_grants (hr : (ctxOf s c).dbg = false) (hd : bit v 6 = true) (he : bit v 0 = true) (hf : bit v 1 = false) :
    writeWord0 s c v = dbgGrant (modCtx s c (fun x => word0 x v)) c := by
  simp [writeWord0, hx, hr, hd, he, hf]

theorem writeWord0_revokes (hr : (ctxOf s c).dbg = true) (hd : bit v 6 = false) (he : bit v 0 = true) (hf : bit v 1 = false) :
    writeWord0 s c v = dbgRevoke (modCtx s c (fun x => word0 x v)) c := by
  simp [writeWord0, hx, hr, hd, he, hf]

/-! Writes of words 18 and 19 (R318, R356). -/

theorem ctxWrite_preempts : ctxWrite s c 19 1 = { s with blocks := s.blocks.map (fun e =>
    if e.2.ctx = c ∧ e.2.handler = false ∧ e.2.res = .resident then (e.1, { e.2 with preMark := true }) else e) } := by
  simp [ctxWrite, hx, preemptCtx, bit, and_assoc]

theorem ctxWrite_answers {tag : Nat} (ht : tag < 4096) :
    ctxWrite s c 18 (tag % 4096 * 65536 + 1) = answerPage s c tag true ∧
      ctxWrite s c 18 (tag % 4096 * 65536 + 2) = answerPage s c tag false := by
  have answer (a : Nat) (ha : a < 4) : bits (tag % 4096 * 65536 + a) 1 0 = a := by
    simp only [bits, Nat.shiftRight_zero]
    omega
  have named (a : Nat) (ha : a < 4) : bits (tag % 4096 * 65536 + a) 27 16 = tag := by
    simp only [bits, Nat.shiftRight_eq_div_pow]
    omega
  constructor <;> simp [ctxWrite, hx, answer, named]

end

/-- An answer ends its request, and every wave that has joined it issues again or traps. -/
theorem answerPage_found {s : State} {c tag : Nat} {p : PageReq} (retry : Bool)
    (hp : (ctxOf s c).preqs.find? (fun q => q.tag == tag) = some p) :
    answerPage s c tag retry = p.joined.foldl (fun s j => if retry then pageAgain s j.1 j.2 tag else pageTrap s j.1 j.2 tag)
      (modCtx s c (fun c => { c with preqs := c.preqs.filter (fun q => q.tag ≠ tag) })) := by
  simp only [answerPage, hp]

/-! A reset completes (R360, R361). -/

/-- With no write of the context on its way, what is left in the caches is performed, and the reset waits for its time or ends. -/
theorem contextResetComplete_eq {s : State} {c : Nat} (hx : (ctxOf s c).st = 2) (hw : ∀ e ∈ s.hw, e.2.ctx ≠ c) :
    let p := flushCtx s c
    let t := max (ctxT p.1 c) (max (ctxOf s c).drainT p.2)
    exec (.contextResetComplete c) s = .next (if p.1.now < t then modCtx p.1 c (fun x => { x with drainT := t })
      else modCtx (completeAll p.1 c 5) c (fun x => ctxReset x (if x.tearing then 0 else 1))) := by
  have hnone : s.hw.any (fun e => e.2.ctx == c) = false := by simpa using hw
  change execContextResetComplete c s = _
  simp only [execContextResetComplete, hx, hnone, bne_self_eq_false, Bool.or_self, Bool.false_eq_true, if_false]
  exact (apply_ite Host.Outcome.next ..).symm

/-- Settles O44: each row is one write of a word of the record, which the owner alone reaches, and the bits that a row sets or clears
in word 0 choose the branch of the write. That the packets which a reset cuts short complete as it completes is the DEDUCED choice of
log entry 30. -/
theorem contextsChange : Obligations.ContextsChange := by
  refine ⟨fun s fn c v hc ha hb ho => ?_, fun s fn c tag v ho i hi => ?_, fun s c hx hw => ?_⟩
  · have writes (n v : Nat) : fnCtxWrite s fn c n v = ctxWrite s c n v := fnCtxWrite_owner hc ha hb ho n v
    refine ⟨fun hx hf => ?_, fun hx => ?_⟩
    · obtain ⟨hmem, hctx⟩ := writeWord0_enables (v := (v ||| 1).toNat) hx (by rw [bit_toNat]; simp)
        (by rw [bit_toNat]; simpa using hf)
      refine ⟨_, congrArg Host.Outcome.next ((writes ..).trans (ctxWrite_word0 (by omega) _)), hmem, hctx.trans ?_⟩
      simp [word0, ctxReset]
    · have writes0 (v : Nat) : fnCtxWrite s fn c 0 v = writeWord0 s c v :=
        (writes ..).trans (ctxWrite_word0 (by omega) v)
      refine ⟨fun hd => ⟨congrArg Host.Outcome.next ?_, fun he => congrArg Host.Outcome.next ?_⟩,
        fun he hf => ⟨fun hr => congrArg Host.Outcome.next ?_, fun hr => congrArg Host.Outcome.next ?_⟩,
        congrArg Host.Outcome.next ?_, fun tag ht p hp => ⟨congrArg Host.Outcome.next ?_, congrArg Host.Outcome.next ?_⟩⟩
      · exact (writes0 _).trans (writeWord0_tearsDown hx (by rw [bit_toNat]; simpa using hd) (by rw [bit_toNat]; simp))
      · exact (writes0 _).trans (writeWord0_resets hx (by rw [bit_toNat]; simpa using hd) (by rw [bit_toNat]; simpa using he)
          (by rw [bit_toNat]; simp))
      · exact (writes0 _).trans (writeWord0_grants hx hr (by rw [bit_toNat]; simp) (by rw [bit_toNat]; simpa using he)
          (by rw [bit_toNat]; simpa using hf))
      · exact (writes0 _).trans (writeWord0_revokes hx hr (by rw [bit_toNat]; simp) (by rw [bit_toNat]; simpa using he)
          (by rw [bit_toNat]; simpa using hf))
      · exact (writes ..).trans (ctxWrite_preempts hx)
      · exact ((writes ..).trans (ctxWrite_answers hx ht).1).trans (answerPage_found true hp)
      · exact ((writes ..).trans (ctxWrite_answers hx ht).2).trans (answerPage_found false hp)
  · have ignored (n v : Nat) : Host.Outcome.next (fnCtxWrite s fn c n v) = (.next s : Out) :=
      congrArg _ (fnCtxWrite_other ho n v)
    simp only [List.mem_cons, List.not_mem_nil, or_false] at hi
    rcases hi with rfl | rfl | rfl | rfl | rfl | rfl | rfl | rfl <;> exact ignored _ _
  · dsimp only
    exact ⟨fun h => (contextResetComplete_eq hx hw).trans (congrArg _ (if_pos h)),
      fun h => (contextResetComplete_eq hx hw).trans (congrArg _ (if_neg (Nat.not_lt.mpr h)))⟩

end Sys2Proof.Machine
end

section
/-! SUPPORT. Recalls and an engine's write leave the device block as it is. -/

namespace Sys2Proof.Machine

theorem foldl_wrByte_dev (bytes : Tbl Byte) (s : State) : (bytes.foldl (fun s e => wrByte s e.1 e.2) s).dev = s.dev := by
  refine foldl_keeps (fun t => t.dev = s.dev) _ (fun t e h => ?_) bytes s rfl
  exact (wrByte_dev ..).trans h

@[simp] theorem performBytes_dev (s : State) (bytes : Tbl Byte) : (performBytes s bytes).1.dev = s.dev :=
  (congrArg State.dev (storeOf_performBytes s bytes)).trans (foldl_wrByte_dev _ (storeOf s))

@[simp] theorem combineElem_dev (s : State) (pa code size c : Nat) : (combineElem s pa code size c).1.dev = s.dev := by
  unfold combineElem
  split
  · rfl
  · exact performBytes_dev ..

@[simp] theorem recallFrom_dev (s : State) (cid ctx ln code size : Nat) (el : Tbl Nat) :
    (recallFrom s cid ctx ln code size el).1.dev = s.dev := by
  refine foldl_fst_keeps (fun t => t.dev = s.dev) _ (fun p x hp => ?_) el _ rfl
  exact (combineElem_dev ..).trans hp

@[simp] theorem recallLine_dev (s : State) (ln : Nat) : (recallLine s ln).dev = s.dev := by
  refine foldl_fst_keeps (fun t => t.dev = s.dev) _ (fun p e hp => ?_) s.l1 _ rfl
  split
  · exact (recallFrom_dev ..).trans hp
  · exact hp

@[simp] theorem engineWrite_dev (s : State) (pa : Nat) (bs : List Byte) : (engineWrite s pa bs).1.dev = s.dev :=
  (performBytes_dev ..).trans
    (foldl_keeps (fun t => t.dev = s.dev) recallLine (fun t ln h => (recallLine_dev t ln).trans h) _ s rfl)

end Sys2Proof.Machine
end

section
/-! SUPPORT. The device's resets and its domain (R297, R404 to R407): what each row does. -/

namespace Sys2Proof.Machine

/-! Who reaches the device block (R402, R410). -/

theorem fnDblkWrite_phys {s : State} {n : Nat} (h : dblkAnswers s n = true) (v : Nat) : fnDblkWrite s 0 n v = dblkWrite s n v := by
  simp [fnDblkWrite, h]

theorem dblkAnswers_booted {s : State} (ha : s.dev.answering = true) (hb : s.dev.bootOk = true) (n : Nat) :
    dblkAnswers s n = true := by
  simp [dblkAnswers, ha, hb]

/-- The words of staging and attestation answer after a failed verification too. -/
theorem dblkAnswers_staging {s : State} (ha : s.dev.answering = true) {n : Nat} (hl : 40 ≤ n) (hh : n ≤ 43) :
    dblkAnswers s n = true := by
  simp [dblkAnswers, ha, hl, hh]

/-! Resets (R405, R410). -/

theorem deviceReset_resets {s : State} {i : Instr}
    (hi : i = .deviceReset ∨ (i = .dreset 0 ∧ s.dev.answering = true ∧ s.dev.bootOk = true)) :
    exec i s = .next (resetDevice s) := by
  rcases hi with rfl | ⟨rfl, ha, hb⟩
  · rfl
  · exact congrArg Host.Outcome.next (fnDblkWrite_phys (dblkAnswers_booted ha hb 1) 1)

theorem bootRomVerification_eq (s : State) : exec (.bootRomVerification ()) s = .next (if s.dev.answering then s
    else { s with dev := { s.dev with answering := true, bootOk := fwOk s.dev (fwOf s.dev) } }) :=
  (apply_ite Host.Outcome.next ..).symm

/-- With no redeem of an episode under way, none of the episodes' records is left. -/
theorem functionLevelReset_phys {s : State} (h : ∀ e ∈ ((resetCtxs s 0).foldl (fun s c => ctxStop s c false) s).eps,
    e.2.redeems = []) : exec (.functionLevelReset 0) s =
      .next { (resetCtxs s 0).foldl (fun s c => ctxStop s c false) s with eps := [] } := by
  change execFunctionLevelReset 0 s = _
  simp only [execFunctionLevelReset, beq_self_eq_true, if_true, Host.Outcome.next.injEq, State.mk.injEq, true_and, and_true]
  exact List.filterMap_eq_nil_iff.mpr fun e he => by simp [h e he]

theorem functionLevelReset_virtual {s : State} {fn : Nat} (h : fn ≠ 0) :
    exec (.functionLevelReset fn) s = .next ((resetCtxs s fn).foldl (fun s c => ctxStop s c false) s) := by
  change execFunctionLevelReset fn s = _
  simp only [execFunctionLevelReset, beq_eq_false_iff_ne.mpr h, Bool.false_eq_true, if_false]

/-! The domain (R401, R406, R407). -/

theorem fabricPortTrained_eq (s : State) (port : Nat) : exec (.fabricPortTrained port) s =
    .next (if port < 18 then { s with dev := { s.dev with links := s.dev.links ||| (1#18 <<< port) } } else s) := rfl
theorem fabricPortFails_eq (s : State) (port : Nat) : exec (.fabricPortFails port) s =
    .next (if port < 18 then { s with dev := { s.dev with links := s.dev.links &&& ~~~(1#18 <<< port) } } else s) := rfl

/-- A field cleared reads 0: of its bits, those above the field and those below it come from x, and those between are 0. -/
theorem bits_setBits_zero (x hi lo : Nat) : bits (setBits x hi lo 0) hi lo = 0 := by
  refine Nat.eq_of_testBit_eq fun i => ?_
  simp only [bits, setBits, Nat.zero_mod, Nat.zero_shiftLeft, Nat.or_zero, Nat.testBit_mod_two_pow, Nat.testBit_shiftRight,
    Nat.testBit_or, Nat.testBit_shiftLeft, Nat.zero_testBit]
  by_cases hi' : i < hi + 1 - lo
  · have habove : ¬ hi + 1 ≤ lo + i := by omega
    have hbelow : ¬ lo + i < lo := by omega
    simp [habove, hbelow]
  · simp [hi']

theorem domainJoin_writes {s : State} {v : W64} (ha : s.dev.answering = true) (hb : s.dev.bootOk = true)
    (hv : bits v.toNat 40 32 ≠ 0) : exec (.domainJoin 0 v) s = .next (writeDomain s v.toNat) := by
  change execDomainJoin 0 v s = _
  simp only [execDomainJoin, beq_eq_false_iff_ne.mpr hv, Bool.false_eq_true, if_false, fnDblkWrite_phys (dblkAnswers_booted ha hb _)]
  rfl

theorem domainLeave_writes {s : State} (v : W64) (ha : s.dev.answering = true) (hb : s.dev.bootOk = true) :
    exec (.domainLeave 0 v) s = .next (writeDomain s (setBits v.toNat 40 32 0)) :=
  congrArg Host.Outcome.next (fnDblkWrite_phys (dblkAnswers_booted ha hb 16) _)

theorem writeDomain_joins {s : State} {v : Nat} (hd : s.dev.domsize = 0) : writeDomain s v = { s with dev := { s.dev with
    domid := BitVec.ofNat 16 (bits v 63 48), domsize := bits v 40 32, lost := [] } } := by
  simp only [writeDomain, hd, beq_self_eq_true, if_true]
  rfl

theorem writeDomain_resizes {s : State} {v : Nat} (hd : s.dev.domsize ≠ 0) (hv : bits v 40 32 ≠ 0) :
    writeDomain s v = { s with dev := { s.dev with domsize := bits v 40 32 } } := by
  simp only [writeDomain, beq_eq_false_iff_ne.mpr hd, beq_eq_false_iff_ne.mpr hv, Bool.false_eq_true, if_false]
  rfl

theorem writeDomain_leaves {s : State} {v : Nat} (hd : s.dev.domsize ≠ 0) (hv : bits v 40 32 = 0) :
    writeDomain s v = { dropPeer s (fun _ => true) with
      slices := s.slices.map (fun e => (e.1, { e.2 with farMons := [] })), dev := { s.dev with domsize := 0, lost := [] } } := by
  simp only [writeDomain, beq_eq_false_iff_ne.mpr hd, hv, beq_self_eq_true, Bool.false_eq_true, if_false, if_true]
  rfl

theorem peerLoss_departs {s : State} {dev : Nat} (hp : peerHere s dev = true) (hn : dev ≠ s.dev.devnum.toNat) :
    exec (.peerLoss dev) s = .next { dropPeer s (· == dev) with dev := { s.dev with lost := s.dev.lost ++ [dev] } } := by
  change execPeerLoss dev s = _
  simp only [execPeerLoss, hp, beq_eq_false_iff_ne.mpr hn, Bool.not_true, Bool.or_self, Bool.false_eq_true, if_false]
  rfl

/-! Accesses from outside (R182, R283, R404, R406). -/

section
variable {s : State} {pa size : Nat}

/-- Every byte of an access lies in this device's memory, or some byte does not. -/
theorem all_isDevMem (h : ∀ i < size, isDevMem s (pa + i) = true) : (upto size).all (fun i => isDevMem s (pa + i)) = true :=
  List.all_eq_true.mpr fun i hi => h i (List.mem_range.mp hi)
theorem not_all_isDevMem {j : Nat} (hj : j < size) (h : isDevMem s (pa + j) = false) :
    (upto size).all (fun i => isDevMem s (pa + i)) = false :=
  List.all_eq_false.mpr ⟨j, List.mem_range.mpr hj, by simp [h]⟩

/-- A host access beyond device memory ends the run (log entry 52). -/
theorem hostMemoryAccess_noStorage (ha : s.dev.answering = true) (hb : s.dev.bootOk = true)
    (h : (upto size).all (fun i => isDevMem s (pa + i)) = false) (w : Bool) (v : Nat) :
    exec (.hostMemoryAccess w pa size v) s = .fault .noStorage := by
  change execHostMemoryAccess w pa size v s = _
  simp [execHostMemoryAccess, ha, hb, h]

/-- A peer's access beyond device memory ends the run (log entry 52). -/
theorem peerAccess_noStorage (hd : s.dev.domsize ≠ 0) (h : (upto size).all (fun i => isDevMem s (pa + i)) = false)
    (k v : Nat) : exec (.peerAccess k pa size v) s = .fault .noStorage := by
  change execPeerAccess k pa size v s = _
  simp [execPeerAccess, hd, h]

theorem hostMemoryAccess_writes (ha : s.dev.answering = true) (hb : s.dev.bootOk = true)
    (h : (upto size).all (fun i => isDevMem s (pa + i)) = true) (v : Nat) :
    exec (.hostMemoryAccess true pa size v) s = .next (engineWrite s pa (bytesOf size v)).1 := by
  change execHostMemoryAccess true pa size v s = _
  simp [execHostMemoryAccess, ha, hb, h]

theorem hostMemoryAccess_reads (ha : s.dev.answering = true) (hb : s.dev.bootOk = true)
    (h : (upto size).all (fun i => isDevMem s (pa + i)) = true) (v : Nat) :
    exec (.hostMemoryAccess false pa size v) s = .next { (((upto size).map (fun i =>
        lineOf (canonPa s (pa + i)))).eraseDups).foldl recallLine s with
      hostData := w64 (ofBytes ((upto size).map (fun i => (homeRead s (pa + i) 1).1.headD 0))) } := by
  change execHostMemoryAccess false pa size v s = _
  simp [execHostMemoryAccess, ha, hb, h]

variable (hd : s.dev.domsize ≠ 0) (h : (upto size).all (fun i => isDevMem s (pa + i)) = true)
include hd h

/-- A peer's read leaves the lease that its reader takes. -/
theorem peerAccess_reads (v : Nat) : let r := homeRead s pa size
    let key := lineOf (canonPa s pa)
    exec (.peerAccess 0 pa size v) s = .next { r.2 with
      hostData := w64 (ofBytes r.1)
      lease := tput r.2.lease key (max (tgetD r.2.lease key 0) (s.now + min 65536 v)) } := by
  change execPeerAccess 0 pa size v s = _
  simp [execPeerAccess, hd, h]

theorem peerAccess_writes (v : Nat) : exec (.peerAccess 1 pa size v) s = .next (engineWrite s pa (bytesOf size v)).1 := by
  change execPeerAccess 1 pa size v s = _
  simp [execPeerAccess, hd, h]

theorem peerAccess_frees (v : Nat) : exec (.peerAccess 48 pa size v) s = .next (modSlice s (homeSlice s pa) (fun x =>
    { x with farMons := x.farMons.filter (fun m => m.pa != pa) })) := by
  change execPeerAccess 48 pa size v s = _
  simp [execPeerAccess, hd, h]

/-- A peer's operation is applied at the home. -/
theorem peerAccess_updates {code : Nat} (hc : code < 30) (v : Nat) :
    let r := homeUpdate s pa size code (v % 2 ^ (8 * size)) (v >>> (8 * size))
    exec (.peerAccess (2 + code) pa size v) s = .next { r.1 with hostData := w64 r.2.1 } := by
  have h1 : ¬ 2 + code = 1 := by omega
  have h48 : ¬ 2 + code = 48 := by omega
  have h32 : ¬ 32 ≤ 2 + code := by omega
  change execPeerAccess (2 + code) pa size v s = _
  simp [execPeerAccess, hd, h, h1, h48, h32]

/-- A peer's read for a WAITC arms its monitor, unless the condition holds or the table is full. -/
theorem peerAccess_waits {c : Nat} (hc : c < 16) (v : Nat) :
    let r := homeRead s pa size
    let t := sliceOf s (homeSlice s pa)
    let s1 := { r.2 with hostData := w64 (ofBytes r.1) }
    exec (.peerAccess (32 + c) pa size v) s = .next (
      if monCond c size (ofBytes r.1) (w64 v) = true ∨ 4096 ≤ t.mons.length + t.farMons.length then s1
      else modSlice s1 (homeSlice s pa) (fun t => { t with farMons := t.farMons ++ [⟨pa, size, c, w64 v⟩] })) := by
  have h1 : ¬ 32 + c = 1 := by omega
  have h48 : ¬ 32 + c = 48 := by omega
  have h32 : 32 ≤ 32 + c := by omega
  change execPeerAccess (32 + c) pa size v s = _
  simp [execPeerAccess, hd, h, h1, h48, apply_ite Host.Outcome.next]

end

end Sys2Proof.Machine
end

section
/-! SUPPORT. The device's services (R347, R408 to R413): time, firmware, attestation, the roster and binding sets. -/

namespace Sys2Proof.Machine

/-! The time base (R408, R409). -/

theorem writeHostadj_host {s : State} {v : W64} (h : s.dev.tsrc = 2) :
    writeHostadj s v = { s with dev := { s.dev with corr := v.toInt, slewRem := 0 } } :=
  if_pos (beq_iff_eq.mpr h)

theorem writeHostadj_other {s : State} {v : W64} (h : s.dev.tsrc ≠ 2) : writeHostadj s v = s :=
  if_neg (mt beq_iff_eq.mp h)

section
variable {s : State} (ha : s.dev.answering = true) (hb : s.dev.bootOk = true)
include ha hb

theorem timeSourceSelect_writes (v : W64) : exec (.timeSourceSelect 0 v) s = .next (writeTime s v.toNat) :=
  congrArg Host.Outcome.next (fnDblkWrite_phys (dblkAnswers_booted ha hb 8) _)

theorem hostadj_writes (v : W64) : exec (.hostadj 0 v) s = .next (writeHostadj s v) := by
  refine congrArg Host.Outcome.next ((fnDblkWrite_phys (dblkAnswers_booted ha hb 10) _).trans ?_)
  exact congrArg (writeHostadj s) ((BitVec.ofNat_toNat ..).trans (BitVec.setWidth_eq v))

/-- A roster is read from where RLOAD's own word places it, and replaces the one in force if it passes. -/
theorem rload_loads (v : W64) : exec (.rload 0 v) s = .next (loadRoster { s with dev := { s.dev with
    rostaddr := w64 ((v ||| 1).toNat / 4096 * 4096), rcount := bits (v ||| 1).toNat 11 3 } }) := by
  refine congrArg Host.Outcome.next ((fnDblkWrite_phys (dblkAnswers_booted ha hb 18) _).trans ?_)
  have hgo : bit (v ||| 1).toNat 0 = true := by rw [bit_toNat]; simp
  simp only [dblkWrite, writeRoster, hgo, if_true]
  rfl

end

theorem ptpMessage_ignored {s : State} {x : PtpMsg}
    (h : ¬(s.dev.tsrc = 1 ∧ x.port = s.dev.port ∧ x.port < 18 ∧ x.dom = s.dev.pdom)) : exec (.ptpMessage x) s = .next s := by
  change execPtpMessage x s = _
  simp only [execPtpMessage, Bool.or_eq_true, bne_iff_ne, decide_eq_true_eq]
  exact if_pos (by omega)

theorem ptpMessage_taken {s : State} {x : PtpMsg} {k : PtpKind}
    (h : s.dev.tsrc = 1 ∧ x.port = s.dev.port ∧ x.port < 18 ∧ x.dom = s.dev.pdom) (hk : x.kind = k) :
    exec (.ptpMessage x) s = .next { s with dev := ptpTake (w64 s.now) s.dev k } := by
  change execPtpMessage x s = _
  simp only [execPtpMessage, Bool.or_eq_true, bne_iff_ne, decide_eq_true_eq, hk]
  exact if_neg (by omega)

/-- The response to a delay request measures nothing before the exchange's other times are there. -/
theorem ptpTake_incomplete (now : W64) {d : Dev} (t4 : W64) (h : d.ptpT1 = none ∨ d.ptpT2 = none ∨ d.ptpT3 = none) :
    ptpTake now d (.delayResp t4) = d := by
  simp only [ptpTake]
  split
  next h1 h2 h3 => simp [h1, h2, h3] at h
  next => rfl

theorem ptpTake_complete (now : W64) {d : Dev} {t1 t2 t3 : W64} (t4 : W64) (h1 : d.ptpT1 = some t1) (h2 : d.ptpT2 = some t2)
    (h3 : d.ptpT3 = some t3) : ptpTake now d (.delayResp t4) = measured d (ptpOffset t1 t2 t3 t4) := by
  simp only [ptpTake, h1, h2, h3]

/-! Firmware and attestation (R410, R411). -/

/-- FWADDR or RADDR as a write of its word leaves it. -/
def alignedTo64 (u : W64) : W64 := w64 (u.toNat / 64 * 64)

section
variable {s : State} {v : W64} (ha : s.dev.answering = true)
include ha

theorem fwgo_checks (hc : v.getLsbD 2 = false) :
    exec (.fwgo 0 v) s = .next (checkImage { s with dev := { s.dev with fwaddr := alignedTo64 (v ||| 2) } }) := by
  refine congrArg Host.Outcome.next ((fnDblkWrite_phys (dblkAnswers_staging ha (by decide) (by decide)) _).trans ?_)
  have hgo : bit (v ||| 2).toNat 1 = true := by rw [bit_toNat]; simp
  have hcommit : bit (v ||| 2).toNat 2 = false := by rw [bit_toNat]; simpa using hc
  simp only [dblkWrite, writeFw, hgo, hcommit, if_true, Bool.false_eq_true, if_false]
  rfl

theorem fwcommit_raises (hg : v.getLsbD 1 = false) : exec (.fwcommit 0 v) s = .next { s with dev := { s.dev with
    fwaddr := alignedTo64 (v ||| 4), svnMin := max s.dev.svnMin (svnOf (fwOf s.dev)) } } := by
  refine congrArg Host.Outcome.next ((fnDblkWrite_phys (dblkAnswers_staging ha (by decide) (by decide)) _).trans ?_)
  have hgo : bit (v ||| 4).toNat 1 = false := by rw [bit_toNat]; simpa using hg
  have hcommit : bit (v ||| 4).toNat 2 = true := by rw [bit_toNat]; simp
  simp only [dblkWrite, writeFw, hgo, hcommit, if_true, Bool.false_eq_true, if_false]
  rfl

variable (hn : s.dev.att = none)
include hn

/-- AGO reads its nonce where RADDR has just been placed. -/
theorem ago_requests : let s1 := { s with dev := { s.dev with raddr := alignedTo64 (v ||| 1) } }
    let pa := (alignedTo64 (v ||| 1)).toNat
    exec (.ago 0 v) s = .next { s1 with dev := { s1.dev with
      att := some (.report (if physOk s1 pa 48 then physBytes s1 pa 48 else [])) } } := by
  refine congrArg Host.Outcome.next ((fnDblkWrite_phys (dblkAnswers_staging ha (by decide) (by decide)) _).trans ?_)
  have hgo : bit (v ||| 1).toNat 0 = true := by rw [bit_toNat]; simp
  simp only [dblkWrite, writeAtt, modDev, hn, hgo, Option.isSome_none, if_true, Bool.false_eq_true, if_false]
  rfl

theorem cgo_requests : exec (.cgo 0 v) s = .next { s with dev := { s.dev with
    raddr := alignedTo64 ((v ||| 4) &&& ~~~1), att := some .chain } } := by
  refine congrArg Host.Outcome.next ((fnDblkWrite_phys (dblkAnswers_staging ha (by decide) (by decide)) _).trans ?_)
  have hago : bit ((v ||| 4) &&& ~~~1).toNat 0 = false := by rw [bit_toNat]; simp
  have hcgo : bit ((v ||| 4) &&& ~~~1).toNat 2 = true := by rw [bit_toNat]; simp
  simp only [dblkWrite, writeAtt, modDev, hn, hago, hcgo, Option.isSome_none, if_true, Bool.false_eq_true, if_false]
  rfl

end

theorem attestationComplete_idle {s : State} (h : s.dev.att = none) : exec .attestationComplete s = .next s := by
  change execAttestationComplete s = _
  simp only [execAttestationComplete, h]

section
variable {s : State} {nonce : List Byte} (h : s.dev.att = some (.report nonce))
include h

theorem attestationComplete_reports (hl : nonce.length = 48) (hp : physOk s s.dev.raddr.toNat 352 = true) :
    exec .attestationComplete s = .next (modDev (freshNext (engineWrite s s.dev.raddr.toNat (report s nonce)).1) (fun d => { d with
      att := none, aerr := if s.dev.roster.isSome then 0 else 2 })) := by
  have hdev : (freshNext (engineWrite s s.dev.raddr.toNat (report s nonce)).1).dev = s.dev := engineWrite_dev ..
  change execAttestationComplete s = _
  simp [execAttestationComplete, h, hl, hp, modDev, hdev]

theorem attestationComplete_unreported (hbad : nonce.length ≠ 48 ∨ physOk s s.dev.raddr.toNat 352 = false) :
    exec .attestationComplete s = .next { s with dev := { s.dev with att := none, aerr := 1 } } := by
  have hguard : (nonce.length != 48 || !physOk s s.dev.raddr.toNat 352) = true := by simpa using hbad
  change execAttestationComplete s = _
  simp only [execAttestationComplete, h, hguard, if_true]
  rfl

end

theorem attestationComplete_chain {s : State} (h : s.dev.att = some .chain) : let c := Config.certChain.take 4096
    exec .attestationComplete s = .next (if physOk s s.dev.raddr.toNat c.length = true then
        modDev (engineWrite s s.dev.raddr.toNat c).1 (fun d => { d with att := none, aerr := 0, clen := c.length })
      else { s with dev := { s.dev with att := none, aerr := 1 } }) := by
  change execAttestationComplete s = _
  simp only [execAttestationComplete, h]
  cases physOk s s.dev.raddr.toNat (Config.certChain.take 4096).length <;> rfl

/-! The roster and binding sets (R347, R412, R413). -/

section
variable {s : State} {es : List RosterEnt} {raw : List Byte}
  (hraw : physBytes s s.dev.rostaddr.toNat (128 * min 256 s.dev.rcount) = raw) (hes : rosterOf (min 256 s.dev.rcount) raw = es)
include hraw hes

theorem loadRoster_passes (h : rosterErr s.dev es = 0) :
    loadRoster s = { s with dev := { s.dev with rerr := 0, roster := some es, rosterRaw := raw } } := by
  simp only [loadRoster, hraw, hes, h]
  rfl

theorem loadRoster_fails (h : rosterErr s.dev es ≠ 0) :
    loadRoster s = { s with dev := { s.dev with rerr := rosterErr s.dev es } } := by
  obtain ⟨e, he⟩ := Nat.exists_eq_succ_of_ne_zero h
  simp only [loadRoster, hraw, hes, he]
  rfl

end

/-- The check of an announcement against the roster in force and the texts loaded (R347, R413). -/
def announcementOk (s : State) (msg bset : List Byte) : Bool :=
  (s.dev.roster.bind (fun r => r.find? (fun e => e.dev == (msg.getD 96 0).toNat))).elim false (fun e =>
    msg.length == 200 && ecdsaOk ((msg.drop 104).take 96) (msg.take 104) e.key
      && sha384 bset == (msg.drop 48).take 48 && (podTexts s).any (fun p => sha384 p.image == msg.take 48))

/-- It verifies when its sender's entry of the roster has signed it, and it names the set sent and an image loaded here. -/
theorem announcementOk_iff (s : State) (msg bset : List Byte) : announcementOk s msg bset = true ↔
    ∃ r e, s.dev.roster = some r ∧ r.find? (fun e => e.dev == (msg.getD 96 0).toNat) = some e ∧ msg.length = 200 ∧
      ecdsaOk ((msg.drop 104).take 96) (msg.take 104) e.key = true ∧
      sha384 bset = (msg.drop 48).take 48 ∧ ∃ p ∈ podTexts s, sha384 p.image = msg.take 48 := by
  unfold announcementOk
  generalize (msg.getD 96 0).toNat = dev
  cases hr : s.dev.roster with
  | none => simp
  | some r =>
    simp only [Option.bind_some, Option.some.injEq]
    cases he : r.find? (fun e => e.dev == dev) with
    | none => simp [he]
    | some e => simp [he, and_assoc]

/-- An announcement of another device of the domain is kept if it verifies, and otherwise dropped and counted. -/
theorem announcementReceive_eq {s : State} {msg : List Byte} (bset : List Byte) (hd : s.dev.domsize ≠ 0)
    (hn : (msg.getD 96 0).toNat ≠ s.dev.devnum.toNat) : exec (.announcementReceive msg bset) s = .next { s with
      dev := if announcementOk s msg bset then keepSet s.dev (msg.take 48) bset
        else { s.dev with adrop := satInc s.dev.adrop } } := by
  change execAnnouncementReceive msg bset s = _
  simp only [execAnnouncementReceive, beq_eq_false_iff_ne.mpr hd, beq_eq_false_iff_ne.mpr hn, Bool.or_self, Bool.false_eq_true,
    if_false]
  rfl

theorem bindingSetAnnounce_unnamed {s : State} {image : Nat} (h : (podTexts s)[image]? = none) :
    exec (.bindingSetAnnounce image) s = .next s := by
  change execBindingSetAnnounce image s = _
  simp only [execBindingSetAnnounce, h]

/-- A set that the device does not hold is built, kept and announced. -/
theorem bindingSetAnnounce_builds {s : State} {image : Nat} {p : PodText} (hd : s.dev.domsize ≠ 0)
    (hp : (podTexts s)[image]? = some p) (hb : ∀ e ∈ s.dev.bindings, e.1 ≠ sha384 p.image) : let h := sha384 p.image
    let b := Config.bindingSet p.image
    exec (.bindingSetAnnounce image) s = .next { s with fresh := s.fresh + 1, dev := { s.dev with
      bindings := s.dev.bindings ++ [(h, b)], announced := s.dev.announced ++ [announcement s h b] } } := by
  have hnew : s.dev.bindings.any (fun e => e.1 == sha384 p.image) = false := by simpa using hb
  change execBindingSetAnnounce image s = _
  simp only [execBindingSetAnnounce, hp, beq_eq_false_iff_ne.mpr hd, hnew, keepSet, modDev, freshNext, Bool.or_self,
    Bool.false_eq_true, if_false]

/-- Settles O47: each row is one write of a word of the device block, or one event of the device, and its hypotheses choose the
branch it takes; the case names follow the order of the statement. The report's status is read from the roster once the report is
written, and the write leaves the device block as it is. What resets and power-on keep, and when the device answers, is the choice of
log entries 23 and 24; the other clauses rest on log entries 25 to 27, 50 and 52. -/
theorem deviceDomainAndServicesAct : Obligations.DeviceDomainAndServicesAct := by
  refine ⟨⟨?resets, ?power, ?boot, ?flr, ?ports, ?domain, ?peer, ?access⟩, ?time, ?ptp, ?firmware, ?attest, ?roster, ?announced,
    ?built⟩
  case resets =>
    exact fun s i hi => ⟨_, deviceReset_resets hi, rfl, rfl, rfl, rfl, rfl, rfl, rfl, rfl, rfl, rfl, rfl, rfl, rfl⟩
  case power => exact fun s => ⟨_, rfl, rfl, rfl, rfl, rfl, rfl, rfl⟩
  case boot =>
    exact fun s => ⟨fun h => (bootRomVerification_eq s).trans (congrArg _ (if_pos h)),
      fun h => (bootRomVerification_eq s).trans (congrArg _ (if_neg (Bool.eq_false_iff.mp h)))⟩
  case flr =>
    refine fun s fn => ⟨functionLevelReset_virtual, ?_⟩
    rintro rfl he
    exact functionLevelReset_phys he
  case ports =>
    exact fun s port => ⟨fun h => ⟨(fabricPortTrained_eq s port).trans (congrArg _ (if_pos h)),
        (fabricPortFails_eq s port).trans (congrArg _ (if_pos h))⟩,
      fun h => ⟨(fabricPortTrained_eq s port).trans (congrArg _ (if_neg (Nat.not_lt.mpr h))),
        (fabricPortFails_eq s port).trans (congrArg _ (if_neg (Nat.not_lt.mpr h)))⟩⟩
  case domain =>
    refine fun s v ha hb => ⟨fun hd hv => ?_, fun hd hv => ?_, fun hd => ?_⟩
    · rw [domainJoin_writes ha hb hv, writeDomain_joins hd]
    · rw [domainJoin_writes ha hb hv, writeDomain_resizes hd hv]
    · refine ⟨_, (domainLeave_writes v ha hb).trans (congrArg _ (writeDomain_leaves hd (bits_setBits_zero ..))), rfl, rfl,
        fun e he => ?_⟩
      obtain ⟨_, _, rfl⟩ := List.mem_map.mp he
      rfl
  case peer => exact fun s dev hp hn => ⟨_, peerLoss_departs hp hn, rfl, rfl⟩
  case access =>
    refine fun s pa size v ha hb => ⟨fun hmem => ?_, fun j hj hout w k => ?_⟩
    · have hall := all_isDevMem hmem
      refine ⟨hostMemoryAccess_writes ha hb hall v, ⟨_, hostMemoryAccess_reads ha hb hall v, rfl⟩, fun hd => ?_⟩
      refine ⟨⟨_, peerAccess_reads hd hall v, rfl, ?_⟩, peerAccess_writes hd hall v, fun c hc => ?_,
        peerAccess_frees hd hall v, fun code hc => peerAccess_updates hd hall hc v⟩
      · rw [tgetD, tget_tput_self]
        exact Nat.le_max_right ..
      · refine ⟨_, peerAccess_waits hd hall hc v, ?_, fun h => ?_, fun hm hr => ?_⟩
        · split <;> rfl
        · rw [if_pos h]
        · rw [if_neg (by simp [hm, hr])]
          rfl
    · have hnot := not_all_isDevMem hj hout
      exact ⟨hostMemoryAccess_noStorage ha hb hnot w v, fun hd => peerAccess_noStorage hd hnot k v⟩
  case time =>
    refine fun s v ha hb => ⟨?_, fun h => ?_, fun h => ?_⟩
    · rw [timeSourceSelect_writes ha hb, writeTime]
      simp [modDev]
    · rw [hostadj_writes ha hb, writeHostadj_host h]
    · rw [hostadj_writes ha hb, writeHostadj_other h]
  case ptp =>
    refine fun s x => ⟨ptpMessage_ignored, fun h => ⟨fun t1 => ptpMessage_taken h, fun t1 => ptpMessage_taken h, ptpMessage_taken h,
      fun t4 hk hn => ?_, fun t1 t2 t3 t4 hk h1 h2 h3 => ?_⟩⟩
    · rw [ptpMessage_taken h hk, ptpTake_incomplete _ _ hn]
    · rw [ptpMessage_taken h hk, ptpTake_complete _ _ h1 h2 h3, measured]
  case firmware =>
    exact fun s v ha => ⟨fwgo_checks ha, fwcommit_raises ha, fun hn => ⟨ago_requests ha hn, cgo_requests ha hn⟩⟩
  case attest =>
    exact fun s => ⟨attestationComplete_idle,
      fun nonce h => ⟨attestationComplete_reports h, attestationComplete_unreported h⟩,
      fun h => ⟨fun hp => (attestationComplete_chain h).trans (congrArg _ (if_pos hp)),
        fun hp => (attestationComplete_chain h).trans (congrArg _ (if_neg (Bool.eq_false_iff.mp hp)))⟩⟩
  case roster =>
    exact fun s v ha hb => ⟨fun h => (rload_loads ha hb v).trans (congrArg _ (loadRoster_passes rfl rfl h)),
      fun h => (rload_loads ha hb v).trans (congrArg _ (loadRoster_fails rfl rfl h))⟩
  case announced =>
    refine fun s msg bset hd hn => ⟨fun h => ?_, fun h => ?_⟩
    · rw [announcementReceive_eq bset hd hn, if_pos ((announcementOk_iff ..).mpr h)]
    · rw [announcementReceive_eq bset hd hn, if_neg (mt (announcementOk_iff ..).mp h)]
  case built => exact fun s image hd => ⟨bindingSetAnnounce_unnamed, fun p hp => bindingSetAnnounce_builds hd hp⟩

end Sys2Proof.Machine
end

section
/-! SUPPORT. Debug windows (R321 to R327): what a command and an access of DDATA do with the debug right and without it, and the order
of stops and dumps. -/

namespace Sys2Proof.Machine

/-- An update of a debug window is what it makes of the window that stands there. -/
theorem modDbg_congr {s : State} {core : Nat} {f g : Dbg → Dbg} (h : f (coreOf s core).dbg = g (coreOf s core).dbg) :
    modDbg s core f = modDbg s core g := by
  simp only [modDbg, modCore, h]

theorem coreOf_modDbg_dbg (s : State) (core : Nat) (f : Dbg → Dbg) :
    (coreOf (modDbg s core f) core).dbg = f (coreOf s core).dbg := by
  rw [modDbg, coreOf_modCore, if_pos rfl]

/-! Commands (R321, R322). -/

/-- DCTL as an event writes it: CTX lies above BKSTOP, and BKSTOP above the three command bits. -/
theorem dctlWord_fields {d : Dbg} (hc : d.ctx < 128) {b : Nat} (hb : b < 8) : bits (dctlWord d + b) 14 8 = d.ctx ∧
    bit (dctlWord d + b) 3 = d.bkstop ∧ ∀ i < 3, bit (dctlWord d + b) i = bit b i := by
  simp only [bits, bit, dctlWord, Nat.shiftRight_eq_div_pow]
  cases d.bkstop <;> simp only [Bool.false_eq_true, if_false, if_true, beq_iff_eq, beq_eq_false_iff_ne]
  all_goals
    refine ⟨by omega, by omega, fun i hi => congrArg (· == 1) ?_⟩
    obtain rfl | rfl | rfl : i = 0 ∨ i = 1 ∨ i = 2 := by omega
    all_goals omega

section
variable {s : State} {fn core : Nat} (hc : (coreOf s core).dbg.ctx < 128)
include hc

theorem dctlWrite_unright (hr : dbgRight s ⟨fn, false⟩ (coreOf s core).dbg.ctx = false) {b : Nat} (hb : b < 8) :
    dctlWrite s core ⟨fn, false⟩ (dctlCmd s core b) = dbgErr s core 1 := by
  obtain ⟨hctx, -, -⟩ := dctlWord_fields hc hb
  simp [dctlWrite, dctlCmd, hctx, hr]

/-- A command leaves CTX and BKSTOP as they stand and acts by its command bits. -/
theorem dctlWrite_right (hr : dbgRight s ⟨fn, false⟩ (coreOf s core).dbg.ctx = true) {b : Nat} (hb : b < 8) :
    dctlWrite s core ⟨fn, false⟩ (dctlCmd s core b) =
      let s1 := modDbg s core (fun d => { d with stops := if bit b 0 then askStop d.stops d.ctx else d.stops })
      let s2 := if bit b 1 then dbgResume s1 core (coreOf s core).dbg.ctx else s1
      if bit b 2 then dbgStep s2 core else s2 := by
  obtain ⟨hctx, hbk, hcmd⟩ := dctlWord_fields hc hb
  simp only [dctlWrite, dctlCmd, hctx, hbk, hcmd 0 (by decide), hcmd 1 (by decide), hcmd 2 (by decide), hr, Bool.not_true,
    Bool.false_eq_true, if_false]
  -- CTX and BKSTOP are written with what they hold.
  rw [modDbg_congr]
  rfl

end

theorem dbgStep_releases {s : State} {core wid : Nat} {w : Wave} {b : Block} (h : dbgWave s core = .ok (wid, w, b)) :
    dbgStep s core = setWave s wid { w with halted := false, stepping := stepCode w } := by
  simp only [dbgStep, h]

theorem dbgStep_refused {s : State} {core e : Nat} (h : dbgWave s core = .error e) : dbgStep s core = dbgErr s core e := by
  simp only [dbgStep, h]

/-! DDATA (R327). -/

theorem ddataVal_error_iff {s : State} {core e : Nat} : ddataVal s core = .error e ↔ dbgTarget s core = .error e := by
  simp only [ddataVal]
  cases dbgTarget s core <;> simp

theorem ddataRead_reads {s : State} {fn core : Nat} {x : W64} (hr : dbgRight s ⟨fn, false⟩ (coreOf s core).dbg.ctx = true)
    (h : ddataVal s core = .ok x) : exec (.ddataRead fn core) s = .next { s with hostData := x } := by
  change execDdataRead fn core s = _
  simp [execDdataRead, dbgRead, ddataRead, hr, h, w64]

theorem ddataRead_refused {s : State} {fn core e : Nat} (hr : dbgRight s ⟨fn, false⟩ (coreOf s core).dbg.ctx = true)
    (h : ddataVal s core = .error e) : exec (.ddataRead fn core) s = .next { dbgErr s core e with hostData := 0 } := by
  change execDdataRead fn core s = _
  simp [execDdataRead, dbgRead, ddataRead, hr, h, w64]

theorem ddataRead_unright {s : State} {fn core : Nat} (hr : dbgRight s ⟨fn, false⟩ (coreOf s core).dbg.ctx = false) :
    exec (.ddataRead fn core) s = .next { dbgErr s core 1 with hostData := 0 } := by
  change execDdataRead fn core s = _
  simp [execDdataRead, dbgRead, hr, w64]

theorem ddataWrite_writes {s : State} {fn core : Nat} (hr : dbgRight s ⟨fn, false⟩ (coreOf s core).dbg.ctx = true) (v : W64) :
    exec (.ddataWrite fn core v) s = .next (ddataWrite s core v.toNat) := by
  change execDdataWrite fn core v s = _
  simp [execDdataWrite, dbgWrite, hr]

theorem ddataWrite_unright {s : State} {fn core : Nat} (hr : dbgRight s ⟨fn, false⟩ (coreOf s core).dbg.ctx = false) (v : W64) :
    exec (.ddataWrite fn core v) s = .next (dbgErr s core 1) := by
  change execDdataWrite fn core v s = _
  simp [execDdataWrite, dbgWrite, hr]

/-- An edit of each target, which marks the window's context as altered under debug. -/
theorem ddataWrite_edits {s : State} {core wid : Nat} {w : Wave} {b : Block} (h : dbgTarget s core = .ok (wid, w, b)) (v : W64) :
    let d := (coreOf s core).dbg
    let aud := fun (s : State) => modCtx s d.ctx (fun c => { c with aud := true })
    (dselTgt d = 0 → ddataWrite s core v.toNat = aud (setWave s wid (selPut w (dselSym d) v))) ∧
    (dselTgt d = 1 → ddataWrite s core v.toNat = aud (setPc s wid w b false (v.toNat % 2 ^ 32))) ∧
    (dselTgt d = 2 → ddataWrite s core v.toNat = aud (setPc s wid w b true (v.toNat % 2 ^ 32))) ∧
    (dselTgt d = 3 → ddataWrite s core v.toNat = if modeOk (v.toNat % 2 ^ 32) then
        aud (setWave s wid (modSlot w false (fun x => { x with ctl := { x.ctl with mode := w32 v.toNat } })))
      else dbgErr s core 4) := by
  have hv : w64 v.toNat = v := (BitVec.ofNat_toNat ..).trans (BitVec.setWidth_eq v)
  refine ⟨fun ht => ?_, fun ht => ?_, fun ht => ?_, fun ht => ?_⟩ <;> simp only [ddataWrite, h, ht, hv]

/-! Stops and dumps (R323, R326, R327). -/

section
variable {s : State} {core : Nat}

theorem debugStopEffect_behindDump (h : (coreOf s core).dbg.dump ≠ []) : exec (.debugStopEffect core) s = .next s :=
  if_pos (bne_iff_ne.mpr h)

theorem debugStopEffect_idle (hd : (coreOf s core).dbg.dump = []) (hs : (coreOf s core).dbg.stops = []) :
    exec (.debugStopEffect core) s = .next s := by
  change execDebugStopEffect core s = _
  simp [execDebugStopEffect, hd, hs]

theorem debugStopEffect_halts {c : Nat} {rest : List Nat} (hd : (coreOf s core).dbg.dump = [])
    (hs : (coreOf s core).dbg.stops = c :: rest) :
    exec (.debugStopEffect core) s = .next (takeDump (modDbg { s with
      waves := s.waves.map (fun e =>
        if e.2.st = .live ∧ onCore s core c e.2 = true then (e.1, { e.2 with halted := true, stepping := 0 }) else e) } core
      (fun d => { d with stops := rest, stopCtx := some c, frozen := true })) core c) := by
  change execDebugStopEffect core s = _
  simp only [execDebugStopEffect, hd, hs, bne_self_eq_false, Bool.false_eq_true, if_false, Bool.and_eq_true, beq_iff_eq]

theorem takeDump_first (c : Nat) (h : (coreOf s core).dbg.dump = []) : (coreOf (takeDump s core c) core).dbg =
    { (coreOf s core).dbg with
      dump := (dumpRecords s core c).flatMap id, dumpRecs := (dumpRecords s core c).length, dumped := false } := by
  rw [takeDump, coreOf_modDbg_dbg, if_pos (List.isEmpty_iff.mpr h)]

theorem takeDump_behind (c : Nat) (h : (coreOf s core).dbg.dump ≠ []) : (coreOf (takeDump s core c) core).dbg =
    { (coreOf s core).dbg with
      more := (coreOf s core).dbg.more ++ [((dumpRecords s core c).flatMap id, (dumpRecords s core c).length)]
      dumped := false } := by
  rw [takeDump, coreOf_modDbg_dbg, if_neg (mt List.isEmpty_iff.mp h)]

/-- A core without a fresh dump is passed over. -/
theorem freshDumps_filter (s : State) : freshDumps s = (s.cores.filter (fun e => e.2.dbg.fresh.isSome)).foldl (fun t e =>
    e.2.dbg.fresh.elim t (fun c => takeDump (modDbg t e.1 (fun d => { d with fresh := none })) e.1 c)) s := by
  rw [List.foldl_filter, freshDumps]
  congr 1
  funext t e
  cases e.2.dbg.fresh <;> rfl

theorem freshDumps_takes {e : Nat × Core} {c : Nat} (he : s.cores.filter (fun e => e.2.dbg.fresh.isSome) = [e])
    (hc : e.2.dbg.fresh = some c) : freshDumps s = takeDump (modDbg s e.1 (fun d => { d with fresh := none })) e.1 c := by
  rw [freshDumps_filter, he, List.foldl_cons, List.foldl_nil, hc, Option.elim_some]

theorem debugDumpWritten_idle (h : (coreOf s core).dbg.dump = []) : exec (.debugDumpWritten core) s = .next s :=
  if_pos (List.isEmpty_iff.mpr h)

section
variable (h : (coreOf s core).dbg.dump ≠ [])
include h

theorem debugDumpWritten_faults (hb : bufOk s (coreOf s core).dbg.buf.toNat (coreOf s core).dbg.dump.length = false) :
    exec (.debugDumpWritten core) s = .next (modDbg s core (fun d =>
      nextDump { d with err := 5, frozen := d.frozen && (d.stops != [] || d.stopCtx.isSome) })) := by
  change execDebugDumpWritten core s = _
  simp [execDebugDumpWritten, h, hb]

theorem debugDumpWritten_writes (hb : bufOk s (coreOf s core).dbg.buf.toNat (coreOf s core).dbg.dump.length = true) :
    exec (.debugDumpWritten core) s = .next (modDbg (engineWrite s (coreOf s core).dbg.buf.toNat
      ((coreOf s core).dbg.dump.flatMap (fun w => bytesOf 8 w.toNat))).1 core (fun d =>
        nextDump { d with dumped := d.more.isEmpty, nrec := d.dumpRecs, frozen := d.frozen && d.stops != [], stopCtx := none })) := by
  change execDebugDumpWritten core s = _
  simp [execDebugDumpWritten, h, hb]

end
end

/-- Settles O46: a command is a write of DCTL as it stands with one command bit, judged on its CTX, and an access of DDATA is judged
on the right and then on its target. The release of STEP, the order of stops and dumps, the commands' CTX and the PC as an image
offset are the DEDUCED choices of log entry 34. -/
theorem debugCommandsAct : Obligations.DebugCommandsAct := by
  refine ⟨fun s fn core => ?right, fun s fn core v hc hr => ?unright, fun s core => ?dumps⟩
  case right =>
    intro d hc hr
    have command {b : Nat} (hb : b < 8) := congrArg (Host.Outcome.next (φ := Fault) (ρ := Refusal)) (dctlWrite_right hc hr hb)
    refine ⟨command (b := 1) (by decide), command (b := 2) (by decide),
      fun wid w b h => (command (b := 4) (by decide)).trans (congrArg _ (dbgStep_releases h)),
      fun e h => (command (b := 4) (by decide)).trans (congrArg _ (dbgStep_refused h)),
      fun x => ddataRead_reads hr,
      fun e h v => ⟨ddataRead_refused hr h, (ddataWrite_writes hr v).trans (congrArg _ ?_)⟩,
      fun wid w b h v => ?_⟩
    · simp only [ddataWrite, ddataVal_error_iff.mp h]
    · obtain ⟨hsym, hpcA, hpcB, hmode⟩ := ddataWrite_edits h v
      have writes := ddataWrite_writes hr v
      exact ⟨fun ht => writes.trans (congrArg _ (hsym ht)), fun ht => writes.trans (congrArg _ (hpcA ht)),
        fun ht => writes.trans (congrArg _ (hpcB ht)), fun ht hm => writes.trans (congrArg _ ((hmode ht).trans (if_pos hm))),
        fun ht hm => writes.trans (congrArg _ ((hmode ht).trans (if_neg (Bool.eq_false_iff.mp hm))))⟩
  case unright =>
    refine ⟨fun i hi => ?_, ddataRead_unright hr⟩
    simp only [List.mem_cons, List.not_mem_nil, or_false] at hi
    rcases hi with rfl | rfl | rfl | rfl
    · exact congrArg Host.Outcome.next (dctlWrite_unright hc hr (b := 1) (by decide))
    · exact congrArg Host.Outcome.next (dctlWrite_unright hc hr (b := 2) (by decide))
    · exact congrArg Host.Outcome.next (dctlWrite_unright hc hr (b := 4) (by decide))
    · exact ddataWrite_unright hr v
  case dumps =>
    exact ⟨debugStopEffect_behindDump, fun c rest => debugStopEffect_halts, debugStopEffect_idle,
      fun c => ⟨takeDump_first c, takeDump_behind c⟩, fun e c => freshDumps_takes, debugDumpWritten_faults, debugDumpWritten_writes,
      debugDumpWritten_idle⟩

end Sys2Proof.Machine
end

section
/-! SUPPORT. Queues and packets (R335 to R344): writes of a queue's registers, the read of a slot, and a packet that is ready. -/

namespace Sys2Proof.Machine

/-! Registers of a queue (R335, R336). -/

theorem fnQueueWrite_owner {s : State} {fn c q : Nat} (hc : c < Config.contexts) (ha : s.dev.answering = true)
    (hb : s.dev.bootOk = true) (ho : ownerFn s c = fn) (hq : q < 16) (n v : Nat) :
    fnQueueWrite s fn c q n v = queueWrite s c q n v := by
  simp [fnQueueWrite, isOwner, hc, ha, hb, ho, hq]

section
variable {s : State} {c q : Nat} (hx : (ctxOf s c).st = 1)
include hx

theorem queueWrite_qctl (v : Nat) : queueWrite s c q 1 v = writeQctl s c q v := by
  simp [queueWrite, hx]

theorem queueWrite_door (v : Nat) : queueWrite s c q 2 v = ringDoor s c q v := by
  simp [queueWrite, hx]

end

/-- EN lies above LOG2N: setting or clearing it leaves LOG2N. -/
theorem log2n_setEn (v : W64) : bits (v ||| 0x100).toNat 4 0 = bits v.toNat 4 0 := by
  simp only [bits, Nat.shiftRight_zero, BitVec.toNat_or, Nat.or_mod_two_pow]
  exact Nat.or_zero _
theorem log2n_clearEn (v : W64) : bits (v &&& ~~~0x100).toNat 4 0 = bits v.toNat 4 0 := by
  simp only [bits, Nat.shiftRight_zero, BitVec.toNat_and, Nat.and_mod_two_pow]
  exact (Nat.and_two_pow_sub_one_eq_mod _ 5).trans (Nat.mod_mod _ _)

theorem writeQctl_enables {s : State} {c q : Nat} (he : (queueOf (ctxOf s c) q).en = false) (v : W64) :
    writeQctl s c q (v ||| 0x100).toNat =
      enableQueue (modQueue s c q (fun x => { x with log2n := bits v.toNat 4 0 })) c q := by
  have hen : bit (v ||| 0x100).toNat 8 = true := by rw [bit_toNat]; simp
  simp only [writeQctl, log2n_setEn, hen, he, if_true, Bool.false_eq_true, if_false]

theorem writeQctl_disables (s : State) (c q : Nat) (v : W64) : writeQctl s c q (v &&& ~~~0x100).toNat =
    modQueue (modQueue s c q (fun x => { x with log2n := bits v.toNat 4 0 })) c q (fun x => { x with
      en := false, st := 0, deadLog := false, reading := false, tries := 0 }) := by
  have hen : bit (v &&& ~~~0x100).toNat 8 = false := by rw [bit_toNat]; simp
  simp only [writeQctl, log2n_clearEn, hen, Bool.false_eq_true, if_false]

section
variable {s : State} {c q v : Nat}

theorem ringDoor_held (h : (queueOf (ctxOf s c) q).deadLog = true) :
    ringDoor s c q v = modQueue s c q (fun x => { x with widx := BitVec.ofNat 16 v }) := by
  simp only [ringDoor, h, if_true]

theorem ringDoor_beyond (hd : (queueOf (ctxOf s c) q).deadLog = false) (he : (queueOf (ctxOf s c) q).en = true)
    (hw : 2 ^ (queueOf (ctxOf s c) q).gLog < (BitVec.ofNat 16 v - BitVec.ofNat 16 (queueOf (ctxOf s c) q).rd).toNat) :
    ringDoor s c q v = s := by
  simp only [ringDoor, hd, he, hw, decide_true, Bool.and_self, Bool.false_eq_true, if_false, if_true]

theorem ringDoor_moves (hd : (queueOf (ctxOf s c) q).deadLog = false) (hw : (queueOf (ctxOf s c) q).en = true →
      (BitVec.ofNat 16 v - BitVec.ofNat 16 (queueOf (ctxOf s c) q).rd).toNat ≤ 2 ^ (queueOf (ctxOf s c) q).gLog) :
    ringDoor s c q v = modQueue s c q (fun x => { x with
      widx := BitVec.ofNat 16 v, st := if 2 ≤ x.st then 1 else x.st, reading := x.reading && decide (x.st < 2),
      tries := if 2 ≤ x.st then 0 else x.tries }) := by
  have hin : ((queueOf (ctxOf s c) q).en && decide (2 ^ (queueOf (ctxOf s c) q).gLog <
      (BitVec.ofNat 16 v - BitVec.ofNat 16 (queueOf (ctxOf s c) q).rd).toNat)) = false := by simpa using hw
  simp only [ringDoor, hd, hin, gt_iff_lt, ge_iff_le, Bool.false_eq_true, if_false]

end

/-! The read of a slot (R337). -/

section
variable {s : State} {c q : Nat} {mismatch : State → State}

theorem readSlot_unreadable (h : devWord s c (slotVa (queueOf (ctxOf s c) q)) = none) :
    readSlot s c q mismatch = stallQueue s c q 3 := by
  simp only [readSlot, h]

section
variable {w : Nat} (hw : devWord s c (slotVa (queueOf (ctxOf s c) q)) = some w)
include hw

theorem readSlot_mismatch (hne : bits w 63 48 ≠ (queueOf (ctxOf s c) q).rd % 65536) : readSlot s c q mismatch = mismatch s := by
  simp only [readSlot, hw, ridx, bne_iff_ne.mpr hne, if_true]

/-- A slot of the right sequence is read whole: it stalls the queue where it cannot be read or is bad, and else is accepted. -/
theorem readSlot_match (heq : bits w 63 48 = (queueOf (ctxOf s c) q).rd % 65536) :
    readSlot s c q mismatch = (devRead s c (slotVa (queueOf (ctxOf s c) q)) 64).elim (stallQueue s c q 3) (fun bs =>
      let p := (upto 8).map (fun i => ofBytes ((bs.drop (8 * i)).take 8))
      if packetBad p then stallQueue s c q 3 else acceptPacket s c q p) := by
  simp only [readSlot, hw, ridx, heq, bne_self_eq_false, Bool.false_eq_true, if_false]
  cases devRead s c (slotVa (queueOf (ctxOf s c) q)) 64 <;> rfl

end
end

/-- What a slot of another sequence does: the first read has it read again, and a read again counts up to the 64th. -/
def tornSlot (c q : Nat) (x : Queue) : State → State :=
  if x.reading = false then fun s => modQueue s c q (fun y => { y with reading := true, tries := 0, nextRd := s.now + 156 })
  else fun s => if 64 ≤ x.tries + 1 then stallQueue s c q 2
    else modQueue s c q (fun y => { y with tries := y.tries + 1, nextRd := s.now + 156 })

/-- A first read and a read again that is due are one read of the slot. -/
theorem packet_reads {s : State} {c q : Nat} {i : Instr} (hs : slotDue s c q = true)
    (hi : (i = .packetRead c q ∧ (queueOf (ctxOf s c) q).reading = false) ∨
      (i = .packetReread c q ∧ (queueOf (ctxOf s c) q).reading = true ∧ (queueOf (ctxOf s c) q).nextRd ≤ s.now)) :
    exec i s = .next (readSlot s c q (tornSlot c q (queueOf (ctxOf s c) q))) := by
  rcases hi with ⟨rfl, hr⟩ | ⟨rfl, hr, hn⟩
  · change execPacketRead c q s = _
    simp [execPacketRead, hs, hr, tornSlot]
  · change execPacketReread c q s = _
    simp [execPacketReread, hs, hr, Nat.not_lt.mpr hn, tornSlot]

section
variable {s : State} {c q : Nat}

theorem tornSlot_first (h : (queueOf (ctxOf s c) q).reading = false) : tornSlot c q (queueOf (ctxOf s c) q) s =
    modQueue s c q (fun y => { y with reading := true, tries := 0, nextRd := s.now + 156 }) := by
  simp only [tornSlot, h, if_true]

theorem tornSlot_last (h : (queueOf (ctxOf s c) q).reading = true) (ht : 64 ≤ (queueOf (ctxOf s c) q).tries + 1) :
    tornSlot c q (queueOf (ctxOf s c) q) s = stallQueue s c q 2 := by
  simp only [tornSlot, h, ht, Bool.true_eq_false, if_false, if_true]

theorem tornSlot_again (h : (queueOf (ctxOf s c) q).reading = true) (ht : (queueOf (ctxOf s c) q).tries + 1 < 64) :
    tornSlot c q (queueOf (ctxOf s c) q) s = modQueue s c q (fun y => { y with tries := y.tries + 1, nextRd := s.now + 156 }) := by
  simp only [tornSlot, h, Nat.not_le.mpr ht, Bool.true_eq_false, if_false]

end

/-! Packets (R339 to R344). -/

section
variable {s : State} {lid : Nat} {l : Launch} (hl : tget s.launches lid = some l)
include hl

theorem launchReady_unready (h : packetReady s l = false) : exec (.launchReady lid) s = .next s := by
  change execLaunchReady lid s = _
  simp [execLaunchReady, hl, h]

section
variable (hw : l.st = .waiting) (hx : (ctxOf s l.ctx).st = 1) (hr : packetReady s l = true)
include hw hx hr

theorem launchReady_refuses (hk : l.kind = 1) {st : Nat} (h : resolve s l = .error st) :
    exec (.launchReady lid) s = .next (completePacket s lid st) := by
  change execLaunchReady lid s = _
  simp [execLaunchReady, hl, hw, hx, hr, hk, h]

/-- A launch with its variant is offered, unless it replays a block that it does not have. -/
theorem launchReady_resolves (hk : l.kind = 1) {v : Variant} (h : resolve s l = .ok v) : exec (.launchReady lid) s =
    .next (if l.replay.elim false (fun b => decide (l.nblocks ≤ b)) then completePacket s lid 1
      else offer (modLaunch s lid (fun l => { l with var := some v, fuse := l.fuse || v.info.fuse })) lid l) := by
  change execLaunchReady lid s = _
  simp [execLaunchReady, hl, hw, hx, hr, hk, h, apply_ite Host.Outcome.next]

theorem launchReady_marker (hk : l.kind = 2) : exec (.launchReady lid) s = .next (completePacket s lid 0) := by
  change execLaunchReady lid s = _
  simp [execLaunchReady, hl, hw, hx, hr, hk]

theorem launchReady_tlb (hk : l.kind = 3) :
    exec (.launchReady lid) s = .next (modLaunch s lid (fun l => { l with st := .placed })) := by
  change execLaunchReady lid s = _
  simp [execLaunchReady, hl, hw, hx, hr, hk]

end

/-- A TLB packet that waits in a context that runs completes once no older access is left. -/
theorem tlbInvalidationComplete_eq (hk : l.kind = 3) (hp : l.st = .placed) : exec (.tlbInvalidationComplete lid) s =
    .next (if (ctxOf s l.ctx).st ≠ 1 ∨ oldAccess s l.ctx lid = true then s else completePacket s lid 0) := by
  change execTlbInvalidationComplete lid s = _
  simp [execTlbInvalidationComplete, hl, hk, hp, apply_ite Host.Outcome.next]

end

/-- Settles O45: a register event is one write that the owner alone makes, both reads of a slot are one read with their own answer
to another sequence, and a ready packet does what its kind says. A replay of a block that the launch does not have is the DEDUCED
choice of log entry 32. -/
theorem queuesAndPacketsMove : Obligations.QueuesAndPacketsMove := by
  refine ⟨fun s fn c q v hc ha hb ho hq hx => ?registers, fun s c q hs => ?slots, fun s lid l hl => ?packets⟩
  case registers =>
    have qctl (v : Nat) : fnQueueWrite s fn c q 1 v = writeQctl s c q v :=
      (fnQueueWrite_owner hc ha hb ho hq 1 v).trans (queueWrite_qctl hx v)
    have door (v : Nat) : fnQueueWrite s fn c q 2 v = ringDoor s c q v :=
      (fnQueueWrite_owner hc ha hb ho hq 2 v).trans (queueWrite_door hx v)
    exact ⟨fun he => congrArg Host.Outcome.next ((qctl _).trans (writeQctl_enables he v)),
      congrArg Host.Outcome.next ((qctl _).trans (writeQctl_disables s c q v)),
      fun hd => congrArg Host.Outcome.next ((door _).trans (ringDoor_held hd)),
      fun hd he hw => congrArg Host.Outcome.next ((door _).trans (ringDoor_beyond hd he hw)),
      fun hd hw => congrArg Host.Outcome.next ((door _).trans (ringDoor_moves hd hw))⟩
  case slots =>
    intro x i hi
    have reads := packet_reads hs hi
    refine ⟨fun hw => reads.trans (congrArg _ (readSlot_unreadable hw)), fun w hw heq => ?_, fun w hw hne => ?_⟩
    · have whole := reads.trans (congrArg _ (readSlot_match hw heq))
      refine ⟨fun hn => whole.trans ?_, fun bs hbs => ⟨fun hbad => whole.trans ?_, fun hok => whole.trans ?_⟩⟩
      · rw [hn, Option.elim_none]
      · rw [hbs, Option.elim_some]
        exact congrArg _ (if_pos hbad)
      · rw [hbs, Option.elim_some]
        exact congrArg _ (if_neg (Bool.eq_false_iff.mp hok))
    · have torn := reads.trans (congrArg _ (readSlot_mismatch hw hne))
      exact ⟨fun hr => torn.trans (congrArg _ (tornSlot_first hr)), fun hr ht => torn.trans (congrArg _ (tornSlot_last hr ht)),
        fun hr ht => torn.trans (congrArg _ (tornSlot_again hr ht))⟩
  case packets =>
    refine ⟨fun hw hx hr => ⟨fun hk st => launchReady_refuses hl hw hx hr hk, fun hk v hv => ?_, launchReady_marker hl hw hx hr,
      launchReady_tlb hl hw hx hr⟩, launchReady_unready hl, fun hk hp hx => ?_, fun hk hp hx => ⟨fun ho => ?_, fun ho => ?_⟩⟩
    · have resolved := launchReady_resolves hl hw hx hr hk hv
      refine ⟨fun b hb hn => resolved.trans (congrArg _ (if_pos ?_)), fun hn => resolved.trans (congrArg _ (if_neg ?_))⟩
      · simpa [hb] using hn
      · cases hb : l.replay with
        | none => simp
        | some b => simpa using hn b hb
    · exact (tlbInvalidationComplete_eq hl hk hp).trans (congrArg _ (if_pos (.inl hx)))
    · exact (tlbInvalidationComplete_eq hl hk hp).trans (congrArg _ (if_pos (.inr ho)))
    · exact (tlbInvalidationComplete_eq hl hk hp).trans (congrArg _ (if_neg (by simp [hx, ho])))

end Sys2Proof.Machine
end

section
/-! SUPPORT. Sensors and samples (R382 to R393, R398, R400): points settled, thermal samples, way gating, Cairn samples, the scrubber. -/

namespace Sys2Proof.Machine

/-! Points and temperatures (R382, R383). -/

theorem operatingPointSettled_eq {s : State} {rope t : Nat} (h : (ropeOf s rope).settleEnd = some t) :
    exec (.operatingPointSettled rope) s =
      .next (if s.now < t then s else modRope s rope (fun r => { r with settleEnd := none, oldPoint := r.point })) := by
  change execOperatingPointSettled rope s = _
  simp only [execOperatingPointSettled, h]
  exact (apply_ite Host.Outcome.next ..).symm

theorem dwelt_iff (s : State) (r : Rope) : dwelt s r = true ↔ ∀ t, r.dwellFrom = some t → t + 2000000 ≤ s.now := by
  unfold dwelt
  cases r.dwellFrom with
  | none => simp
  | some t =>
    rw [Option.elim_some, decide_eq_true_iff]
    exact ⟨fun h u hu => Option.some.inj hu ▸ h, fun h => h t rfl⟩

section
variable {s : State} {rope : Nat} {tj : BitVec 16} (hr : rope < Config.ropes) (hn : (ropeOf s rope).nextSample ≤ s.now)
include hr hn

theorem thermalSample_throttles (ht : (ropeOf s rope).throttled = false) (htj : 95 * 8 ≤ tj.toInt)
    (hd : dwelt s (ropeOf s rope) = true) : exec (.thermalSample rope tj) s = .next (repoint (modRope
      (modRope s rope (fun r => { r with tj := tj, nextSample := s.now + 1000 })) rope
      (fun r => { r with throttled := true, dwellFrom := some s.now, entries := satInc r.entries })) rope) := by
  change execThermalSample rope tj s = _
  have hhot : 760 ≤ tj.toInt := htj
  simp [execThermalSample, Nat.not_le.mpr hr, Nat.not_lt.mpr hn, ht, hhot, hd]

theorem thermalSample_releases (ht : (ropeOf s rope).throttled = true) (htj : tj.toInt < 92 * 8)
    (hd : dwelt s (ropeOf s rope) = true) : exec (.thermalSample rope tj) s = .next (repoint (modRope
      (modRope s rope (fun r => { r with tj := tj, nextSample := s.now + 1000 })) rope
      (fun r => { r with throttled := false, dwellFrom := some s.now })) rope) := by
  change execThermalSample rope tj s = _
  have hcool : tj.toInt < 736 := htj
  simp [execThermalSample, Nat.not_le.mpr hr, Nat.not_lt.mpr hn, ht, hcool, hd]

/-- A rope that has not dwelt, or whose state suits the sample, keeps its state. -/
theorem thermalSample_keeps (h : dwelt s (ropeOf s rope) = false ∨ ((ropeOf s rope).throttled = false ∧ tj.toInt < 95 * 8) ∨
      ((ropeOf s rope).throttled = true ∧ 92 * 8 ≤ tj.toInt)) : exec (.thermalSample rope tj) s =
    .next (modRope s rope (fun r => { r with tj := tj, nextSample := s.now + 1000 })) := by
  change execThermalSample rope tj s = _
  rcases h with hd | ⟨ht, htj⟩ | ⟨ht, htj⟩
  · simp [execThermalSample, Nat.not_le.mpr hr, Nat.not_lt.mpr hn, hd]
  · have hcool : ¬ 760 ≤ tj.toInt := Int.not_le.mpr htj
    simp [execThermalSample, Nat.not_le.mpr hr, Nat.not_lt.mpr hn, ht, hcool]
  · have hhot : ¬ tj.toInt < 736 := Int.not_lt.mpr htj
    simp [execThermalSample, Nat.not_le.mpr hr, Nat.not_lt.mpr hn, ht, hhot]

end

/-! Way gating (R387, R388). -/

/-- The ways that an interval leaves a slice with. -/
def gatedWays (g : Slice) (gate missHigh : Bool) : Nat :=
  if g.nogate then 16
  else if missHigh || decide (g.ways < max 4 g.minways) then min 16 (g.ways + 4)
  else if gate && decide (max 4 g.minways < g.ways) then g.ways - 1
  else g.ways

theorem wayGatingInterval_gates {s : State} {slice : Nat} (gate missHigh : Bool) (hs : slice < Config.slices)
    (hn : (sliceOf s slice).nextInt ≤ s.now) : exec (.wayGatingInterval slice gate missHigh) s = .next (modSlice s slice (fun x =>
      { x with ways := gatedWays (sliceOf s slice) gate missHigh, nextInt := s.now + 1000000 })) := by
  change execWayGatingInterval slice gate missHigh s = _
  simp only [execWayGatingInterval, Nat.not_le.mpr hs, Nat.not_lt.mpr hn, decide_false, Bool.or_self, Bool.false_eq_true, if_false,
    gatedWays]

section
variable {g : Slice} {gate missHigh : Bool}

theorem gatedWays_nogate (h : g.nogate = true) : gatedWays g gate missHigh = 16 := if_pos h

theorem gatedWays_grows (hg : g.nogate = false) (h : missHigh = true ∨ g.ways < max 4 g.minways) :
    gatedWays g gate missHigh = min 16 (g.ways + 4) := by
  rw [gatedWays, if_neg (Bool.eq_false_iff.mp hg), if_pos (by simpa using h)]

theorem gatedWays_shrinks (hg : g.nogate = false) (hm : missHigh = false) (hw : max 4 g.minways < g.ways) (h : gate = true) :
    gatedWays g gate missHigh = g.ways - 1 := by
  simp only [gatedWays, hg, hm, h, hw, Nat.not_lt.mpr (Nat.le_of_lt hw), decide_true, decide_false, Bool.and_self, Bool.or_self,
    Bool.false_eq_true, if_false, if_true]

theorem gatedWays_stays (hg : g.nogate = false) (hm : missHigh = false) (hw : max 4 g.minways ≤ g.ways)
    (h : gate = false ∨ max 4 g.minways = g.ways) : gatedWays g gate missHigh = g.ways := by
  have hno : (gate && decide (max 4 g.minways < g.ways)) = false := by
    rcases h with h | h <;> simp only [h, Bool.false_and, Nat.lt_irrefl, decide_false, Bool.and_false]
  simp only [gatedWays, hg, hm, hno, Nat.not_lt.mpr hw, decide_false, Bool.or_self, Bool.false_eq_true, if_false]

end

/-! Samples (R392, R393). -/

theorem cairnSamplePick_draws {s : State} {core ctx : Nat} (hp : (ctxOf s ctx).speriod ≠ 0)
    (hf : ∀ x ∈ s.picks, x.core = core → x.ctx = ctx → x.pEnd ≤ s.now) : exec (.cairnSamplePick core ctx) s = .next { s with
      picks := s.picks.filter (fun x => !(x.core == core && x.ctx == ctx && x.wid.isNone)) ++
        [⟨core, ctx, (s.now / (ctxOf s ctx).speriod + 1) * (ctxOf s ctx).speriod, 0, none, [], true, 0⟩] } := by
  have hfree : pickFree s core ctx = true := by simpa [pickFree] using hf
  change execCairnSamplePick core ctx s = _
  simp only [execCairnSamplePick, beq_eq_false_iff_ne.mpr hp, hfree, Bool.not_true, Bool.or_self, Bool.false_eq_true, if_false]
  rfl

theorem sampleLevel_eq (p : Pick) (level : BitVec 4) :
    sampleLevel p level = if (p.level = 4 ∨ p.level = 5) ∧ level = 6 then 6 else p.level := by
  simp only [sampleLevel, Bool.and_eq_true, Bool.or_eq_true, beq_iff_eq]

theorem cairnRecordWrite_records {s : State} {i wid : Nat} {p : Pick} (lat : List (BitVec 16)) (level : BitVec 4)
    (hp : s.picks[i]? = some p) (hw : p.wid = some wid) (hd : sampleDone s p wid = true) :
    let used : List Pick := if s.now < p.pEnd then [⟨p.core, p.ctx, p.pEnd, 0, none, [], false, 0⟩] else []
    exec (.cairnRecordWrite i lat level) s = .next (samplePush { s with picks := s.picks.eraseIdx i ++ used } p.ctx
      (sampleWords p.words lat (sampleLevel p level))) := by
  change execCairnRecordWrite i lat level s = _
  simp only [execCairnRecordWrite, hp, hw, hd, Bool.not_true, Bool.false_eq_true, if_false]

/-! The scrubber (R398, R400). -/

section
variable {s : State} {pa : Nat} (h : isDevMem s pa = true)
include h

theorem patrolScrub_corrected : exec (.patrolScrub pa 1) s = .next (errPush s pa 1 1 0x7F) := by
  change execPatrolScrub pa 1 s = _
  simp [execPatrolScrub, memError, h]

theorem patrolScrub_spill {k : Nat} {b : Block} (hb : spillBlock s (canonPa s pa) = some (k, b)) :
    exec (.patrolScrub pa 2) s = .next (errPush (spillError s k b) pa 1 2 0x7F) := by
  change execPatrolScrub pa 2 s = _
  simp [execPatrolScrub, memError, h, hb]

theorem patrolScrub_poisons (hb : spillBlock s (canonPa s pa) = none) :
    exec (.patrolScrub pa 2) s = .next (errPush (poisonUnit s pa) pa 1 2 0x7F) := by
  change execPatrolScrub pa 2 s = _
  simp [execPatrolScrub, memError, h, hb]

end

theorem poisonUnit_marked {s : State} {pa : Nat} (h : unitOf (canonPa s pa) ∈ s.poison) : poisonUnit s pa = s :=
  if_pos (List.contains_iff_mem.mpr h)

theorem poisonUnit_marks {s : State} {pa : Nat} (h : unitOf (canonPa s pa) ∉ s.poison) :
    poisonUnit s pa = { s with poison := unitOf (canonPa s pa) :: s.poison } :=
  if_neg (mt List.contains_iff_mem.mp h)

/-- Settles O48: each event acts once its time has come, and its readings choose what it leaves. That the next thermal sample and the
next interval are counted from the last one taken is the DEDUCED choice of log entry 15, and what an error in a spill area strikes
the DESIGN CHOICE of log entry 19. -/
theorem sensorsAndSamplesAct : Obligations.SensorsAndSamplesAct := by
  refine ⟨fun s rope t h => ⟨fun ht => ?_, fun ht => ?_⟩, fun s rope tj hr => ?thermal, fun s slice gate missHigh hs => ?ways,
    fun s core ctx => cairnSamplePick_draws, fun s i p wid lat level hp hw hd => ?record, fun s pa h => ?scrub⟩
  · exact (operatingPointSettled_eq h).trans (congrArg _ (if_neg (Nat.not_lt.mpr ht)))
  · exact (operatingPointSettled_eq h).trans (congrArg _ (if_pos ht))
  case thermal =>
    intro r hn
    have hd := dwelt_iff s r
    refine ⟨fun ht htj h => thermalSample_throttles hr hn ht htj (hd.mpr h),
      fun ht htj h => thermalSample_releases hr hn ht htj (hd.mpr h), fun h => thermalSample_keeps hr hn (h.imp_left fun hnot => ?_)⟩
    exact Bool.eq_false_iff.mpr (mt hd.mp hnot)
  case ways =>
    intro g least ways hn
    have gates {n : Nat} (h : gatedWays g gate missHigh = n) : ways n := h ▸ wayGatingInterval_gates gate missHigh hs hn
    exact ⟨fun h => gates (gatedWays_nogate h), fun hg h => gates (gatedWays_grows hg h),
      fun hg hm hw h => gates (gatedWays_shrinks hg hm hw h), fun hg hm hw h => gates (gatedWays_stays hg hm hw h)⟩
  case record =>
    intro used
    rw [← sampleLevel_eq]
    exact cairnRecordWrite_records lat level hp hw hd
  case scrub =>
    refine ⟨patrolScrub_corrected h, fun hb => ⟨fun hm => ?_, fun hm => ?_⟩, fun k b => patrolScrub_spill h⟩
    · rw [patrolScrub_poisons h hb, poisonUnit_marked hm]
    · rw [patrolScrub_poisons h hb, poisonUnit_marks hm]

end Sys2Proof.Machine
end
